-- ==== Sys2Proof/Word.lean ====
section
/-!
DEFINITION. The word types of the Thixis and the keyed lists that every table of the model is kept in.
Widths: 01 R12, R15; 02 R45 (a register holds 32 bits in each of 32 lanes); 00 R3 (little-endian bytes).
-/

namespace Sys2Proof

/-- One byte of memory. -/
abbrev Byte := BitVec 8

/-- One lane's 32-bit register value (04 R110). -/
abbrev Word := BitVec 32

/-- A 64-bit value: a register pair, an address or an owner register (02 R47, 15 R334). -/
abbrev DWord := BitVec 64

/-- One value for each of the 32 lanes of a flight, lane 0 first. -/
abbrev Lanes := List Word

/-- The 32 lanes of a flight (01 R16). -/
def laneIds : List Nat := List.range 32

/-- The lanes' values given by a function of the lane. -/
def Lanes.tab (f : Nat → Word) : Lanes := laneIds.map f

/-- The value of lane `l`. -/
def Lanes.at (v : Lanes) (l : Nat) : Word := v.getD l 0

/-- The entry of a keyed list. -/
def kget {α : Type} (key : α → Nat) (k : Nat) : List α → Option α
  | [] => none
  | a :: as => if key a = k then some a else kget key k as

/-- The keyed list with `a` in the place of the entry of the same key, or added at the end. -/
def kset {α : Type} (key : α → Nat) (a : α) : List α → List α
  | [] => [a]
  | b :: bs => if key b = key a then a :: bs else b :: kset key a bs

/-- The keyed list without the entries of key `k`. -/
def kdel {α : Type} (key : α → Nat) (k : Nat) (as : List α) : List α :=
  as.filter fun a => key a ≠ k

/-- The list with place `i` replaced. -/
def listSet {α : Type} (as : List α) (i : Nat) (a : α) : List α :=
  match as, i with
  | [], _ => []
  | _ :: bs, 0 => a :: bs
  | b :: bs, n + 1 => b :: listSet bs n a

end Sys2Proof
end

