-- ==== Sys2Proof/Config.lean ====
section
/-!
DEFINITION. What the manual leaves to the device: the free values, which have no body, and the sizes that are fixed
for every part (01 R10 to R15).
-/

namespace Sys2Proof.Config

/-- A free choice: the `n`th choice of a run, made at place `i` (03 R80, R83, R86; 08 R183; 11 R258, R262). Log 9. -/
opaque freeBit : Nat → Nat → Bool

/-- A free word: the `n`th of a run, at place `i` (03 R83: a reader before completion). Log 9. -/
opaque freeWord : Nat → Nat → BitVec 32

/-- The L3 TLB bank of a partition that serves a page: a hash of VA[56:12] over the partition's banks (15 R339),
which the manual does not give. Arguments: number of banks, page number. Log 10. -/
opaque bankHash : Nat → Nat → Nat

/-- Which entry a full TLB replaces, which the manual leaves open but for the bank's rule about shares (15 R339).
Arguments: the time, the page that enters. Log 23. -/
opaque tlbVictim : Nat → Nat → Nat

/-- The set of a hall's L2 that a line lies in, which the manual does not give (17 R385). Log 10. -/
opaque l2Set : Nat → Nat

/-- Which line a full L1 or L2 replaces where none is marked as the next victim, which the manual does not give. Arguments: the
time, the line that enters. Log 32. -/
opaque cacheVictim : Nat → Nat → Nat

/-- The scale plane's offset, and the D, of a scratchpad side in a DX encoding that no record describes (11 R252, R256).
Log 19. -/
opaque scratchPlane : Nat
opaque scratchDelta : Nat

/-- Cores in a hall (01 R12). -/
def coresPerHall : Nat := 12

/-- Halls in a gallery (01 R12). -/
def hallsPerGallery : Nat := 6

/-- Channel groups in a gallery (01 R10). -/
def groupsPerGallery : Nat := 8

/-- Bytes of a channel group, 12 GiB (01 R10). -/
def groupBytes : Nat := 0x300000000

/-- Resident flights a quadrant holds (01 R15). -/
def slotsPerQuadrant : Nat := 16

/-- General rows of a quadrant bank (01 R15). -/
def rowsPerQuadrant : Nat := 1024

/-- Bytes of a quadrant's uniform and affine store (01 R14). -/
def unifBytes : Nat := 16384

/-- Bytes of a core's scratchpad (01 R14). -/
def scratchBytes : Nat := 524288

/-- Macro bodies of a core's control store (01 R14). -/
def macroSlots : Nat := 64

/-- Entries of a quadrant's memory queue (08 R192). -/
def memQueue : Nat := 32

/-- Entries of a quadrant's float unit queue (06 R158). -/
def vfuQueue : Nat := 8

/-- Copies queued on a core, issued by a team, and active at once (11 R249). -/
def copyQueue : Nat := 32
def copyPerTeam : Nat := 16
def copyActive : Nat := 8

/-- Matrix commands in a sequencer's queue (12 R273). -/
def matrixQueue : Nat := 8

/-- TLB entries of a core, a hall and a bank (15 R339). -/
def l1TlbEntries : Nat := 256
def l2TlbEntries : Nat := 8192
def l3TlbEntries : Nat := 16384

/-- Granules of 16 bytes that a core's L1 holds, 640 KiB, and a hall's L2, 12 MiB (01 R13, R14; 08 R189). -/
def l1Granules : Nat := 40960
def l2Granules : Nat := 786432

/-- Bytes of a hall's L2 that pins may hold: one eighth of 12 MiB (12 R280). -/
def pinBytes : Nat := 1572864

/-- The default slice length, 2^21 cycles (17 R379). -/
def defaultSlice : Nat := 2097152

end Sys2Proof.Config
end

