-- ==== Sys2Proof/Syntax.lean ====
section
/-!
DEFINITION. The syntax: one constructor for each row of spec/opcode_table.json.
A fetched row carries the fields of its format as R35, R37 and R38 of 02 lay them out; what a field means is the row's
(Sys2Proof/WellFormed.lean), because 02 R49 decides which value of which field traps first.
An event row carries what the outside world, or the turn taken, supplies.
-/

namespace Sys2Proof

/-- The fields of an X64 instruction besides op9 and the length bits (02 R38). -/
structure XF where
  d     : BitVec 8
  a     : BitVec 8
  b     : BitVec 8
  c     : BitVec 8
  ws    : Bool
  set   : BitVec 4
  wait  : BitVec 12
  dist  : BitVec 3
  chain : Bool
  deriving DecidableEq, Repr

/-- The fields of a W32 instruction besides op7 and the length bits (02 R37). -/
structure WF where
  d    : BitVec 6
  a    : BitVec 6
  b    : BitVec 6
  wait : BitVec 3
  dist : BitVec 2
  deriving DecidableEq, Repr

/-- The fields of an H16 instruction besides op4 and the length bit (02 R35). -/
structure HF where
  d     : BitVec 5
  b     : BitVec 5
  chain : Bool
  deriving DecidableEq, Repr

/-- The structures of the table of 17 R385. -/
inductive ErrorStruct where
  | llcData | llcTag | l3Tlb | l2Data | l2Tag | l2TlbEntry | l1TlbEntry | memory | dispatcher | atriumEntry | atriumShared
  /-- Core-private SRAM (code 0x0A): a register, the scratchpad, the accumulators, or the L1. -/
  | coreReg | coreScratch | coreAccum | coreL1
  deriving DecidableEq, Repr

/-- Where an uncorrectable error struck: the structure, its unit (slice, bank, hall, core or queue number), the physical
address of the data or the index of the set, and the bytes it spans (17 R385, R386). Of core-private SRAM the address is a
byte of the scratchpad, an accumulator row, a physical address in the L1, or for a register 4096 × the quadrant + 256 × the
flight's place in it + the register. -/
structure ErrorSite where
  struct : ErrorStruct
  unit   : Nat
  addr   : Nat
  len    : Nat
  deriving DecidableEq, Repr

/-- A host's memory request: an offset, and the bytes of a write or the length of a read (19 R405, R407). -/
inductive HostAccess where
  | read (offset len : Nat)
  | write (offset : Nat) (bytes : List Byte)
  deriving DecidableEq, Repr

/-- A memory request that arrives on one of the device's host ports (19 R395). -/
structure PortAccess where
  port   : Nat
  access : HostAccess
  deriving DecidableEq, Repr

/-- An access to a device register that has no behaviour of its own beyond its access column: of a virtual function on a port,
of the physical function, or of the management core (19 R395, R397, R402; 21 R423, R424, R415); a configuration read of a virtual
function; and a write that the far device of a link sees to one of its PAIR registers (19 R411). -/
inductive RegAccess where
  | vf (port vd offset size : Nat) (value : DWord)
  | vfRead (port vd offset size : Nat)
  | vfConfig (port vd : Nat)
  | pf (offset size : Nat) (value : DWord)
  | pfRead (offset size : Nat)
  | mgmt (address size : Nat) (value : DWord)
  | farPair (link vd : Nat) (value : Word)
  deriving DecidableEq, Repr

/-- What the far end of an arcade link presents at training (19 R411): its identity, and the PAIR registers that its owners
have for this link. -/
structure FarEnd where
  identity : BitVec 12
  pairs    : List (Nat × Word)
  deriving DecidableEq, Repr

/-- A 64-byte block that arrives from a peer (19 R411): the link, the owner it names here, the far owner, the address. -/
structure PeerBlock where
  link  : Nat
  vd    : Nat
  farVd : Nat
  va    : DWord
  bytes : List Byte
  deriving DecidableEq, Repr

/-- A peer's answer to a 64-byte block of a CPYP (11 R266). Beats of other forms carry `acknowledged`. -/
inductive PeerAnswer where
  | acknowledged | refused | linkDown
  deriving DecidableEq, Repr

/-- The instructions of spec/opcode_table.json in its order, then its events in its order. -/
inductive Instr where
  /-- NOP (R105): X64 NOP takes one issue slot and changes no state. -/
  | nop (x : XF)
  /-- NOP_W32 (R105): W32 form of NOP. -/
  | nopW32 (w : WF)
  /-- BRA (R101): X64 unconditional relative branch with a signed 24-bit halfword offset. -/
  | bra (x : XF)
  /-- BRA_W32 (R101): W32 unconditional branch with an 18-bit offset. -/
  | braW32 (w : WF)
  /-- BRP (R101): X64 branch on a predicate masked by EM, in mode ANY, ALL, NONE or NALL. -/
  | brp (x : XF)
  /-- BRP_ANY_W32 (R101): W32 BRP.ANY with a 12-bit offset. -/
  | brpAnyW32 (w : WF)
  /-- BRP_NONE_W32 (R101): W32 BRP.NONE with a 12-bit offset. -/
  | brpNoneW32 (w : WF)
  /-- BREZ (R101): X64 branch taken when EM is zero. -/
  | brez (x : XF)
  /-- BREZ_W32 (R101): W32 BREZ with an 18-bit offset. -/
  | brezW32 (w : WF)
  /-- JMP (R102): Absolute jump to the address in a uniform pair. -/
  | jmp (x : XF)
  /-- CALL (R102): Writes the return address to a pair and branches relative. -/
  | call (x : XF)
  /-- RET (R102): Absolute return to the address in a pair. -/
  | ret (x : XF)
  /-- EMGET (R103): X64 copy of EM into every lane of a register. -/
  | emget (x : XF)
  /-- EMGET_W32 (R103): W32 form of EMGET. -/
  | emgetW32 (w : WF)
  /-- EMSET (R103): X64 set of EM from lane 0 of a register. -/
  | emset (x : XF)
  /-- EMSET_W32 (R103): W32 form of EMSET. -/
  | emsetW32 (w : WF)
  /-- EMAND (R103): X64 EM AND predicate. -/
  | emand (x : XF)
  /-- EMAND_W32 (R103): W32 form of EMAND. -/
  | emandW32 (w : WF)
  /-- EMANDN (R103): X64 EM AND NOT predicate. -/
  | emandn (x : XF)
  /-- EMANDN_W32 (R103): W32 form of EMANDN. -/
  | emandnW32 (w : WF)
  /-- MCALL (R93): Runs a macro body of the running variant with parameter slots replaced. -/
  | mcall (x : XF)
  /-- TRAP (R104): Raises SOFTWARE with an 8-bit code. -/
  | trap (x : XF)
  /-- YIELD (R105): X64 YIELD makes the flight youngest in placement order. -/
  | yield (x : XF)
  /-- YIELD_W32 (R105): W32 form of YIELD. -/
  | yieldW32 (w : WF)
  /-- WAITF (R105): X64 WAITF blocks until every completion flag is zero. -/
  | waitf (x : XF)
  /-- WAITF_W32 (R105): W32 form of WAITF. -/
  | waitfW32 (w : WF)
  /-- EXIT (R106): X64 EXIT drains and ends the flight. -/
  | exit (x : XF)
  /-- EXIT_W32 (R106): W32 form of EXIT. -/
  | exitW32 (w : WF)
  /-- GETSR (R107): X64 read of a special value into the active lanes. -/
  | getsr (x : XF)
  /-- GETSR_W32 (R107): W32 form of GETSR with selector in a and level in b. -/
  | getsrW32 (w : WF)
  /-- IADD (R118): X64 integer add, wrapping or saturating by type. -/
  | iadd (x : XF)
  /-- IADD_W32 (R118): W32 IADD.I32. -/
  | iaddW32 (w : WF)
  /-- IADD_SAT_W32 (R118): W32 IADD.I32.SAT. -/
  | iaddSatW32 (w : WF)
  /-- IADD_H16 (R118): H16 two-address IADD.I32. -/
  | iaddH16 (h : HF)
  /-- ISUB (R118): X64 integer subtract. -/
  | isub (x : XF)
  /-- ISUB_W32 (R118): W32 ISUB.I32. -/
  | isubW32 (w : WF)
  /-- ISUB_SAT_W32 (R118): W32 ISUB.I32.SAT. -/
  | isubSatW32 (w : WF)
  /-- ISUB_H16 (R118): H16 two-address ISUB.I32. -/
  | isubH16 (h : HF)
  /-- IMUL (R119): X64 low half of an exact product. -/
  | imul (x : XF)
  /-- IMUL_W32 (R119): W32 IMUL.I32. -/
  | imulW32 (w : WF)
  /-- IMULH (R119): X64 high 32 bits of a 64-bit product. -/
  | imulh (x : XF)
  /-- IMULH_I32_W32 (R119): W32 IMULH.I32. -/
  | imulhI32W32 (w : WF)
  /-- IMULH_N32_W32 (R119): W32 IMULH.N32. -/
  | imulhN32W32 (w : WF)
  /-- IMLA (R119): 32-bit multiply-add, low half. -/
  | imla (x : XF)
  /-- IMLAL_I32 (R119): Signed 64-bit multiply-accumulate into a pair. -/
  | imlalI32 (x : XF)
  /-- IMLAL_N32 (R119): Unsigned 64-bit multiply-accumulate into a pair. -/
  | imlalN32 (x : XF)
  /-- IMIN (R120): X64 integer minimum. -/
  | imin (x : XF)
  /-- IMIN_I32_W32 (R120): W32 IMIN.I32. -/
  | iminI32W32 (w : WF)
  /-- IMIN_N32_W32 (R120): W32 IMIN.N32. -/
  | iminN32W32 (w : WF)
  /-- IMIN_H16 (R120): H16 two-address IMIN.I32. -/
  | iminH16 (h : HF)
  /-- IMAX (R120): X64 integer maximum. -/
  | imax (x : XF)
  /-- IMAX_I32_W32 (R120): W32 IMAX.I32. -/
  | imaxI32W32 (w : WF)
  /-- IMAX_N32_W32 (R120): W32 IMAX.N32. -/
  | imaxN32W32 (w : WF)
  /-- IMAX_H16 (R120): H16 two-address IMAX.I32. -/
  | imaxH16 (h : HF)
  /-- IABS (R120): X64 integer absolute value. -/
  | iabs (x : XF)
  /-- IABS_W32 (R120): W32 IABS.I32. -/
  | iabsW32 (w : WF)
  /-- INEG (R120): X64 integer negation. -/
  | ineg (x : XF)
  /-- INEG_W32 (R120): W32 INEG.I32. -/
  | inegW32 (w : WF)
  /-- IADDMIN_I32 (R121): Saturating add then signed minimum, 32-bit. -/
  | iaddminI32 (x : XF)
  /-- IADDMIN_I16X2 (R121): Saturating add then minimum on two 16-bit halves. -/
  | iaddminI16x2 (x : XF)
  /-- AND (R122): X64 bitwise AND. -/
  | and (x : XF)
  /-- AND_W32 (R122): W32 AND.N32. -/
  | andW32 (w : WF)
  /-- AND_H16 (R122): H16 two-address AND.N32. -/
  | andH16 (h : HF)
  /-- OR (R122): X64 bitwise OR. -/
  | or (x : XF)
  /-- OR_W32 (R122): W32 OR.N32. -/
  | orW32 (w : WF)
  /-- OR_H16 (R122): H16 two-address OR.N32. -/
  | orH16 (h : HF)
  /-- XOR (R122): X64 bitwise XOR. -/
  | xor (x : XF)
  /-- XOR_W32 (R122): W32 XOR.N32. -/
  | xorW32 (w : WF)
  /-- XOR_H16 (R122): H16 two-address XOR.N32. -/
  | xorH16 (h : HF)
  /-- ANDN (R122): X64 A AND NOT B. -/
  | andn (x : XF)
  /-- ANDN_W32 (R122): W32 ANDN.N32. -/
  | andnW32 (w : WF)
  /-- NOT (R122): X64 bitwise NOT. -/
  | not (x : XF)
  /-- NOT_W32 (R122): W32 NOT.N32. -/
  | notW32 (w : WF)
  /-- SHL (R123): X64 shift left by register count. -/
  | shl (x : XF)
  /-- SHL_W32 (R123): W32 SHL.N32 by register. -/
  | shlW32 (w : WF)
  /-- SHL_H16 (R123): H16 two-address SHL.N32. -/
  | shlH16 (h : HF)
  /-- SHR (R123): X64 logical shift right by register count. -/
  | shr (x : XF)
  /-- SHR_W32 (R123): W32 SHR.N32 by register. -/
  | shrW32 (w : WF)
  /-- SHR_H16 (R123): H16 two-address SHR.N32. -/
  | shrH16 (h : HF)
  /-- SAR (R123): X64 arithmetic shift right by register count. -/
  | sar (x : XF)
  /-- SAR_W32 (R123): W32 SAR.I32 by register. -/
  | sarW32 (w : WF)
  /-- SAR_H16 (R123): H16 two-address SAR.I32. -/
  | sarH16 (h : HF)
  /-- ROTL (R123): X64 rotate left by register count. -/
  | rotl (x : XF)
  /-- ROTL_W32 (R123): W32 ROTL.N32 by register. -/
  | rotlW32 (w : WF)
  /-- SHL_IMM (R123): X64 shift left by immediate. -/
  | shlImm (x : XF)
  /-- SHL_IMM_W32 (R123): W32 shift left by imm6. -/
  | shlImmW32 (w : WF)
  /-- SHR_IMM (R123): X64 logical shift right by immediate. -/
  | shrImm (x : XF)
  /-- SHR_IMM_W32 (R123): W32 shift right by imm6. -/
  | shrImmW32 (w : WF)
  /-- SAR_IMM (R123): X64 arithmetic shift right by immediate. -/
  | sarImm (x : XF)
  /-- SAR_IMM_W32 (R123): W32 arithmetic shift right by imm6. -/
  | sarImmW32 (w : WF)
  /-- ROTL_IMM (R123): X64 rotate left by immediate. -/
  | rotlImm (x : XF)
  /-- ROTL_IMM_W32 (R123): W32 rotate left by imm6. -/
  | rotlImmW32 (w : WF)
  /-- CLZ (R124): X64 count of leading zeros. -/
  | clz (x : XF)
  /-- CLZ_W32 (R124): W32 CLZ.N32. -/
  | clzW32 (w : WF)
  /-- POPC (R124): X64 population count. -/
  | popc (x : XF)
  /-- POPC_W32 (R124): W32 POPC.N32. -/
  | popcW32 (w : WF)
  /-- BREV (R124): X64 bit reversal. -/
  | brev (x : XF)
  /-- BREV_W32 (R124): W32 BREV.N32. -/
  | brevW32 (w : WF)
  /-- BFX_N32 (R125): Unsigned bit-field extract. -/
  | bfxN32 (x : XF)
  /-- BFX_I32 (R125): Signed bit-field extract. -/
  | bfxI32 (x : XF)
  /-- BFI (R125): Bit-field insert. -/
  | bfi (x : XF)
  /-- ICMP (R126): X64 integer compare writing a predicate. -/
  | icmp (x : XF)
  /-- ICMP_EQ_W32 (R126): W32 ICMP.EQ.I32. -/
  | icmpEqW32 (w : WF)
  /-- ICMP_NE_W32 (R126): W32 ICMP.NE.I32. -/
  | icmpNeW32 (w : WF)
  /-- ICMP_LT_W32 (R126): W32 ICMP.LT.I32. -/
  | icmpLtW32 (w : WF)
  /-- ICMP_LE_W32 (R126): W32 ICMP.LE.I32. -/
  | icmpLeW32 (w : WF)
  /-- ICMP_LT_N32_W32 (R126): W32 ICMP.LT.N32. -/
  | icmpLtN32W32 (w : WF)
  /-- ICMP_LE_N32_W32 (R126): W32 ICMP.LE.N32. -/
  | icmpLeN32W32 (w : WF)
  /-- SEL (R126): Selects between two registers by a predicate. -/
  | sel (x : XF)
  /-- MOV (R127): X64 register move. -/
  | mov (x : XF)
  /-- MOV_W32 (R127): W32 MOV.N32. -/
  | movW32 (w : WF)
  /-- MOV_H16 (R127): H16 MOV d from b. -/
  | movH16 (h : HF)
  /-- MOVI (R127): X64 move of a sign-extended 24-bit immediate. -/
  | movi (x : XF)
  /-- MOVI_W32 (R127): W32 move of a signed 12-bit immediate. -/
  | moviW32 (w : WF)
  /-- MOVHI (R127): Replaces the upper 24 bits of a register with an immediate. -/
  | movhi (x : XF)
  /-- LEA (R128): Forms a virtual address through a buffer record without accessing it. -/
  | lea (x : XF)
  /-- FADD (R153): X64 F32 add with a rounding mode. -/
  | fadd (x : XF)
  /-- FADD_W32 (R153): W32 FADD.F32.RN. -/
  | faddW32 (w : WF)
  /-- FADD_H16 (R153): H16 two-address FADD.F32.RN. -/
  | faddH16 (h : HF)
  /-- FSUB (R153): X64 F32 subtract. -/
  | fsub (x : XF)
  /-- FSUB_W32 (R153): W32 FSUB.F32.RN. -/
  | fsubW32 (w : WF)
  /-- FSUB_H16 (R153): H16 two-address FSUB.F32.RN. -/
  | fsubH16 (h : HF)
  /-- FMUL (R153): X64 F32 multiply. -/
  | fmul (x : XF)
  /-- FMUL_W32 (R153): W32 FMUL.F32.RN. -/
  | fmulW32 (w : WF)
  /-- FMUL_H16 (R153): H16 two-address FMUL.F32.RN. -/
  | fmulH16 (h : HF)
  /-- FMAC_RN (R153): Fused multiply-add rounding to nearest even. -/
  | fmacRn (x : XF)
  /-- FMAC_RZ (R153): Fused multiply-add rounding toward zero. -/
  | fmacRz (x : XF)
  /-- FMAC_RU (R153): Fused multiply-add rounding up. -/
  | fmacRu (x : XF)
  /-- FMAC_RD (R153): Fused multiply-add rounding down. -/
  | fmacRd (x : XF)
  /-- FMIN (R154): X64 F32 minimum preferring numbers, -0 below +0. -/
  | fmin (x : XF)
  /-- FMIN_W32 (R154): W32 FMIN.F32. -/
  | fminW32 (w : WF)
  /-- FMIN_H16 (R154): H16 two-address FMIN.F32. -/
  | fminH16 (h : HF)
  /-- FMAX (R154): X64 F32 maximum preferring numbers. -/
  | fmax (x : XF)
  /-- FMAX_W32 (R154): W32 FMAX.F32. -/
  | fmaxW32 (w : WF)
  /-- FMAX_H16 (R154): H16 two-address FMAX.F32. -/
  | fmaxH16 (h : HF)
  /-- FCMP (R155): F32 compare writing a predicate. -/
  | fcmp (x : XF)
  /-- FCLASS (R156): Writes a one-hot class word for a float value. -/
  | fclass (x : XF)
  /-- FRINT (R157): Rounds an F32 value to an integral value. -/
  | frint (x : XF)
  /-- FRCP (R159): Variable-latency correctly rounded reciprocal. -/
  | frcp (x : XF)
  /-- FRSQ (R159): Variable-latency reciprocal square root. -/
  | frsq (x : XF)
  /-- FSQRT (R159): Variable-latency square root with a rounding mode. -/
  | fsqrt (x : XF)
  /-- FEX2 (R159): Variable-latency base-2 exponential. -/
  | fex2 (x : XF)
  /-- FLG2 (R159): Variable-latency base-2 logarithm. -/
  | flg2 (x : XF)
  /-- FSIN (R159): Variable-latency sine. -/
  | fsin (x : XF)
  /-- FCOS (R159): Variable-latency cosine. -/
  | fcos (x : XF)
  /-- PKADD (R160): X64 packed half add. -/
  | pkadd (x : XF)
  /-- PKADD_F16X2_W32 (R160): W32 PKADD.F16X2.RN. -/
  | pkaddF16x2W32 (w : WF)
  /-- PKADD_BF16X2_W32 (R160): W32 PKADD.BF16X2.RN. -/
  | pkaddBf16x2W32 (w : WF)
  /-- PKMUL (R160): X64 packed half multiply. -/
  | pkmul (x : XF)
  /-- PKMUL_F16X2_W32 (R160): W32 PKMUL.F16X2.RN. -/
  | pkmulF16x2W32 (w : WF)
  /-- PKMUL_BF16X2_W32 (R160): W32 PKMUL.BF16X2.RN. -/
  | pkmulBf16x2W32 (w : WF)
  /-- PKFMA_F16X2 (R160): Packed F16 fused multiply-add. -/
  | pkfmaF16x2 (x : XF)
  /-- PKFMA_BF16X2 (R160): Packed BF16 fused multiply-add. -/
  | pkfmaBf16x2 (x : XF)
  /-- CVT_F (R162): Converts to a float destination type with one rounding. -/
  | cvtF (x : XF)
  /-- CVT_I (R163): Converts to an integer destination type. -/
  | cvtI (x : XF)
  /-- DXPACK (R165): Encodes the active lanes as one DX block. -/
  | dxpack (x : XF)
  /-- DXUNPK (R166): Decodes DX lane words to F32. -/
  | dxunpk (x : XF)
  /-- LPERM (R172): X64 arbitrary lane permutation. -/
  | lperm (x : XF)
  /-- LPERM_W32 (R172): W32 form of LPERM. -/
  | lpermW32 (w : WF)
  /-- LSHU (R172): X64 shift values up the lanes by k. -/
  | lshu (x : XF)
  /-- LSHU_W32 (R172): W32 LSHU by imm6. -/
  | lshuW32 (w : WF)
  /-- LSHD (R172): X64 shift values down the lanes by k. -/
  | lshd (x : XF)
  /-- LSHD_W32 (R172): W32 LSHD by imm6. -/
  | lshdW32 (w : WF)
  /-- LXOR (R172): X64 exchange between lanes differing in bits of k. -/
  | lxor (x : XF)
  /-- LXOR_W32 (R172): W32 LXOR by imm6. -/
  | lxorW32 (w : WF)
  /-- LROT (R172): Rotates values across the lanes with wrap. -/
  | lrot (x : XF)
  /-- POLL_ANY (R173): Sets a predicate when any active lane's predicate is set. -/
  | pollAny (x : XF)
  /-- POLL_ALL (R173): Sets a predicate when every active lane's predicate is set. -/
  | pollAll (x : XF)
  /-- POLL_MASK (R173): X64 writes the predicate masked by EM as a word. -/
  | pollMask (x : XF)
  /-- POLL_MASK_W32 (R173): W32 form of POLL.MASK. -/
  | pollMaskW32 (w : WF)
  /-- LEQ_MASK (R174): Mask of active lanes holding an equal bit pattern. -/
  | leqMask (x : XF)
  /-- LEQ_ALL (R174): EM when all active lanes are equal, else 0. -/
  | leqAll (x : XF)
  /-- RED_ADD (R175): Integer sum reduction through the fixed tree. -/
  | redAdd (x : XF)
  /-- RED_MIN (R175): Integer minimum reduction. -/
  | redMin (x : XF)
  /-- RED_MAX (R175): Integer maximum reduction. -/
  | redMax (x : XF)
  /-- RED_AND (R175): Bitwise AND reduction. -/
  | redAnd (x : XF)
  /-- RED_OR (R175): Bitwise OR reduction. -/
  | redOr (x : XF)
  /-- RED_XOR (R175): Bitwise XOR reduction. -/
  | redXor (x : XF)
  /-- RED_FADD (R176): F32 sum reduction through the fixed tree. -/
  | redFadd (x : XF)
  /-- RED_FMIN (R176): F32 minimum reduction. -/
  | redFmin (x : XF)
  /-- RED_FMAX (R176): F32 maximum reduction. -/
  | redFmax (x : XF)
  /-- SCAN_ADD (R177): Inclusive prefix sum over active lanes. -/
  | scanAdd (x : XF)
  /-- LD (R209): Relaxed global load through a buffer record and the conversion stage. -/
  | ld (x : XF)
  /-- LD_ACQ (R209): Acquiring global load. -/
  | ldAcq (x : XF)
  /-- LD_SC (R209): Sequentially consistent global load. -/
  | ldSc (x : XF)
  /-- ST (R209): Relaxed global store through a buffer record. -/
  | st (x : XF)
  /-- ST_REL (R209): Releasing global store. -/
  | stRel (x : XF)
  /-- ST_SC (R209): Sequentially consistent global store. -/
  | stSc (x : XF)
  /-- ATOM_RLX (R214): Relaxed global atomic. -/
  | atomRlx (x : XF)
  /-- ATOM_ACQ (R214): Acquiring global atomic. -/
  | atomAcq (x : XF)
  /-- ATOM_REL (R214): Releasing global atomic. -/
  | atomRel (x : XF)
  /-- ATOM_AR (R214): Acquire-release global atomic. -/
  | atomAr (x : XF)
  /-- ATOM_SC (R214): Sequentially consistent global atomic. -/
  | atomSc (x : XF)
  /-- ATOMS (R214): Scratchpad atomic at core scope. -/
  | atoms (x : XF)
  /-- LDS (R210): Scratchpad load, optionally waiting on full-empty bits. -/
  | lds (x : XF)
  /-- STS (R210): Scratchpad store. -/
  | sts (x : XF)
  /-- FESET (R211): Sets a granule Full after performing earlier scratch stores to it. -/
  | feset (x : XF)
  /-- FECLR (R211): Sets a granule Empty. -/
  | feclr (x : XF)
  /-- LDFRAG (R212): Transposed tile load into eight registers. -/
  | ldfrag (x : XF)
  /-- STASHMAP (R202): Opens a stash window of scratchpad onto a global range. -/
  | stashmap (x : XF)
  /-- STASHFLUSH (R204): Writes dirty window lines and ends the window. -/
  | stashflush (x : XF)
  /-- STASHDROP (R204): Ends a window discarding dirty lines. -/
  | stashdrop (x : XF)
  /-- PREF (R215): Prefetches lines to the level of the scope. -/
  | pref (x : XF)
  /-- CCLEAN (R215): Writes dirty data to the scope's point of coherence. -/
  | cclean (x : XF)
  /-- CINV (R215): Cleans then drops copies up to the scope's point. -/
  | cinv (x : XF)
  /-- LDP (R216): Owner-mode physical 8-byte load within the balustrade. -/
  | ldp (x : XF)
  /-- STP (R216): Owner-mode physical 8-byte store within the balustrade. -/
  | stp (x : XF)
  /-- FENCE (R227): Blocks until the flight's accesses are ordered as the order and scope require. -/
  | fence (x : XF)
  /-- BAR (R108): Arrives at and waits on the level-k barrier. -/
  | bar (x : XF)
  /-- ARRIVE (R108): Records arrival at the level-k barrier with a release. -/
  | arrive (x : XF)
  /-- WAITB (R108): Waits for the generation of the pending arrival. -/
  | waitb (x : XF)
  /-- CPY (R265): Unconverted byte copy by the copy engine. -/
  | cpy (x : XF)
  /-- CPY2 (R265): Two-dimensional unconverted copy. -/
  | cpy2 (x : XF)
  /-- CPYT (R265): Tile copy into a scratch operand map with conversion. -/
  | cpyt (x : XF)
  /-- CPYX (R256): Element copy with encoding conversion. -/
  | cpyx (x : XF)
  /-- CPYZ (R262): Distills essence blocks into the destination. -/
  | cpyz (x : XF)
  /-- CPYG (R265): Gather copy with per-lane source offsets. -/
  | cpyg (x : XF)
  /-- CPYS (R265): Scatter copy with per-lane destination offsets. -/
  | cpys (x : XF)
  /-- CPYM (R267): Tile copy followed by a matrix follow-on command. -/
  | cpym (x : XF)
  /-- FILL (R265): Fills a destination with a 32-bit pattern. -/
  | fill (x : XF)
  /-- CPYP (R266): Copy to a paired peer device over an arcade link. -/
  | cpyp (x : XF)
  /-- BSEAL (R268): Closes unsealed copies into batch k. -/
  | bseal (x : XF)
  /-- BWAIT (R268): Blocks until batch k is empty, making its copies the producer's own. -/
  | bwait (x : XF)
  /-- MWLD (R284): Loads a weight bank from a scratch map. -/
  | mwld (x : XF)
  /-- MWLD_L2 (R284): Loads a weight bank through the hall tile fetch unit. -/
  | mwldL2 (x : XF)
  /-- MMA (R285): Streams activation rows through a bank into a tile. -/
  | mma (x : XF)
  /-- MMA_BYP (R286): Streams converted tile rows back through the array. -/
  | mmaByp (x : XF)
  /-- MDRAIN (R287): Drains tile rows to scratchpad through the drain converter. -/
  | mdrain (x : XF)
  /-- MZERO (R288): Clears a tile and its row poison. -/
  | mzero (x : XF)
  /-- MACCLD (R289): Loads a tile as raw words. -/
  | maccld (x : XF)
  /-- MACCST (R289): Saves a tile as raw words. -/
  | maccst (x : XF)
  /-- MSTAT (R290): Reads the team's sequencer state. -/
  | mstat (x : XF)
  /-- LAUNCH (R320): Releases and enqueues a launch record for admission. -/
  | launch (x : XF)
  /-- LAUNCHI (R320): Enqueues a launch whose top level count is read at dispatch. -/
  | launchi (x : XF)
  /-- SIGNAL (R321): Decrements a signal object's COUNT with a release at system scope. -/
  | signal (x : XF)
  /-- LAND (R322): X64 landing; joins a gather when a switch request is pending. -/
  | land (x : XF)
  /-- LAND_W32 (R322): W32 landing with a 12-bit id. -/
  | landW32 (w : WF)
  /-- VARQ (R323): Reads the team's variant and request state. -/
  | varq (x : XF)
  /-- CTXSV (R324): Parks a saved team's context at a physical address. -/
  | ctxsv (x : XF)
  /-- CTXLD (R324): Restores a parked context into its frame. -/
  | ctxld (x : XF)
  /-- OWNGET (R355): Reads an owner register. -/
  | ownget (x : XF)
  /-- OWNSET (R355): Writes an owner register at issue. -/
  | ownset (x : XF)
  /-- LGET (R356): Reads a frozen lane's register or predicate bit. -/
  | lget (x : XF)
  /-- LSET (R356): Writes a frozen lane's register or predicate bit. -/
  | lset (x : XF)
  /-- XRET (R357): Returns a collapsed flight to lane mode at OWN.TEPC. -/
  | xret (x : XF)
  /-- WQTAKE (R358): Takes the oldest walk request. -/
  | wqtake (x : XF)
  /-- FQTAKE (R358): Takes the oldest fault record of the flight's level. -/
  | fqtake (x : XF)
  /-- RWALK (R359): Performs one walk step over a node or radix entry. -/
  | rwalk (x : XF)
  /-- TLBPUT (R360): Installs a translation and releases or faults the request's waiters. -/
  | tlbput (x : XF)
  /-- TLBKILL (R361): Drops translations of the owner and marks matching walks stale. -/
  | tlbkill (x : XF)
  /-- TRESUME (R362): Releases and resumes a faulted team, copy or fault flight. -/
  | tresume (x : XF)
  /-- OWNSTALL (R363): Stalls the owner deliberately with reason k. -/
  | ownstall (x : XF)
  /-- CNTR (R388): Reads an owner counter after earlier work completes. -/
  | cntr (x : XF)
  /-- QOSQ (R389): Reads an item of the owner's quality-of-service state. -/
  | qosq (x : XF)
  /-- ERRQ (R390): Reads or takes the owner's error log. -/
  | errq (x : XF)
  /-- BARRIER_GENERATION_COMPLETE (R108): A barrier generation completes when every member has arrived or ended, releasing waiters. -/
  | barrierGenerationComplete (grid level unit : Nat)
  /-- COPY_START (R249): The engine starts a queued copy when an active slot frees, in queue order. -/
  | copyStart (core : Nat)
  /-- COPY_SOURCE_FAILURE (R258): A poisoned or uncorrectable source block fails the copy at that block. -/
  | copySourceFailure (copy : Nat)
  /-- DISTILLER_BLOCK (R262): The distiller decodes one essence block, checks its CRC and sets granule states. -/
  | distillerBlock (copy : Nat)
  /-- COPY_COMPLETE (R250): A copy completes: FSTAT, status word, then set flag and batch. -/
  | copyComplete (copy : Nat)
  /-- CPYM_FOLLOW_ON (R267): After a CPYM's writes complete, the engine passes its command to the sequencer. -/
  | cpymFollowOn (copy : Nat)
  /-- MATRIX_COMMAND_START (R273): A queued matrix command starts when its units are free and conflicts have completed. -/
  | matrixCommandStart (cmd : Nat)
  /-- MATRIX_COMMAND_COMPLETE (R274): A matrix command completes, ORs its flags into FSTAT and decrements its flag. -/
  | matrixCommandComplete (cmd : Nat)
  /-- MATRIX_STOP (R277): The sequencer stops an MMA at a row-step boundary and records its state. -/
  | matrixStop (cmd steps : Nat)
  /-- MATRIX_RESUME_RELOAD (R277): At resume the sequencer reloads banks from descriptors and continues the MMA. -/
  | matrixResumeReload (core : Nat)
  /-- ADMISSION (R295): The device takes the next record of a launch queue and accepts or refuses it. -/
  | admission (vd queue : Nat)
  /-- GRID_DISPATCH (R297): At the dispatch point the device drops incoming regions, reads the count and begins placing. -/
  | gridDispatch (grid : Nat)
  /-- TEAM_PLACE (R307): The dispatcher places a team in a variant on the first core that fits. -/
  | teamPlace (grid : Nat)
  /-- TEAM_RETIRE (R298): A team whose flights ended and engine work completed retires and frees resources. -/
  | teamRetire (team : Nat)
  /-- GRID_RETIRE (R298): After its last team, the grid cleans regions, signals edges and writes STATUS. -/
  | gridRetire (grid : Nat)
  /-- WCET_OVERRUN (R302): A class-1 team exceeding its WCET of issue time sets DONE_OVERRUN and lapses promises. -/
  | wcetOverrun (team : Nat)
  /-- SWITCH_REQUEST_POST (R310): The dispatcher posts an upgrade or downgrade request to a class-0 team. -/
  | switchRequestPost (team target : Nat)
  /-- LANDING_REMAP (R311): After the gather's operations complete, the team is remapped into the target variant or the request withdrawn. -/
  | landingRemap (team : Nat)
  /-- SWITCH_WITHDRAW_TIMEOUT (R312): A gather not completed in 2^12 unhalted cycles withdraws the request. -/
  | switchWithdrawTimeout (team : Nat)
  /-- FORWARD_PROGRESS_SWAP (R313): A team blocked 2^16 cycles at an above-core barrier is swapped for a ready team. -/
  | forwardProgressSwap (team : Nat)
  /-- MIGRATION (R314): The dispatcher moves a placed team to another core of its instance. -/
  | migration (team core : Nat)
  /-- RESULT_WRITEBACK (R79): A fixed-latency result lands in its register and chain latch after its latency. -/
  | resultWriteback (flight : Nat)
  /-- FLOAT_UNIT_COMPLETE (R158): The variable-latency float unit writes a result, ORs flags and decrements the set flag. -/
  | floatUnitComplete (flight : Nat)
  /-- MEMORY_COMPLETE (R193): A memory instruction completes at its stated point and decrements its flag. -/
  | memoryComplete (op : Nat)
  /-- LDS_WAIT_WAKE (R199): A waiting LDS reads indivisibly once its granules leave Empty. -/
  | ldsWaitWake (op : Nat)
  /-- STASH_FILL (R203): A touched unfilled window line is fetched into scratchpad and its granules set Full. -/
  | stashFill (op : Nat)
  /-- WC_BUFFER_WRITEOUT (R191): The write-combining buffer writes a gathered line out within 1,024 cycles. -/
  | wcBufferWriteout (core line : Nat)
  /-- WAY_ALLOCATION (R378): After every 2^20 LLC accesses the allocator moves way units between owners. -/
  | wayAllocation (part : Nat)
  /-- NO_PROGRESS_STALL (R349): The progress count reaching 2^20 stalls the owner with NO_PROGRESS. -/
  | noProgressStall (vd : Nat)
  /-- SLICE_END (R380): At slice expiry every flight of the outgoing owner halts in place. -/
  | sliceEnd (part : Nat)
  /-- SLICE_START (R381): After the halt completes, the incoming owner resumes, restores and places teams. -/
  | sliceStart (part : Nat)
  /-- CORRECTABLE_ERROR (R385): A correctable error is corrected and reported to the host only. -/
  | correctableError (unit addr : Nat)
  /-- UNCORRECTABLE_ERROR (R385): An uncorrectable error poisons data or discards state and is delivered to its blast set. -/
  | uncorrectableError (e : ErrorSite)
  /-- QTAIL_DOORBELL (R399): A doorbell write to QTAIL starts reading packets or sets QERR. -/
  | qtailDoorbell (vd queue value : Nat)
  /-- HOST_PACKET_LAUNCH (R400): A LAUNCH packet enqueues its record for the owner. -/
  | hostPacketLaunch (vd queue : Nat)
  /-- HOST_PACKET_LAUNCHI (R400): A LAUNCHI packet enqueues its record for the owner. -/
  | hostPacketLaunchi (vd queue : Nat)
  /-- HOST_PACKET_SIGNAL (R400): A SIGNAL packet decrements a signal object's COUNT. -/
  | hostPacketSignal (vd queue : Nat)
  /-- HOST_PACKET_BAD_OP (R398): A packet with another OP completes with 0x20. -/
  | hostPacketBadOp (vd queue : Nat)
  /-- QCTL_WRITE (R401): A QCTL write enables or disables a queue, resetting indices when EN rises. -/
  | qctlWrite (vd queue : Nat) (value : BitVec 32)
  /-- VDEVT_CLEAR (R397): Writing 1 to VDEVT bits clears those events. -/
  | vdevtClear (vd : Nat) (value : BitVec 32)
  /-- VDCTL_START (R333): Owner start checks the vestibule, loads owner registers and places service flights. -/
  | vdctlStart (vd : Nat)
  /-- XFERREQ_SPLIT (R406): Splits a 2 MiB region into 512 entries. -/
  | xferreqSplit (vd : Nat) (offset : Nat)
  /-- XFERREQ_MERGE (R406): Merges agreeing entries back into a whole region. -/
  | xferreqMerge (vd : Nat) (offset : Nat)
  /-- XFERREQ_TO_P (R407): Requests transfer of an entry to processor ownership. -/
  | xferreqToP (vd : Nat) (offset : Nat)
  /-- XFERREQ_TO_A (R407): Requests transfer of an entry to accelerator ownership. -/
  | xferreqToA (vd : Nat) (offset : Nat)
  /-- XFER_COMPLETE (R407): An ownership transfer completes, changes state and serves held accesses. -/
  | xferComplete (vd : Nat) (entry : Nat)
  /-- HOST_CXL_MEM_ACCESS (R407): A host CXL.mem request to the exposure, starting A-to-P when needed. -/
  | hostCxlMemAccess (decoder : Nat) (acc : HostAccess)
  /-- BIRSP_RECEIVED (R407): A host back-invalidate response arrives during a P-to-A transfer. -/
  | birspReceived (vd entry line : Nat) (dirty : Option (List (BitVec 8)))
  /-- HOST_SNOOP (R396): A host snoop of a host line acts on the whole device line. -/
  | hostSnoop (line : Nat) (invalidate : Bool)
  /-- BAR2_ACCESS (R405): A BAR2 access acts as a system-scope device access to the exposure. -/
  | bar2Access (vd : Nat) (acc : PortAccess)
  /-- OPCTL_STALL (R403): Host command stalls the owner with reason HOST. -/
  | opctlStall (vd : Nat)
  /-- OPCTL_RESUME (R352): Host command resumes a resumably stalled owner. -/
  | opctlResume (vd : Nat)
  /-- OPCTL_RESET (R402): Host command ends the owner's work and returns it to stopped. -/
  | opctlReset (vd : Nat)
  /-- OPCTL_PAUSE (R410): Host command pauses the owner for migration. -/
  | opctlPause (vd : Nat)
  /-- PAUSE_DRAINED (R410): Pause completes when the owner's started work has completed. -/
  | pauseDrained (vd : Nat)
  /-- OPCTL_SAVE (R410): Host command writes the migration image. -/
  | opctlSave (vd : Nat)
  /-- OPCTL_LOAD (R410): Host command restores a migration image. -/
  | opctlLoad (vd : Nat)
  /-- OPCTL_UNPAUSE (R403): Host command resumes a paused owner. -/
  | opctlUnpause (vd : Nat)
  /-- FUNCTION_LEVEL_RESET (R402): An FLR of a VF resets the virtual device as RESET does. -/
  | functionLevelReset (vd : Nat)
  /-- BAL_WRITE (R404): A balustrade write drops the owner's translations before taking effect. -/
  | balWrite (vd n : Nat) (value : BitVec 64)
  /-- BAL_DROP_DONE (R404): The drop ends when accesses through dropped entries complete, clearing BUSY. -/
  | balDropDone (vd : Nat)
  /-- HVSTATE_WRITE (R409): HVSTATE changes interrupt delivery and sends pending messages on return to running. -/
  | hvstateWrite (vd : Nat) (value : BitVec 32)
  /-- MSIX_VECTOR_UNMASK (R409): Unmasking a vector sends its pending message. -/
  | msixVectorUnmask (vd vector : Nat)
  /-- REGISTER_WRITE (R397): A write to a device register with no behaviour of its own. -/
  | registerWrite (w : RegAccess)
  /-- MGMT_RESET_PLAIN (R423): Host requests a package reset. -/
  | mgmtResetPlain
  /-- MGMT_RESET_MINIMAL (R423): Host requests a reset into minimal mode. -/
  | mgmtResetMinimal
  /-- MGMT_RESET_RETRY (R423): Host requests a reset with FAILCNT counted as 0. -/
  | mgmtResetRetry
  /-- MGMT_FLC_WRITE_WORD (R421): In minimal mode the host writes one flash word through the FLC mirror. -/
  | mgmtFlcWriteWord
  /-- PCTL_APPLY (R424): Applies a partition configuration or refuses it with a code. -/
  | pctlApply (part : Nat)
  /-- PCTL_TEARDOWN (R424): Tears down a partition whose owners are stopped. -/
  | pctlTeardown (part : Nat)
  /-- LINK_TRAINING (R411): An arcade link trains and exchanges identities. -/
  | linkTraining (link : Nat) (far : FarEnd)
  /-- PEER_BLOCK_ARRIVAL (R411): A block from a peer is translated and performed or refused. -/
  | peerBlockArrival (b : PeerBlock)
  /-- CLOCK_STEP_SAMPLE (R426): Every 10 µs each partition's clock steps down or up by its power. -/
  | clockStepSample (part watts : Nat)
  /-- THERMAL_HOLD (R427): Above 100 °C partitions of the hot gallery are held one step lower. -/
  | thermalHold (gallery celsius : Nat)
  /-- THERMAL_TRIP (R427): A gallery at 110 °C for 100 ms at floor trips the package. -/
  | thermalTrip (gallery : Nat)
  /-- PACKAGE_START (R419): At package start the ROM is measured and the first stage verifies and enters an image or minimal mode. -/
  | packageStart
  /-- WATCHDOG_EXPIRY (R419): Watchdog expiry resets the package and counts a failed start. -/
  | watchdogExpiry
  /-- MGMT_EXCEPTION (R430): A management core exception traps to mtvec or halts the core. -/
  | mgmtException (cause epc tval : BitVec 64)
  /-- WDOG_WRITE (R415): Starts or restarts the watchdog. -/
  | wdogWrite (value : BitVec 32)
  /-- BOOTOK_WRITE (R415): Stops the watchdog and sets BOOTSTAT BOOTOK. -/
  | bootokWrite (value : BitVec 32)
  /-- MINIMAL_WRITE (R415): Enters minimal mode. -/
  | minimalWrite (value : BitVec 32)
  /-- RSTREQ_CLEAR (R415): Clears the recorded reset request. -/
  | rstreqClear (value : BitVec 32)
  /-- HSA_HASH (R416): Starts a SHA-256 of a memory range. -/
  | hsaHash
  /-- HSA_VERIFY (R416): Starts an RSA signature verification against a fused key slot. -/
  | hsaVerify
  /-- HSA_EXTEND (R416): Starts an extend of a measurement register. -/
  | hsaExtend
  /-- HSA_OP_DONE (R416): An HSA operation ends, writing its result and clearing BUSY. -/
  | hsaOpDone
  /-- FLC_WRITE_WORD (R418): The management core rewrites one flash word. -/
  | flcWriteWord
  /-- FLC_WRITE_DONE (R418): A flash word write ends, clearing BUSY and setting ERR on failure. -/
  | flcWriteDone (ok : Bool)
  /-- DOE_REQUEST (R422): A DOE request arrives in the receive buffer. -/
  | doeRequest (bytes : List (BitVec 8))
  /-- DOE_TX_SEND (R422): Writing DOE.TXLEN sends the transmit buffer. -/
  | doeTxSend (len : BitVec 32)
  /-- DOE_RX_RELEASE (R422): Writing 0 to DOE.RXLEN releases the pending request. -/
  | doeRxRelease (value : BitVec 32)
  /-- LINK_FAILURE (R266): An arcade link fails, so a CPYP's unacknowledged blocks end with PEER_DOWN and LINKSTAT shows the link down. -/
  | linkFailure (link : Nat)
  /-- POWER_LOSS (R419): Power is lost, ending all device state except flash and fuses, so RSTREQ reads 0 at the next power-on. -/
  | powerLoss
  /-- COPY_ENGINE_BEAT (R249): The engine moves the next beat of an active copy, translating a new page, placing distiller input or counting a distiller stall. -/
  | copyEngineBeat (copy : Nat) (answer : PeerAnswer)
  /-- TRANSLATION_RESOLVED (R192): An L2 or L3 TLB lookup for an instruction held at issue returns, and the instruction leaves issue. -/
  | translationResolved (flight : Nat)
  deriving DecidableEq, Repr

end Sys2Proof
end

