-- ==== Sys2Proof/Decode.lean ====
section
/-!
DEFINITION. The encodings (02 R33 to R63), each cell's row of allowed field values (02 R42 to R53), the decoder, total
on any bytes and rejecting by name, and after it the encoder.
-/

namespace Sys2Proof

/-- The Kind column of the op9 map: fixed latency, variable latency, control (02 R54). -/
inductive Kind where
  | F | V | C
  deriving DecidableEq, Repr

/-- What a row makes of one 8-bit field of X64 (02 R45 to R53). -/
inductive FieldUse where
  /-- Not used: must be zero (R48). -/
  | zero
  /-- A number that the row's meaning judges: a record, a level, a code, a register number, a macro parameter. -/
  | value
  /-- A number below `n`; any other traps ILLEGAL_OPERAND. -/
  | below (n : Nat)
  /-- A value byte whose bits outside the mask must be zero. -/
  | bits (mask : Nat)
  /-- A part of the 24-bit immediate (R39). -/
  | imm24
  | src | srcPair | dst | dstPair
  /-- A register, or a pair under a 64-bit itype (R47). -/
  | srcT | dstT
  | pred
  /-- The register fields of CVT.F and CVT.I, single or pair by R161. -/
  | cvtSrc | cvtDst | cvtSrcI | cvtDstI
  /-- The operand of ATOM and ATOMS: a pair where 08 R206 says. -/
  | atomD
  /-- The first of `n` general registers, even if `even` (08 R212, 15 R354). -/
  | group (n : Nat) (even : Bool)
  /-- The modifier bytes of R50 and R51 with what the row accepts. -/
  | mi (types : List Nat) (sat cond : Bool)
  | mf (types rnds : List Nat) (sat : Bool)
  | srcType
  /-- The bytes of R53. -/
  | mem | smem (maxMode : Nat) | maScope | maOrder | mo
  /-- GETSR's selector and level (R62). -/
  | selector | level
  deriving DecidableEq, Repr

/-- A row of the op9 map: its kind, whether WS = 1 is accepted, whether it is marked O, and its fields. -/
structure Row where
  kind  : Kind
  ws    : Bool
  owner : Bool
  d     : FieldUse
  a     : FieldUse
  b     : FieldUse
  c     : FieldUse
  deriving DecidableEq, Repr

/-- How a W32 cell names the fields of its X64 instruction (02 R63). -/
inductive WForm where
  | bare | off18 | off12 (mode : Nat) | d | a | p | getsr | dab | da | dak | pab | dp | imm12 | land12
  deriving DecidableEq, Repr

/-- The three formats, and the events, which have no encoding. -/
inductive Shape where
  | x (op9 : Nat) (x : XF)
  | w (op7 : Nat) (w : WF)
  | h (op4 : Nat) (h : HF)
  | event
  deriving DecidableEq, Repr

/-- The rows of the op9 map (02 R55 to R60). A cell that is not named is reserved and is never asked for. -/
def rowOf : Nat → Row
  | 0x000 => ⟨.C, false, false, .zero, .zero, .zero, .zero⟩   -- NOP
  | 0x001 => ⟨.C, false, false, .zero, .imm24, .imm24, .imm24⟩   -- BRA
  | 0x002 => ⟨.C, false, false, (.bits 0x1F), .imm24, .imm24, .imm24⟩   -- BRP
  | 0x003 => ⟨.C, false, false, .zero, .imm24, .imm24, .imm24⟩   -- BREZ
  | 0x004 => ⟨.C, false, false, .zero, .srcPair, .zero, .zero⟩   -- JMP
  | 0x005 => ⟨.C, false, false, .dstPair, .imm24, .imm24, .imm24⟩   -- CALL
  | 0x006 => ⟨.C, false, false, .zero, .srcPair, .zero, .zero⟩   -- RET
  | 0x008 => ⟨.F, true, false, .dst, .zero, .zero, .zero⟩   -- EMGET
  | 0x009 => ⟨.F, false, false, .zero, .src, .zero, .zero⟩   -- EMSET
  | 0x00A => ⟨.F, false, false, .zero, .pred, .zero, .zero⟩   -- EMAND
  | 0x00B => ⟨.F, false, false, .zero, .pred, .zero, .zero⟩   -- EMANDN
  | 0x010 => ⟨.C, false, false, .value, (.below 64), .value, .value⟩   -- MCALL
  | 0x011 => ⟨.C, false, false, .zero, .zero, .zero, .value⟩   -- TRAP
  | 0x012 => ⟨.C, false, false, .zero, .zero, .zero, .zero⟩   -- YIELD
  | 0x013 => ⟨.C, false, false, .zero, .zero, .zero, .zero⟩   -- WAITF
  | 0x014 => ⟨.C, false, false, .zero, .zero, .zero, .zero⟩   -- EXIT
  | 0x015 => ⟨.F, true, false, .dst, .selector, .zero, .level⟩   -- GETSR
  | 0x040 => ⟨.F, true, false, .dstT, .srcT, .srcT, (.mi [0,1,2,3,4,5,6,7] true false)⟩   -- IADD
  | 0x041 => ⟨.F, true, false, .dstT, .srcT, .srcT, (.mi [0,1,2,3,4,5,6,7] true false)⟩   -- ISUB
  | 0x042 => ⟨.F, true, false, .dstT, .srcT, .srcT, (.mi [0,1,6,7] false false)⟩   -- IMUL
  | 0x043 => ⟨.F, true, false, .dst, .src, .src, (.mi [0,1] false false)⟩   -- IMULH
  | 0x044 => ⟨.F, true, false, .dst, .src, .src, .src⟩   -- IMLA
  | 0x045 => ⟨.F, true, false, .dstPair, .src, .src, .srcPair⟩   -- IMLAL_I32
  | 0x046 => ⟨.F, true, false, .dstPair, .src, .src, .srcPair⟩   -- IMLAL_N32
  | 0x047 => ⟨.F, true, false, .dstT, .srcT, .srcT, (.mi [0,1,6,7,8] false false)⟩   -- IMIN
  | 0x048 => ⟨.F, true, false, .dstT, .srcT, .srcT, (.mi [0,1,6,7,8] false false)⟩   -- IMAX
  | 0x049 => ⟨.F, true, false, .dstT, .srcT, .zero, (.mi [0,6,8] true false)⟩   -- IABS
  | 0x04A => ⟨.F, true, false, .dstT, .srcT, .zero, (.mi [0,6,8] true false)⟩   -- INEG
  | 0x04B => ⟨.F, true, false, .dst, .src, .src, .src⟩   -- IADDMIN_I32
  | 0x04C => ⟨.F, true, false, .dst, .src, .src, .src⟩   -- IADDMIN_I16X2
  | 0x050 => ⟨.F, true, false, .dstT, .srcT, .srcT, (.mi [1,7] false false)⟩   -- AND
  | 0x051 => ⟨.F, true, false, .dstT, .srcT, .srcT, (.mi [1,7] false false)⟩   -- OR
  | 0x052 => ⟨.F, true, false, .dstT, .srcT, .srcT, (.mi [1,7] false false)⟩   -- XOR
  | 0x053 => ⟨.F, true, false, .dstT, .srcT, .srcT, (.mi [1,7] false false)⟩   -- ANDN
  | 0x054 => ⟨.F, true, false, .dstT, .srcT, .zero, (.mi [1,7] false false)⟩   -- NOT
  | 0x055 => ⟨.F, true, false, .dstT, .srcT, .srcT, (.mi [1,7] false false)⟩   -- SHL
  | 0x056 => ⟨.F, true, false, .dstT, .srcT, .srcT, (.mi [1,7] false false)⟩   -- SHR
  | 0x057 => ⟨.F, true, false, .dstT, .srcT, .srcT, (.mi [0,6] false false)⟩   -- SAR
  | 0x058 => ⟨.F, true, false, .dstT, .srcT, .srcT, (.mi [1,7] false false)⟩   -- ROTL
  | 0x059 => ⟨.F, true, false, .dstT, .srcT, .zero, (.mi [1,7] false false)⟩   -- CLZ
  | 0x05A => ⟨.F, true, false, .dstT, .srcT, .zero, (.mi [1,7] false false)⟩   -- POPC
  | 0x05B => ⟨.F, true, false, .dstT, .srcT, .zero, (.mi [1,7] false false)⟩   -- BREV
  | 0x05C => ⟨.F, true, false, .dst, .src, .src, .src⟩   -- BFX_N32
  | 0x05D => ⟨.F, true, false, .dst, .src, .src, .src⟩   -- BFX_I32
  | 0x05E => ⟨.F, true, false, .dst, .src, .src, .src⟩   -- BFI
  | 0x060 => ⟨.F, false, false, .pred, .srcT, .srcT, (.mi [0,1,6,7] false true)⟩   -- ICMP
  | 0x061 => ⟨.F, true, false, .dst, .src, .src, .pred⟩   -- SEL
  | 0x062 => ⟨.F, true, false, .dstT, .srcT, .zero, (.mi [1,7] false false)⟩   -- MOV
  | 0x063 => ⟨.F, true, false, .dst, .imm24, .imm24, .imm24⟩   -- MOVI
  | 0x064 => ⟨.F, true, false, .dst, .imm24, .imm24, .imm24⟩   -- MOVHI
  | 0x065 => ⟨.F, true, false, .dstPair, .src, .value, (.bits 0xF8)⟩   -- LEA
  | 0x068 => ⟨.F, true, false, .dst, .src, .zero, (.below 32)⟩   -- SHL_IMM
  | 0x069 => ⟨.F, true, false, .dst, .src, .zero, (.below 32)⟩   -- SHR_IMM
  | 0x06A => ⟨.F, true, false, .dst, .src, .zero, (.below 32)⟩   -- SAR_IMM
  | 0x06B => ⟨.F, true, false, .dst, .src, .zero, (.below 32)⟩   -- ROTL_IMM
  | 0x080 => ⟨.F, true, false, .dst, .src, .src, (.mf [0] [0,1,2,3] false)⟩   -- FADD
  | 0x081 => ⟨.F, true, false, .dst, .src, .src, (.mf [0] [0,1,2,3] false)⟩   -- FSUB
  | 0x082 => ⟨.F, true, false, .dst, .src, .src, (.mf [0] [0,1,2,3] false)⟩   -- FMUL
  | 0x083 => ⟨.F, true, false, .dst, .src, .src, .src⟩   -- FMAC_RN
  | 0x084 => ⟨.F, true, false, .dst, .src, .src, .src⟩   -- FMAC_RZ
  | 0x085 => ⟨.F, true, false, .dst, .src, .src, .src⟩   -- FMAC_RU
  | 0x086 => ⟨.F, true, false, .dst, .src, .src, .src⟩   -- FMAC_RD
  | 0x087 => ⟨.F, true, false, .dst, .src, .src, (.mf [0] [0] false)⟩   -- FMIN
  | 0x088 => ⟨.F, true, false, .dst, .src, .src, (.mf [0] [0] false)⟩   -- FMAX
  | 0x089 => ⟨.F, false, false, .pred, .src, .src, (.mf [0] [0,1,2,3,4,5,6,7] false)⟩   -- FCMP
  | 0x08A => ⟨.F, true, false, .dst, .src, .zero, (.mf [0,1,2] [0] false)⟩   -- FCLASS
  | 0x08B => ⟨.F, true, false, .dst, .src, .zero, (.mf [0] [0,1,2,3] false)⟩   -- FRINT
  | 0x090 => ⟨.V, false, false, .dst, .src, .zero, (.mf [0] [0] false)⟩   -- FRCP
  | 0x091 => ⟨.V, false, false, .dst, .src, .zero, (.mf [0] [0] false)⟩   -- FRSQ
  | 0x092 => ⟨.V, false, false, .dst, .src, .zero, (.mf [0] [0,1,2,3] false)⟩   -- FSQRT
  | 0x093 => ⟨.V, false, false, .dst, .src, .zero, (.mf [0] [0] false)⟩   -- FEX2
  | 0x094 => ⟨.V, false, false, .dst, .src, .zero, (.mf [0] [0] false)⟩   -- FLG2
  | 0x095 => ⟨.V, false, false, .dst, .src, .zero, (.mf [0] [0] false)⟩   -- FSIN
  | 0x096 => ⟨.V, false, false, .dst, .src, .zero, (.mf [0] [0] false)⟩   -- FCOS
  | 0x098 => ⟨.F, true, false, .dst, .src, .src, (.mf [5,6] [0,1,2,3] true)⟩   -- PKADD
  | 0x099 => ⟨.F, true, false, .dst, .src, .src, (.mf [5,6] [0,1,2,3] true)⟩   -- PKMUL
  | 0x09A => ⟨.F, true, false, .dst, .src, .src, .src⟩   -- PKFMA_F16X2
  | 0x09B => ⟨.F, true, false, .dst, .src, .src, .src⟩   -- PKFMA_BF16X2
  | 0x0A0 => ⟨.F, true, false, .cvtDst, .cvtSrc, .srcType, (.mf [0,1,2,3,4,5,6] [0,1,2,3,4] true)⟩   -- CVT_F
  | 0x0A1 => ⟨.F, true, false, .cvtDstI, .cvtSrcI, .srcType, (.mf [0,1,2,3,4,5,6,7] [0,1,2,3,4] true)⟩   -- CVT_I
  | 0x0A2 => ⟨.V, false, false, .dst, .src, .src, (.mf [7,8] [0] false)⟩   -- DXPACK
  | 0x0A3 => ⟨.V, false, false, .dst, .src, .src, (.mf [7,8] [0] false)⟩   -- DXUNPK
  | 0x0C0 => ⟨.F, true, false, .dst, .src, .src, .zero⟩   -- LPERM
  | 0x0C1 => ⟨.F, true, false, .dst, .src, .zero, (.below 32)⟩   -- LSHU
  | 0x0C2 => ⟨.F, true, false, .dst, .src, .zero, (.below 32)⟩   -- LSHD
  | 0x0C3 => ⟨.F, true, false, .dst, .src, .zero, (.below 32)⟩   -- LXOR
  | 0x0C4 => ⟨.F, true, false, .dst, .src, .zero, (.below 32)⟩   -- LROT
  | 0x0C8 => ⟨.F, false, false, .pred, .pred, .zero, .zero⟩   -- POLL_ANY
  | 0x0C9 => ⟨.F, false, false, .pred, .pred, .zero, .zero⟩   -- POLL_ALL
  | 0x0CA => ⟨.F, true, false, .dst, .pred, .zero, .zero⟩   -- POLL_MASK
  | 0x0CB => ⟨.F, true, false, .dst, .src, .zero, .zero⟩   -- LEQ_MASK
  | 0x0CC => ⟨.F, true, false, .dst, .src, .zero, .zero⟩   -- LEQ_ALL
  | 0x0D0 => ⟨.F, true, false, .dst, .src, .zero, (.mi [0,1] false false)⟩   -- RED_ADD
  | 0x0D1 => ⟨.F, true, false, .dst, .src, .zero, (.mi [0,1] false false)⟩   -- RED_MIN
  | 0x0D2 => ⟨.F, true, false, .dst, .src, .zero, (.mi [0,1] false false)⟩   -- RED_MAX
  | 0x0D3 => ⟨.F, true, false, .dst, .src, .zero, (.mi [0,1] false false)⟩   -- RED_AND
  | 0x0D4 => ⟨.F, true, false, .dst, .src, .zero, (.mi [0,1] false false)⟩   -- RED_OR
  | 0x0D5 => ⟨.F, true, false, .dst, .src, .zero, (.mi [0,1] false false)⟩   -- RED_XOR
  | 0x0D8 => ⟨.F, true, false, .dst, .src, .zero, (.mf [0] [0] false)⟩   -- RED_FADD
  | 0x0D9 => ⟨.F, true, false, .dst, .src, .zero, (.mf [0] [0] false)⟩   -- RED_FMIN
  | 0x0DA => ⟨.F, true, false, .dst, .src, .zero, (.mf [0] [0] false)⟩   -- RED_FMAX
  | 0x0DC => ⟨.F, true, false, .dst, .src, .zero, (.mi [0,1] false false)⟩   -- SCAN_ADD
  | 0x0E0 => ⟨.V, false, false, .dst, .src, .value, .mem⟩   -- LD
  | 0x0E1 => ⟨.V, false, false, .dst, .src, .value, .mem⟩   -- LD_ACQ
  | 0x0E2 => ⟨.V, false, false, .dst, .src, .value, .mem⟩   -- LD_SC
  | 0x0E4 => ⟨.V, false, false, .src, .src, .value, .mem⟩   -- ST
  | 0x0E5 => ⟨.V, false, false, .src, .src, .value, .mem⟩   -- ST_REL
  | 0x0E6 => ⟨.V, false, false, .src, .src, .value, .mem⟩   -- ST_SC
  | 0x0E8 => ⟨.V, false, false, .atomD, .src, .value, .maScope⟩   -- ATOM_RLX
  | 0x0E9 => ⟨.V, false, false, .atomD, .src, .value, .maScope⟩   -- ATOM_ACQ
  | 0x0EA => ⟨.V, false, false, .atomD, .src, .value, .maScope⟩   -- ATOM_REL
  | 0x0EB => ⟨.V, false, false, .atomD, .src, .value, .maScope⟩   -- ATOM_AR
  | 0x0EC => ⟨.V, false, false, .atomD, .src, .value, .maScope⟩   -- ATOM_SC
  | 0x0F0 => ⟨.V, false, false, .atomD, .src, .zero, .maOrder⟩   -- ATOMS
  | 0x0F1 => ⟨.V, false, false, .dst, .src, .zero, (.smem 2)⟩   -- LDS
  | 0x0F2 => ⟨.V, false, false, .src, .src, .zero, (.smem 0)⟩   -- STS
  | 0x0F3 => ⟨.V, false, false, .zero, .src, .zero, (.smem 0)⟩   -- FESET
  | 0x0F4 => ⟨.V, false, false, .zero, .src, .zero, (.smem 0)⟩   -- FECLR
  | 0x0F5 => ⟨.V, false, false, (.group 8 false), .src, .zero, (.smem 0)⟩   -- LDFRAG
  | 0x0F8 => ⟨.V, false, false, .zero, .src, .value, .zero⟩   -- STASHMAP
  | 0x0F9 => ⟨.V, false, false, .zero, .zero, .value, .zero⟩   -- STASHFLUSH
  | 0x0FA => ⟨.V, false, false, .zero, .zero, .value, .zero⟩   -- STASHDROP
  | 0x100 => ⟨.V, false, false, .zero, .src, .value, .mem⟩   -- PREF
  | 0x101 => ⟨.V, false, false, .zero, .src, .value, .mem⟩   -- CCLEAN
  | 0x102 => ⟨.V, false, false, .zero, .src, .value, .mem⟩   -- CINV
  | 0x108 => ⟨.V, false, true, .dstPair, .srcPair, .zero, .mem⟩   -- LDP
  | 0x109 => ⟨.V, false, true, .srcPair, .srcPair, .zero, .mem⟩   -- STP
  | 0x120 => ⟨.C, false, false, .zero, .zero, .zero, .mo⟩   -- FENCE
  | 0x121 => ⟨.C, false, false, .zero, .zero, .zero, .value⟩   -- BAR
  | 0x122 => ⟨.C, false, false, .zero, .zero, .zero, .value⟩   -- ARRIVE
  | 0x123 => ⟨.C, false, false, .zero, .zero, .zero, .value⟩   -- WAITB
  | 0x140 => ⟨.V, false, false, .dst, .srcPair, .srcPair, .srcPair⟩   -- CPY
  | 0x141 => ⟨.V, false, false, .dst, .srcPair, .srcPair, .srcPair⟩   -- CPY2
  | 0x142 => ⟨.V, false, false, .dst, .srcPair, .srcPair, .srcPair⟩   -- CPYT
  | 0x143 => ⟨.V, false, false, .dst, .srcPair, .srcPair, .srcPair⟩   -- CPYX
  | 0x144 => ⟨.V, false, false, .dst, .srcPair, .srcPair, .srcPair⟩   -- CPYZ
  | 0x145 => ⟨.V, false, false, .dst, .srcPair, .srcPair, .srcPair⟩   -- CPYG
  | 0x146 => ⟨.V, false, false, .dst, .srcPair, .srcPair, .srcPair⟩   -- CPYS
  | 0x147 => ⟨.V, false, false, .dst, .srcPair, .srcPair, .srcPair⟩   -- CPYM
  | 0x148 => ⟨.V, false, false, .dst, .srcPair, .srcPair, .srcPair⟩   -- FILL
  | 0x149 => ⟨.V, false, false, .dst, .srcPair, .srcPair, .srcPair⟩   -- CPYP
  | 0x14C => ⟨.F, false, false, .dst, .zero, .zero, .value⟩   -- BSEAL
  | 0x14D => ⟨.C, false, false, .zero, .zero, .zero, .value⟩   -- BWAIT
  | 0x160 => ⟨.V, false, false, (.bits 0x01), .src, .value, .zero⟩   -- MWLD
  | 0x161 => ⟨.V, false, false, (.bits 0x01), .src, .value, .zero⟩   -- MWLD_L2
  | 0x162 => ⟨.V, false, false, (.bits 0x07), .src, .value, .srcPair⟩   -- MMA
  | 0x163 => ⟨.V, false, false, (.bits 0x1F), .zero, .value, .srcPair⟩   -- MMA_BYP
  | 0x164 => ⟨.V, false, false, (.bits 0x03), .src, .value, .srcPair⟩   -- MDRAIN
  | 0x165 => ⟨.V, false, false, (.bits 0x03), .zero, .zero, .zero⟩   -- MZERO
  | 0x166 => ⟨.V, false, false, (.bits 0x03), .src, .value, .zero⟩   -- MACCLD
  | 0x167 => ⟨.V, false, false, (.bits 0x03), .src, .value, .zero⟩   -- MACCST
  | 0x168 => ⟨.F, true, false, .dst, .zero, .zero, .zero⟩   -- MSTAT
  | 0x180 => ⟨.V, false, false, .zero, .srcPair, .src, .zero⟩   -- LAUNCH
  | 0x181 => ⟨.V, false, false, .zero, .srcPair, .src, .zero⟩   -- LAUNCHI
  | 0x182 => ⟨.V, false, false, .zero, .srcPair, .zero, .zero⟩   -- SIGNAL
  | 0x183 => ⟨.C, false, false, .zero, .imm24, .imm24, .imm24⟩   -- LAND
  | 0x184 => ⟨.F, false, false, .dst, .zero, .zero, .zero⟩   -- VARQ
  | 0x185 => ⟨.V, false, true, .zero, .srcPair, .zero, .zero⟩   -- CTXSV
  | 0x186 => ⟨.V, false, true, .zero, .srcPair, .zero, .zero⟩   -- CTXLD
  | 0x1A0 => ⟨.F, false, true, .dst, .zero, .value, .zero⟩   -- OWNGET
  | 0x1A1 => ⟨.F, false, true, .zero, .src, .value, .zero⟩   -- OWNSET
  | 0x1A2 => ⟨.F, false, true, .dst, .zero, .src, .value⟩   -- LGET
  | 0x1A3 => ⟨.F, false, true, .zero, .src, .src, .value⟩   -- LSET
  | 0x1A4 => ⟨.C, false, true, .zero, .zero, .zero, .zero⟩   -- XRET
  | 0x1A5 => ⟨.V, false, true, (.group 3 true), .zero, .zero, .zero⟩   -- WQTAKE
  | 0x1A6 => ⟨.V, false, true, (.group 6 true), .srcPair, .srcPair, .zero⟩   -- RWALK
  | 0x1A7 => ⟨.V, false, true, (.group 6 true), .src, .src, .zero⟩   -- TLBPUT
  | 0x1A8 => ⟨.V, false, true, .zero, .srcPair, .srcPair, .zero⟩   -- TLBKILL
  | 0x1A9 => ⟨.V, false, true, (.group 3 true), .zero, .zero, .zero⟩   -- FQTAKE
  | 0x1AA => ⟨.V, false, true, .zero, .src, .zero, .zero⟩   -- TRESUME
  | 0x1AB => ⟨.C, false, true, .zero, .zero, .zero, .value⟩   -- OWNSTALL
  | 0x1C0 => ⟨.V, false, false, .dstPair, .zero, .zero, .value⟩   -- CNTR
  | 0x1C1 => ⟨.V, false, false, .dst, .zero, .zero, .value⟩   -- QOSQ
  | 0x1C2 => ⟨.V, false, true, .dst, .zero, .zero, .value⟩   -- ERRQ
  | _ => ⟨.C, false, false, .zero, .zero, .zero, .zero⟩

/-- The cell of each instruction: its op9, op7 or op4, with its fields. -/
def Instr.shape : Instr → Shape
  | .nop x => .x 0x000 x
  | .nopW32 w => .w 0x00 w
  | .bra x => .x 0x001 x
  | .braW32 w => .w 0x01 w
  | .brp x => .x 0x002 x
  | .brpAnyW32 w => .w 0x03 w
  | .brpNoneW32 w => .w 0x04 w
  | .brez x => .x 0x003 x
  | .brezW32 w => .w 0x02 w
  | .jmp x => .x 0x004 x
  | .call x => .x 0x005 x
  | .ret x => .x 0x006 x
  | .emget x => .x 0x008 x
  | .emgetW32 w => .w 0x32 w
  | .emset x => .x 0x009 x
  | .emsetW32 w => .w 0x33 w
  | .emand x => .x 0x00A x
  | .emandW32 w => .w 0x34 w
  | .emandn x => .x 0x00B x
  | .emandnW32 w => .w 0x35 w
  | .mcall x => .x 0x010 x
  | .trap x => .x 0x011 x
  | .yield x => .x 0x012 x
  | .yieldW32 w => .w 0x06 w
  | .waitf x => .x 0x013 x
  | .waitfW32 w => .w 0x07 w
  | .exit x => .x 0x014 x
  | .exitW32 w => .w 0x05 w
  | .getsr x => .x 0x015 x
  | .getsrW32 w => .w 0x36 w
  | .iadd x => .x 0x040 x
  | .iaddW32 w => .w 0x08 w
  | .iaddSatW32 w => .w 0x11 w
  | .iaddH16 h => .h 0x1 h
  | .isub x => .x 0x041 x
  | .isubW32 w => .w 0x09 w
  | .isubSatW32 w => .w 0x12 w
  | .isubH16 h => .h 0x2 h
  | .imul x => .x 0x042 x
  | .imulW32 w => .w 0x0A w
  | .imulh x => .x 0x043 x
  | .imulhI32W32 w => .w 0x0B w
  | .imulhN32W32 w => .w 0x0C w
  | .imla x => .x 0x044 x
  | .imlalI32 x => .x 0x045 x
  | .imlalN32 x => .x 0x046 x
  | .imin x => .x 0x047 x
  | .iminI32W32 w => .w 0x0D w
  | .iminN32W32 w => .w 0x0F w
  | .iminH16 h => .h 0x9 h
  | .imax x => .x 0x048 x
  | .imaxI32W32 w => .w 0x0E w
  | .imaxN32W32 w => .w 0x10 w
  | .imaxH16 h => .h 0xA h
  | .iabs x => .x 0x049 x
  | .iabsW32 w => .w 0x13 w
  | .ineg x => .x 0x04A x
  | .inegW32 w => .w 0x14 w
  | .iaddminI32 x => .x 0x04B x
  | .iaddminI16x2 x => .x 0x04C x
  | .and x => .x 0x050 x
  | .andW32 w => .w 0x18 w
  | .andH16 h => .h 0x3 h
  | .or x => .x 0x051 x
  | .orW32 w => .w 0x19 w
  | .orH16 h => .h 0x4 h
  | .xor x => .x 0x052 x
  | .xorW32 w => .w 0x1A w
  | .xorH16 h => .h 0x5 h
  | .andn x => .x 0x053 x
  | .andnW32 w => .w 0x1B w
  | .not x => .x 0x054 x
  | .notW32 w => .w 0x1C w
  | .shl x => .x 0x055 x
  | .shlW32 w => .w 0x1D w
  | .shlH16 h => .h 0x6 h
  | .shr x => .x 0x056 x
  | .shrW32 w => .w 0x1E w
  | .shrH16 h => .h 0x7 h
  | .sar x => .x 0x057 x
  | .sarW32 w => .w 0x1F w
  | .sarH16 h => .h 0x8 h
  | .rotl x => .x 0x058 x
  | .rotlW32 w => .w 0x20 w
  | .shlImm x => .x 0x068 x
  | .shlImmW32 w => .w 0x21 w
  | .shrImm x => .x 0x069 x
  | .shrImmW32 w => .w 0x22 w
  | .sarImm x => .x 0x06A x
  | .sarImmW32 w => .w 0x23 w
  | .rotlImm x => .x 0x06B x
  | .rotlImmW32 w => .w 0x24 w
  | .clz x => .x 0x059 x
  | .clzW32 w => .w 0x25 w
  | .popc x => .x 0x05A x
  | .popcW32 w => .w 0x26 w
  | .brev x => .x 0x05B x
  | .brevW32 w => .w 0x27 w
  | .bfxN32 x => .x 0x05C x
  | .bfxI32 x => .x 0x05D x
  | .bfi x => .x 0x05E x
  | .icmp x => .x 0x060 x
  | .icmpEqW32 w => .w 0x28 w
  | .icmpNeW32 w => .w 0x29 w
  | .icmpLtW32 w => .w 0x2A w
  | .icmpLeW32 w => .w 0x2B w
  | .icmpLtN32W32 w => .w 0x2C w
  | .icmpLeN32W32 w => .w 0x2D w
  | .sel x => .x 0x061 x
  | .mov x => .x 0x062 x
  | .movW32 w => .w 0x30 w
  | .movH16 h => .h 0x0 h
  | .movi x => .x 0x063 x
  | .moviW32 w => .w 0x31 w
  | .movhi x => .x 0x064 x
  | .lea x => .x 0x065 x
  | .fadd x => .x 0x080 x
  | .faddW32 w => .w 0x38 w
  | .faddH16 h => .h 0xB h
  | .fsub x => .x 0x081 x
  | .fsubW32 w => .w 0x39 w
  | .fsubH16 h => .h 0xC h
  | .fmul x => .x 0x082 x
  | .fmulW32 w => .w 0x3A w
  | .fmulH16 h => .h 0xD h
  | .fmacRn x => .x 0x083 x
  | .fmacRz x => .x 0x084 x
  | .fmacRu x => .x 0x085 x
  | .fmacRd x => .x 0x086 x
  | .fmin x => .x 0x087 x
  | .fminW32 w => .w 0x3B w
  | .fminH16 h => .h 0xE h
  | .fmax x => .x 0x088 x
  | .fmaxW32 w => .w 0x3C w
  | .fmaxH16 h => .h 0xF h
  | .fcmp x => .x 0x089 x
  | .fclass x => .x 0x08A x
  | .frint x => .x 0x08B x
  | .frcp x => .x 0x090 x
  | .frsq x => .x 0x091 x
  | .fsqrt x => .x 0x092 x
  | .fex2 x => .x 0x093 x
  | .flg2 x => .x 0x094 x
  | .fsin x => .x 0x095 x
  | .fcos x => .x 0x096 x
  | .pkadd x => .x 0x098 x
  | .pkaddF16x2W32 w => .w 0x40 w
  | .pkaddBf16x2W32 w => .w 0x42 w
  | .pkmul x => .x 0x099 x
  | .pkmulF16x2W32 w => .w 0x41 w
  | .pkmulBf16x2W32 w => .w 0x43 w
  | .pkfmaF16x2 x => .x 0x09A x
  | .pkfmaBf16x2 x => .x 0x09B x
  | .cvtF x => .x 0x0A0 x
  | .cvtI x => .x 0x0A1 x
  | .dxpack x => .x 0x0A2 x
  | .dxunpk x => .x 0x0A3 x
  | .lperm x => .x 0x0C0 x
  | .lpermW32 w => .w 0x48 w
  | .lshu x => .x 0x0C1 x
  | .lshuW32 w => .w 0x49 w
  | .lshd x => .x 0x0C2 x
  | .lshdW32 w => .w 0x4A w
  | .lxor x => .x 0x0C3 x
  | .lxorW32 w => .w 0x4B w
  | .lrot x => .x 0x0C4 x
  | .pollAny x => .x 0x0C8 x
  | .pollAll x => .x 0x0C9 x
  | .pollMask x => .x 0x0CA x
  | .pollMaskW32 w => .w 0x4C w
  | .leqMask x => .x 0x0CB x
  | .leqAll x => .x 0x0CC x
  | .redAdd x => .x 0x0D0 x
  | .redMin x => .x 0x0D1 x
  | .redMax x => .x 0x0D2 x
  | .redAnd x => .x 0x0D3 x
  | .redOr x => .x 0x0D4 x
  | .redXor x => .x 0x0D5 x
  | .redFadd x => .x 0x0D8 x
  | .redFmin x => .x 0x0D9 x
  | .redFmax x => .x 0x0DA x
  | .scanAdd x => .x 0x0DC x
  | .ld x => .x 0x0E0 x
  | .ldAcq x => .x 0x0E1 x
  | .ldSc x => .x 0x0E2 x
  | .st x => .x 0x0E4 x
  | .stRel x => .x 0x0E5 x
  | .stSc x => .x 0x0E6 x
  | .atomRlx x => .x 0x0E8 x
  | .atomAcq x => .x 0x0E9 x
  | .atomRel x => .x 0x0EA x
  | .atomAr x => .x 0x0EB x
  | .atomSc x => .x 0x0EC x
  | .atoms x => .x 0x0F0 x
  | .lds x => .x 0x0F1 x
  | .sts x => .x 0x0F2 x
  | .feset x => .x 0x0F3 x
  | .feclr x => .x 0x0F4 x
  | .ldfrag x => .x 0x0F5 x
  | .stashmap x => .x 0x0F8 x
  | .stashflush x => .x 0x0F9 x
  | .stashdrop x => .x 0x0FA x
  | .pref x => .x 0x100 x
  | .cclean x => .x 0x101 x
  | .cinv x => .x 0x102 x
  | .ldp x => .x 0x108 x
  | .stp x => .x 0x109 x
  | .fence x => .x 0x120 x
  | .bar x => .x 0x121 x
  | .arrive x => .x 0x122 x
  | .waitb x => .x 0x123 x
  | .barrierGenerationComplete _ _ _ => .event
  | .cpy x => .x 0x140 x
  | .cpy2 x => .x 0x141 x
  | .cpyt x => .x 0x142 x
  | .cpyx x => .x 0x143 x
  | .cpyz x => .x 0x144 x
  | .cpyg x => .x 0x145 x
  | .cpys x => .x 0x146 x
  | .cpym x => .x 0x147 x
  | .fill x => .x 0x148 x
  | .cpyp x => .x 0x149 x
  | .bseal x => .x 0x14C x
  | .bwait x => .x 0x14D x
  | .copyStart _ => .event
  | .copySourceFailure _ => .event
  | .distillerBlock _ => .event
  | .copyComplete _ => .event
  | .cpymFollowOn _ => .event
  | .mwld x => .x 0x160 x
  | .mwldL2 x => .x 0x161 x
  | .mma x => .x 0x162 x
  | .mmaByp x => .x 0x163 x
  | .mdrain x => .x 0x164 x
  | .mzero x => .x 0x165 x
  | .maccld x => .x 0x166 x
  | .maccst x => .x 0x167 x
  | .mstat x => .x 0x168 x
  | .matrixCommandStart _ => .event
  | .matrixCommandComplete _ => .event
  | .matrixStop _ _ => .event
  | .matrixResumeReload _ => .event
  | .launch x => .x 0x180 x
  | .launchi x => .x 0x181 x
  | .signal x => .x 0x182 x
  | .land x => .x 0x183 x
  | .landW32 w => .w 0x50 w
  | .varq x => .x 0x184 x
  | .ctxsv x => .x 0x185 x
  | .ctxld x => .x 0x186 x
  | .admission _ _ => .event
  | .gridDispatch _ => .event
  | .teamPlace _ => .event
  | .teamRetire _ => .event
  | .gridRetire _ => .event
  | .wcetOverrun _ => .event
  | .switchRequestPost _ _ => .event
  | .landingRemap _ => .event
  | .switchWithdrawTimeout _ => .event
  | .forwardProgressSwap _ => .event
  | .migration _ _ => .event
  | .resultWriteback _ => .event
  | .floatUnitComplete _ => .event
  | .memoryComplete _ => .event
  | .ldsWaitWake _ => .event
  | .stashFill _ => .event
  | .wcBufferWriteout _ _ => .event
  | .wayAllocation _ => .event
  | .ownget x => .x 0x1A0 x
  | .ownset x => .x 0x1A1 x
  | .lget x => .x 0x1A2 x
  | .lset x => .x 0x1A3 x
  | .xret x => .x 0x1A4 x
  | .wqtake x => .x 0x1A5 x
  | .fqtake x => .x 0x1A9 x
  | .rwalk x => .x 0x1A6 x
  | .tlbput x => .x 0x1A7 x
  | .tlbkill x => .x 0x1A8 x
  | .tresume x => .x 0x1AA x
  | .ownstall x => .x 0x1AB x
  | .noProgressStall _ => .event
  | .cntr x => .x 0x1C0 x
  | .qosq x => .x 0x1C1 x
  | .errq x => .x 0x1C2 x
  | .sliceEnd _ => .event
  | .sliceStart _ => .event
  | .correctableError _ _ => .event
  | .uncorrectableError _ => .event
  | .qtailDoorbell _ _ _ => .event
  | .hostPacketLaunch _ _ => .event
  | .hostPacketLaunchi _ _ => .event
  | .hostPacketSignal _ _ => .event
  | .hostPacketBadOp _ _ => .event
  | .qctlWrite _ _ _ => .event
  | .vdevtClear _ _ => .event
  | .vdctlStart _ => .event
  | .xferreqSplit _ _ => .event
  | .xferreqMerge _ _ => .event
  | .xferreqToP _ _ => .event
  | .xferreqToA _ _ => .event
  | .xferComplete _ _ => .event
  | .hostCxlMemAccess _ _ => .event
  | .birspReceived _ _ _ _ => .event
  | .hostSnoop _ _ => .event
  | .bar2Access _ _ => .event
  | .opctlStall _ => .event
  | .opctlResume _ => .event
  | .opctlReset _ => .event
  | .opctlPause _ => .event
  | .pauseDrained _ => .event
  | .opctlSave _ => .event
  | .opctlLoad _ => .event
  | .opctlUnpause _ => .event
  | .functionLevelReset _ => .event
  | .balWrite _ _ _ => .event
  | .balDropDone _ => .event
  | .hvstateWrite _ _ => .event
  | .msixVectorUnmask _ _ => .event
  | .registerWrite _ => .event
  | .mgmtResetPlain => .event
  | .mgmtResetMinimal => .event
  | .mgmtResetRetry => .event
  | .mgmtFlcWriteWord => .event
  | .pctlApply _ => .event
  | .pctlTeardown _ => .event
  | .linkTraining _ _ => .event
  | .peerBlockArrival _ => .event
  | .clockStepSample _ _ => .event
  | .thermalHold _ _ => .event
  | .thermalTrip _ => .event
  | .packageStart => .event
  | .watchdogExpiry => .event
  | .mgmtException _ _ _ => .event
  | .wdogWrite _ => .event
  | .bootokWrite _ => .event
  | .minimalWrite _ => .event
  | .rstreqClear _ => .event
  | .hsaHash => .event
  | .hsaVerify => .event
  | .hsaExtend => .event
  | .hsaOpDone => .event
  | .flcWriteWord => .event
  | .flcWriteDone _ => .event
  | .doeRequest _ => .event
  | .doeTxSend _ => .event
  | .doeRxRelease _ => .event
  | .linkFailure _ => .event
  | .powerLoss => .event
  | .copyEngineBeat _ _ => .event
  | .translationResolved _ => .event

/-- The instruction of an op9 cell (02 R54); none where the cell is reserved. -/
noncomputable def ofX (op9 : Nat) (x : XF) : Option Instr :=
  match op9 with
  | 0x000 => some (.nop x)
  | 0x001 => some (.bra x)
  | 0x002 => some (.brp x)
  | 0x003 => some (.brez x)
  | 0x004 => some (.jmp x)
  | 0x005 => some (.call x)
  | 0x006 => some (.ret x)
  | 0x008 => some (.emget x)
  | 0x009 => some (.emset x)
  | 0x00A => some (.emand x)
  | 0x00B => some (.emandn x)
  | 0x010 => some (.mcall x)
  | 0x011 => some (.trap x)
  | 0x012 => some (.yield x)
  | 0x013 => some (.waitf x)
  | 0x014 => some (.exit x)
  | 0x015 => some (.getsr x)
  | 0x040 => some (.iadd x)
  | 0x041 => some (.isub x)
  | 0x042 => some (.imul x)
  | 0x043 => some (.imulh x)
  | 0x044 => some (.imla x)
  | 0x045 => some (.imlalI32 x)
  | 0x046 => some (.imlalN32 x)
  | 0x047 => some (.imin x)
  | 0x048 => some (.imax x)
  | 0x049 => some (.iabs x)
  | 0x04A => some (.ineg x)
  | 0x04B => some (.iaddminI32 x)
  | 0x04C => some (.iaddminI16x2 x)
  | 0x050 => some (.and x)
  | 0x051 => some (.or x)
  | 0x052 => some (.xor x)
  | 0x053 => some (.andn x)
  | 0x054 => some (.not x)
  | 0x055 => some (.shl x)
  | 0x056 => some (.shr x)
  | 0x057 => some (.sar x)
  | 0x058 => some (.rotl x)
  | 0x059 => some (.clz x)
  | 0x05A => some (.popc x)
  | 0x05B => some (.brev x)
  | 0x05C => some (.bfxN32 x)
  | 0x05D => some (.bfxI32 x)
  | 0x05E => some (.bfi x)
  | 0x060 => some (.icmp x)
  | 0x061 => some (.sel x)
  | 0x062 => some (.mov x)
  | 0x063 => some (.movi x)
  | 0x064 => some (.movhi x)
  | 0x065 => some (.lea x)
  | 0x068 => some (.shlImm x)
  | 0x069 => some (.shrImm x)
  | 0x06A => some (.sarImm x)
  | 0x06B => some (.rotlImm x)
  | 0x080 => some (.fadd x)
  | 0x081 => some (.fsub x)
  | 0x082 => some (.fmul x)
  | 0x083 => some (.fmacRn x)
  | 0x084 => some (.fmacRz x)
  | 0x085 => some (.fmacRu x)
  | 0x086 => some (.fmacRd x)
  | 0x087 => some (.fmin x)
  | 0x088 => some (.fmax x)
  | 0x089 => some (.fcmp x)
  | 0x08A => some (.fclass x)
  | 0x08B => some (.frint x)
  | 0x090 => some (.frcp x)
  | 0x091 => some (.frsq x)
  | 0x092 => some (.fsqrt x)
  | 0x093 => some (.fex2 x)
  | 0x094 => some (.flg2 x)
  | 0x095 => some (.fsin x)
  | 0x096 => some (.fcos x)
  | 0x098 => some (.pkadd x)
  | 0x099 => some (.pkmul x)
  | 0x09A => some (.pkfmaF16x2 x)
  | 0x09B => some (.pkfmaBf16x2 x)
  | 0x0A0 => some (.cvtF x)
  | 0x0A1 => some (.cvtI x)
  | 0x0A2 => some (.dxpack x)
  | 0x0A3 => some (.dxunpk x)
  | 0x0C0 => some (.lperm x)
  | 0x0C1 => some (.lshu x)
  | 0x0C2 => some (.lshd x)
  | 0x0C3 => some (.lxor x)
  | 0x0C4 => some (.lrot x)
  | 0x0C8 => some (.pollAny x)
  | 0x0C9 => some (.pollAll x)
  | 0x0CA => some (.pollMask x)
  | 0x0CB => some (.leqMask x)
  | 0x0CC => some (.leqAll x)
  | 0x0D0 => some (.redAdd x)
  | 0x0D1 => some (.redMin x)
  | 0x0D2 => some (.redMax x)
  | 0x0D3 => some (.redAnd x)
  | 0x0D4 => some (.redOr x)
  | 0x0D5 => some (.redXor x)
  | 0x0D8 => some (.redFadd x)
  | 0x0D9 => some (.redFmin x)
  | 0x0DA => some (.redFmax x)
  | 0x0DC => some (.scanAdd x)
  | 0x0E0 => some (.ld x)
  | 0x0E1 => some (.ldAcq x)
  | 0x0E2 => some (.ldSc x)
  | 0x0E4 => some (.st x)
  | 0x0E5 => some (.stRel x)
  | 0x0E6 => some (.stSc x)
  | 0x0E8 => some (.atomRlx x)
  | 0x0E9 => some (.atomAcq x)
  | 0x0EA => some (.atomRel x)
  | 0x0EB => some (.atomAr x)
  | 0x0EC => some (.atomSc x)
  | 0x0F0 => some (.atoms x)
  | 0x0F1 => some (.lds x)
  | 0x0F2 => some (.sts x)
  | 0x0F3 => some (.feset x)
  | 0x0F4 => some (.feclr x)
  | 0x0F5 => some (.ldfrag x)
  | 0x0F8 => some (.stashmap x)
  | 0x0F9 => some (.stashflush x)
  | 0x0FA => some (.stashdrop x)
  | 0x100 => some (.pref x)
  | 0x101 => some (.cclean x)
  | 0x102 => some (.cinv x)
  | 0x108 => some (.ldp x)
  | 0x109 => some (.stp x)
  | 0x120 => some (.fence x)
  | 0x121 => some (.bar x)
  | 0x122 => some (.arrive x)
  | 0x123 => some (.waitb x)
  | 0x140 => some (.cpy x)
  | 0x141 => some (.cpy2 x)
  | 0x142 => some (.cpyt x)
  | 0x143 => some (.cpyx x)
  | 0x144 => some (.cpyz x)
  | 0x145 => some (.cpyg x)
  | 0x146 => some (.cpys x)
  | 0x147 => some (.cpym x)
  | 0x148 => some (.fill x)
  | 0x149 => some (.cpyp x)
  | 0x14C => some (.bseal x)
  | 0x14D => some (.bwait x)
  | 0x160 => some (.mwld x)
  | 0x161 => some (.mwldL2 x)
  | 0x162 => some (.mma x)
  | 0x163 => some (.mmaByp x)
  | 0x164 => some (.mdrain x)
  | 0x165 => some (.mzero x)
  | 0x166 => some (.maccld x)
  | 0x167 => some (.maccst x)
  | 0x168 => some (.mstat x)
  | 0x180 => some (.launch x)
  | 0x181 => some (.launchi x)
  | 0x182 => some (.signal x)
  | 0x183 => some (.land x)
  | 0x184 => some (.varq x)
  | 0x185 => some (.ctxsv x)
  | 0x186 => some (.ctxld x)
  | 0x1A0 => some (.ownget x)
  | 0x1A1 => some (.ownset x)
  | 0x1A2 => some (.lget x)
  | 0x1A3 => some (.lset x)
  | 0x1A4 => some (.xret x)
  | 0x1A5 => some (.wqtake x)
  | 0x1A6 => some (.rwalk x)
  | 0x1A7 => some (.tlbput x)
  | 0x1A8 => some (.tlbkill x)
  | 0x1A9 => some (.fqtake x)
  | 0x1AA => some (.tresume x)
  | 0x1AB => some (.ownstall x)
  | 0x1C0 => some (.cntr x)
  | 0x1C1 => some (.qosq x)
  | 0x1C2 => some (.errq x)
  | _ => none

/-- The instruction of an op7 cell (02 R63); none where the cell is reserved. -/
noncomputable def ofW (op7 : Nat) (w : WF) : Option Instr :=
  match op7 with
  | 0x00 => some (.nopW32 w)
  | 0x01 => some (.braW32 w)
  | 0x02 => some (.brezW32 w)
  | 0x03 => some (.brpAnyW32 w)
  | 0x04 => some (.brpNoneW32 w)
  | 0x05 => some (.exitW32 w)
  | 0x06 => some (.yieldW32 w)
  | 0x07 => some (.waitfW32 w)
  | 0x08 => some (.iaddW32 w)
  | 0x09 => some (.isubW32 w)
  | 0x0A => some (.imulW32 w)
  | 0x0B => some (.imulhI32W32 w)
  | 0x0C => some (.imulhN32W32 w)
  | 0x0D => some (.iminI32W32 w)
  | 0x0E => some (.imaxI32W32 w)
  | 0x0F => some (.iminN32W32 w)
  | 0x10 => some (.imaxN32W32 w)
  | 0x11 => some (.iaddSatW32 w)
  | 0x12 => some (.isubSatW32 w)
  | 0x13 => some (.iabsW32 w)
  | 0x14 => some (.inegW32 w)
  | 0x18 => some (.andW32 w)
  | 0x19 => some (.orW32 w)
  | 0x1A => some (.xorW32 w)
  | 0x1B => some (.andnW32 w)
  | 0x1C => some (.notW32 w)
  | 0x1D => some (.shlW32 w)
  | 0x1E => some (.shrW32 w)
  | 0x1F => some (.sarW32 w)
  | 0x20 => some (.rotlW32 w)
  | 0x21 => some (.shlImmW32 w)
  | 0x22 => some (.shrImmW32 w)
  | 0x23 => some (.sarImmW32 w)
  | 0x24 => some (.rotlImmW32 w)
  | 0x25 => some (.clzW32 w)
  | 0x26 => some (.popcW32 w)
  | 0x27 => some (.brevW32 w)
  | 0x28 => some (.icmpEqW32 w)
  | 0x29 => some (.icmpNeW32 w)
  | 0x2A => some (.icmpLtW32 w)
  | 0x2B => some (.icmpLeW32 w)
  | 0x2C => some (.icmpLtN32W32 w)
  | 0x2D => some (.icmpLeN32W32 w)
  | 0x30 => some (.movW32 w)
  | 0x31 => some (.moviW32 w)
  | 0x32 => some (.emgetW32 w)
  | 0x33 => some (.emsetW32 w)
  | 0x34 => some (.emandW32 w)
  | 0x35 => some (.emandnW32 w)
  | 0x36 => some (.getsrW32 w)
  | 0x38 => some (.faddW32 w)
  | 0x39 => some (.fsubW32 w)
  | 0x3A => some (.fmulW32 w)
  | 0x3B => some (.fminW32 w)
  | 0x3C => some (.fmaxW32 w)
  | 0x40 => some (.pkaddF16x2W32 w)
  | 0x41 => some (.pkmulF16x2W32 w)
  | 0x42 => some (.pkaddBf16x2W32 w)
  | 0x43 => some (.pkmulBf16x2W32 w)
  | 0x48 => some (.lpermW32 w)
  | 0x49 => some (.lshuW32 w)
  | 0x4A => some (.lshdW32 w)
  | 0x4B => some (.lxorW32 w)
  | 0x4C => some (.pollMaskW32 w)
  | 0x50 => some (.landW32 w)
  | _ => none

/-- The instruction of an op4 cell (02 R36); no cell is reserved. -/
def ofH (op4 : Nat) (h : HF) : Option Instr :=
  match op4 with
  | 0x0 => some (.movH16 h)
  | 0x1 => some (.iaddH16 h)
  | 0x2 => some (.isubH16 h)
  | 0x3 => some (.andH16 h)
  | 0x4 => some (.orH16 h)
  | 0x5 => some (.xorH16 h)
  | 0x6 => some (.shlH16 h)
  | 0x7 => some (.shrH16 h)
  | 0x8 => some (.sarH16 h)
  | 0x9 => some (.iminH16 h)
  | 0xA => some (.imaxH16 h)
  | 0xB => some (.faddH16 h)
  | 0xC => some (.fsubH16 h)
  | 0xD => some (.fmulH16 h)
  | 0xE => some (.fminH16 h)
  | 0xF => some (.fmaxH16 h)
  | _ => none

/-- The fields of an X64 word (02 R38). -/
def XF.ofWord (w : BitVec 64) : XF where
  chain := w.getLsbD 63
  c     := w.extractLsb' 55 8
  b     := w.extractLsb' 47 8
  a     := w.extractLsb' 39 8
  d     := w.extractLsb' 31 8
  ws    := w.getLsbD 30
  set   := w.extractLsb' 17 4
  wait  := w.extractLsb' 5 12
  dist  := w.extractLsb' 2 3

/-- op9 of an X64 word. -/
def op9Of (w : BitVec 64) : Nat := (w.extractLsb' 21 9).toNat

/-- The X64 word of a cell and its fields (02 R38). -/
def XF.toWord (op9 : Nat) (x : XF) : BitVec 64 :=
  BitVec.ofBool x.chain ++ x.c ++ x.b ++ x.a ++ x.d ++ BitVec.ofBool x.ws ++ BitVec.ofNat 9 op9 ++ x.set ++ x.wait
    ++ x.dist ++ (3#2 : BitVec 2)

/-- The fields of a W32 word (02 R37). -/
def WF.ofWord (w : BitVec 32) : WF where
  b    := w.extractLsb' 26 6
  a    := w.extractLsb' 20 6
  d    := w.extractLsb' 14 6
  wait := w.extractLsb' 4 3
  dist := w.extractLsb' 2 2

/-- op7 of a W32 word. -/
def op7Of (w : BitVec 32) : Nat := (w.extractLsb' 7 7).toNat

/-- The W32 word of a cell and its fields. -/
def WF.toWord (op7 : Nat) (w : WF) : BitVec 32 :=
  w.b ++ w.a ++ w.d ++ BitVec.ofNat 7 op7 ++ w.wait ++ w.dist ++ (1#2 : BitVec 2)

/-- The fields of an H16 word (02 R35). -/
def HF.ofWord (w : BitVec 16) : HF where
  b     := w.extractLsb' 11 5
  d     := w.extractLsb' 6 5
  chain := w.getLsbD 1

/-- op4 of an H16 word. -/
def op4Of (w : BitVec 16) : Nat := (w.extractLsb' 2 4).toNat

/-- The H16 word of a cell and its fields. -/
def HF.toWord (op4 : Nat) (h : HF) : BitVec 16 :=
  h.b ++ h.d ++ BitVec.ofNat 4 op4 ++ BitVec.ofBool h.chain ++ (0#1 : BitVec 1)

/-- Bytes of the little-endian value of `n` bytes (00 R3, 02 R33). -/
def leBytes (n v : Nat) : List Byte := (List.range n).map fun i => BitVec.ofNat 8 (v / 2 ^ (8 * i))

/-- The little-endian value of bytes. -/
def leNat : List Byte → Nat
  | [] => 0
  | b :: bs => b.toNat + 256 * leNat bs

/-- The length in bytes that the first byte of an instruction gives (02 R33). -/
def lengthOf (first : Byte) : Nat :=
  if first.toNat % 2 = 0 then 2 else if first.toNat % 4 = 1 then 4 else 8

/-- Why bytes decode to no instruction. -/
inductive DecodeError where
  /-- Fewer bytes than the length of the instruction (the model's own: fetch always supplies eight). -/
  | truncated
  /-- A reserved op9 cell: the device traps ILLEGAL_ENCODING (02 R49, R54). -/
  | reservedOp9 (op9 : Nat)
  /-- A reserved op7 cell: the device traps ILLEGAL_ENCODING (02 R49, R63). -/
  | reservedOp7 (op7 : Nat)
  deriving DecidableEq, Repr

/-- The decoder: the instruction at the head of the bytes and its length, or why there is none.
(Noncomputable only because compiled code cannot build a constructor numbered above 244; the kernel evaluates it.) -/
noncomputable def decode (bytes : List Byte) : Except DecodeError (Instr × Nat) :=
  match bytes with
  | [] => .error .truncated
  | first :: _ =>
    let len := lengthOf first
    if bytes.length < len then .error .truncated
    else
      let v := leNat (bytes.take len)
      if len = 2 then
        let w := BitVec.ofNat 16 v
        match ofH (op4Of w) (HF.ofWord w) with
        | some i => .ok (i, 2)
        | none => .error .truncated
      else if len = 4 then
        let w := BitVec.ofNat 32 v
        match ofW (op7Of w) (WF.ofWord w) with
        | some i => .ok (i, 4)
        | none => .error (.reservedOp7 (op7Of w))
      else
        let w := BitVec.ofNat 64 v
        match ofX (op9Of w) (XF.ofWord w) with
        | some i => .ok (i, 8)
        | none => .error (.reservedOp9 (op9Of w))

/-- The encoder: the bytes of an instruction, lowest address first; none for an event, which has no encoding. -/
def encode (i : Instr) : Option (List Byte) :=
  match i.shape with
  | .x op9 x => some (leBytes 8 (x.toWord op9).toNat)
  | .w op7 w => some (leBytes 4 (w.toWord op7).toNat)
  | .h op4 h => some (leBytes 2 (h.toWord op4).toNat)
  | .event => none

/-- The instruction read from a word numbered as spec/opcode_table.json numbers its bits: the little-endian bytes of the
word, with zero bytes up to the longest instruction. -/
noncomputable def decodeTableWord (nbits w : Nat) : Option Instr :=
  match decode (leBytes 8 (w % 2 ^ nbits)) with
  | .ok (i, _) => some i
  | .error _ => none

/-! ### Field values: what traps ILLEGAL_ENCODING -/

/-- Source and destination types of a conversion agree (06 R161). `toFloat`: the instruction is CVT.F. -/
def cvtOk (toFloat : Bool) (srcByte mf : Nat) : Bool :=
  let isF := srcByte / 16 % 2 = 1
  let s := srcByte % 16
  let packedSrc : Bool := isF && (s = 5 || s = 6)
  if toFloat then
    let t := mf % 16
    let packedDst : Bool := t = 5 || t = 6
    if packedDst then packedSrc || (isF && s = 0) else if packedSrc then t = 0 else true
  else !packedSrc

/-- A field's value is allowed for the row, ILLEGAL_ENCODING otherwise (02 R48, R50 to R53). -/
def FieldUse.encOk (u : FieldUse) (v : Nat) : Bool :=
  match u with
  | .zero => v = 0
  | .bits m => v &&& (255 - m) = 0
  | .mi types sat cond =>
    types.contains (v % 16) && (v / 16 % 2 = 0 || sat) && (v / 32 = 0 || (cond && v / 32 ≤ 5))
  | .mf types rnds sat => types.contains (v % 16) && rnds.contains (v / 16 % 8) && (v / 128 = 0 || sat)
  | .srcType => v < 32 && (if v / 16 = 1 then v % 16 ≤ 6 else v % 16 ≤ 7)
  | .mem => v % 8 ≤ 5
  | .smem m => v % 8 ≤ m
  | .maScope => v < 128 && v / 8 ≤ 12 && v % 8 ≤ 5
  | .maOrder => v < 128 && v / 8 ≤ 12 && v % 8 ≤ 4
  | .mo => v < 64 && 1 ≤ v / 8 && v / 8 ≤ 4 && v % 8 ≤ 5
  | _ => true

/-- The set, WS, unused-field and modifier-byte values are allowed for the row (02 R42, R44, R48, R52, R62; 06 R161). -/
def Row.encOk (r : Row) (x : XF) : Bool :=
  (match r.kind with
    | .V => x.set.toNat < 12 || x.set = 15
    | _ => x.set = 15)
    && (!x.ws || r.ws)
    && r.d.encOk x.d.toNat && r.a.encOk x.a.toNat && r.b.encOk x.b.toNat && r.c.encOk x.c.toNat
    && (match r.b, r.d with
        | .srcType, .cvtDst => cvtOk true x.b.toNat x.c.toNat
        | .srcType, _ => cvtOk false x.b.toNat x.c.toNat
        | _, _ => true)
    && (match r.c with
        | .level => x.a.toNat = 2 || x.a.toNat = 3 || x.c = 0
        | _ => true)

/-- The unused fields of a W32 form are zero (02 R48, R63). -/
def WForm.encOk (f : WForm) (w : WF) : Bool :=
  match f with
  | .bare => w.d = 0 && w.a = 0 && w.b = 0
  | .d => w.a = 0 && w.b = 0
  | .a | .p => w.d = 0 && w.b = 0
  | .da | .dp => w.b = 0
  | .land12 => w.d = 0
  | .getsr => w.a.toNat = 2 || w.a.toNat = 3 || w.b = 0
  | _ => true

/-- Operand values of a W32 form that have no X64 counterpart: a predicate of 8 to 63 in BRP, a negative LAND (02 R63). -/
def WForm.opndOk (f : WForm) (w : WF) : Bool :=
  match f with
  | .off12 _ => w.d.toNat < 8
  | .land12 => w.b.toNat < 32
  | _ => true

/-- A W32 source field as X64 numbers it: 60 to 63 are L0 to L3 (02 R37, R45). -/
def wSrc (v : BitVec 6) : BitVec 8 := if v.toNat < 60 then v.setWidth 8 else BitVec.ofNat 8 (v.toNat + 180)

/-- A W32 destination field as X64 numbers it: 63 writes no register, 60 to 62 name none (02 R37). -/
def wDst (v : BitVec 6) : BitVec 8 := if v.toNat < 60 then v.setWidth 8 else if v = 63 then 248 else 247

/-- The X64 fields with the 24-bit immediate spread over a, b and c (02 R39). -/
def XF.withImm (x : XF) (i : BitVec 24) : XF :=
  { x with a := i.extractLsb' 0 8, b := i.extractLsb' 8 8, c := i.extractLsb' 16 8 }

/-- The 24-bit immediate. -/
def XF.imm24 (x : XF) : BitVec 24 := x.c ++ x.b ++ x.a

/-- The X64 fields that a W32 instruction abbreviates (02 R37, R44, R63); `c` is the cell's fixed modifier byte. -/
def WForm.toX (f : WForm) (c : Nat) (w : WF) : XF :=
  let base : XF := ⟨0, 0, 0, 0, false, 15, 0, w.dist.setWidth 3, false⟩
  let regD : XF := { base with d := wDst w.d, ws := w.d = 63 }
  match f with
  | .bare => base
  | .off18 => base.withImm ((w.b ++ w.a ++ w.d).signExtend 24)
  | .off12 mode => { base with d := BitVec.ofNat 8 (w.d.toNat + 8 * mode) }.withImm ((w.b ++ w.a).signExtend 24)
  | .d => regD
  | .a => { base with a := wSrc w.a }
  | .p => { base with a := w.a.setWidth 8 }
  | .getsr => { regD with a := w.a.setWidth 8, c := w.b.setWidth 8 }
  | .dab => { regD with a := wSrc w.a, b := wSrc w.b, c := BitVec.ofNat 8 c }
  | .da => { regD with a := wSrc w.a, c := BitVec.ofNat 8 c }
  | .dak => { regD with a := wSrc w.a, c := w.b.setWidth 8 }
  | .pab => { base with d := w.d.setWidth 8, a := wSrc w.a, b := wSrc w.b, c := BitVec.ofNat 8 c }
  | .dp => { regD with a := w.a.setWidth 8 }
  | .imm12 => regD.withImm ((w.b ++ w.a).signExtend 24)
  | .land12 => base.withImm ((w.b ++ w.a).signExtend 24)

/-- An H16 source field as X64 numbers it: 28 to 31 are L0 to L3 (02 R35). -/
def hSrc (v : BitVec 5) : BitVec 8 := if v.toNat < 28 then v.setWidth 8 else BitVec.ofNat 8 (v.toNat + 212)

/-- The X64 fields that an H16 instruction abbreviates (02 R35, R36). MOV takes its source from b. -/
def HF.toX (op4 : Nat) (c : Nat) (h : HF) : XF :=
  { d := h.d.setWidth 8, a := if op4 = 0 then hSrc h.b else h.d.setWidth 8, b := if op4 = 0 then 0 else hSrc h.b
    c := BitVec.ofNat 8 c, ws := false, set := 15, wait := 0, dist := 0, chain := h.chain }

/-- An instruction as issue sees it: its op9 row, its X64 fields, its length in bytes, whether its own format's field
values are allowed, and for W32 the index into the wait-mask table. -/
structure View where
  op9     : Nat
  x       : XF
  len     : Nat
  encOk   : Bool
  opndOk  : Bool
  waitIdx : Option Nat
  deriving DecidableEq, Repr

/-- The view of an X64 instruction. -/
def viewX (op9 : Nat) (x : XF) : View := ⟨op9, x, 8, (rowOf op9).encOk x, true, none⟩

/-- The view of a W32 instruction. -/
def viewW (op9 : Nat) (f : WForm) (c : Nat) (w : WF) : View :=
  ⟨op9, f.toX c w, 4, f.encOk w, f.opndOk w, some w.wait.toNat⟩

/-- The view of an H16 instruction: no field value is refused (02 R35). -/
def viewH (op4 op9 c : Nat) (h : HF) : View := ⟨op9, h.toX op4 c, 2, true, true, none⟩

/-- The form, X64 cell and fixed modifier byte of each W32 cell (02 R63). -/
def wCell (op7 : Nat) : Option (Nat × WForm × Nat) :=
  match op7 with
  | 0x00 => some (0x000, .bare, 0x00)
  | 0x01 => some (0x001, .off18, 0x00)
  | 0x02 => some (0x003, .off18, 0x00)
  | 0x03 => some (0x002, (.off12 0), 0x00)
  | 0x04 => some (0x002, (.off12 2), 0x00)
  | 0x05 => some (0x014, .bare, 0x00)
  | 0x06 => some (0x012, .bare, 0x00)
  | 0x07 => some (0x013, .bare, 0x00)
  | 0x08 => some (0x040, .dab, 0x00)
  | 0x09 => some (0x041, .dab, 0x00)
  | 0x0A => some (0x042, .dab, 0x00)
  | 0x0B => some (0x043, .dab, 0x00)
  | 0x0C => some (0x043, .dab, 0x01)
  | 0x0D => some (0x047, .dab, 0x00)
  | 0x0E => some (0x048, .dab, 0x00)
  | 0x0F => some (0x047, .dab, 0x01)
  | 0x10 => some (0x048, .dab, 0x01)
  | 0x11 => some (0x040, .dab, 0x10)
  | 0x12 => some (0x041, .dab, 0x10)
  | 0x13 => some (0x049, .da, 0x00)
  | 0x14 => some (0x04A, .da, 0x00)
  | 0x18 => some (0x050, .dab, 0x01)
  | 0x19 => some (0x051, .dab, 0x01)
  | 0x1A => some (0x052, .dab, 0x01)
  | 0x1B => some (0x053, .dab, 0x01)
  | 0x1C => some (0x054, .da, 0x01)
  | 0x1D => some (0x055, .dab, 0x01)
  | 0x1E => some (0x056, .dab, 0x01)
  | 0x1F => some (0x057, .dab, 0x00)
  | 0x20 => some (0x058, .dab, 0x01)
  | 0x21 => some (0x068, .dak, 0x00)
  | 0x22 => some (0x069, .dak, 0x00)
  | 0x23 => some (0x06A, .dak, 0x00)
  | 0x24 => some (0x06B, .dak, 0x00)
  | 0x25 => some (0x059, .da, 0x01)
  | 0x26 => some (0x05A, .da, 0x01)
  | 0x27 => some (0x05B, .da, 0x01)
  | 0x28 => some (0x060, .pab, 0x00)
  | 0x29 => some (0x060, .pab, 0x20)
  | 0x2A => some (0x060, .pab, 0x40)
  | 0x2B => some (0x060, .pab, 0x60)
  | 0x2C => some (0x060, .pab, 0x41)
  | 0x2D => some (0x060, .pab, 0x61)
  | 0x30 => some (0x062, .da, 0x01)
  | 0x31 => some (0x063, .imm12, 0x00)
  | 0x32 => some (0x008, .d, 0x00)
  | 0x33 => some (0x009, .a, 0x00)
  | 0x34 => some (0x00A, .p, 0x00)
  | 0x35 => some (0x00B, .p, 0x00)
  | 0x36 => some (0x015, .getsr, 0x00)
  | 0x38 => some (0x080, .dab, 0x00)
  | 0x39 => some (0x081, .dab, 0x00)
  | 0x3A => some (0x082, .dab, 0x00)
  | 0x3B => some (0x087, .dab, 0x00)
  | 0x3C => some (0x088, .dab, 0x00)
  | 0x40 => some (0x098, .dab, 0x05)
  | 0x41 => some (0x099, .dab, 0x05)
  | 0x42 => some (0x098, .dab, 0x06)
  | 0x43 => some (0x099, .dab, 0x06)
  | 0x48 => some (0x0C0, .dab, 0x00)
  | 0x49 => some (0x0C1, .dak, 0x00)
  | 0x4A => some (0x0C2, .dak, 0x00)
  | 0x4B => some (0x0C3, .dak, 0x00)
  | 0x4C => some (0x0CA, .dp, 0x00)
  | 0x50 => some (0x183, .land12, 0x00)
  | _ => none

/-- The X64 cell and modifier byte of each H16 cell (02 R36). -/
def hCell (op4 : Nat) : Nat × Nat :=
  match op4 with
  | 0x0 => (0x062, 1)
  | 0x1 => (0x040, 0)
  | 0x2 => (0x041, 0)
  | 0x3 => (0x050, 1)
  | 0x4 => (0x051, 1)
  | 0x5 => (0x052, 1)
  | 0x6 => (0x055, 1)
  | 0x7 => (0x056, 1)
  | 0x8 => (0x057, 0)
  | 0x9 => (0x047, 0)
  | 0xA => (0x048, 0)
  | 0xB => (0x080, 0)
  | 0xC => (0x081, 0)
  | 0xD => (0x082, 0)
  | 0xE => (0x087, 0)
  | 0xF => (0x088, 0)
  | _ => (0x000, 0)

/-- The view of a fetched instruction; none for an event. -/
def Instr.view (i : Instr) : Option View :=
  match i.shape with
  | .x op9 x => some (viewX op9 x)
  | .w op7 w => (wCell op7).map fun p => viewW p.1 p.2.1 p.2.2 w
  | .h op4 h => some (viewH op4 (hCell op4).1 (hCell op4).2 h)
  | .event => none

end Sys2Proof
end

