-- ==== Sys2Proof/WellFormed.lean ====
section
/-!
DEFINITION. Well-formed instructions: those whose set, WS, unused-field and modifier-byte values the device allows
(02 R42, R44, R48 to R53), and events whose arguments lie in the ranges the manual numbers.
Register and predicate fields are judged at issue (02 R45 to R47), because they depend on the running variant.
-/

namespace Sys2Proof

/-- The arguments of an event name owners, queues, partitions, links, galleries and vectors that exist. -/
def Instr.eventOk : Instr → Bool
  | .admission vd q | .hostPacketLaunch vd q | .hostPacketLaunchi vd q | .hostPacketSignal vd q
  | .hostPacketBadOp vd q => vd < 384 && q < 8
  | .qtailDoorbell vd q _ | .qctlWrite vd q _ => vd < 384 && q < 8
  | .balWrite vd n _ => vd < 384 && n < 64
  | .msixVectorUnmask vd v => vd < 384 && v < 16
  | .pctlApply p | .pctlTeardown p | .sliceEnd p | .sliceStart p | .wayAllocation p => p < 16
  | .clockStepSample p _ => p < 16
  | .linkTraining n _ | .linkFailure n => n < 12
  | .thermalHold g _ | .thermalTrip g => g < 4
  | .copyStart core | .matrixResumeReload core => core < 288
  | .doeRequest bytes => bytes.length ≤ 1024
  | _ => true

/-- Well-formedness, decidable. -/
def Instr.wf (i : Instr) : Bool :=
  match i.view with
  | some v => v.encOk && v.opndOk
  | none => i.eventOk

end Sys2Proof
end

