-- ==== Sys2Proof/Machine/State.lean ====
section
/-!
DEFINITION. The state of the machine as plain data: everything the manual gives it, and the model's own schedule.
INVENTORY.md lists each piece with its rule; the operations over it are in Ops.lean.
-/

namespace Sys2Proof.Machine

/-! ### Registers -/

/-- The class of a register under the running variant's map, coded 0 to 3 in 14 R304 (04 R110). -/
inductive ShapeClass where
  | absent | uniform | affine | general
  deriving DecidableEq, Repr

/-- A register as its class stores it (04 R110). -/
inductive RegVal where
  | uniform (u : Word)
  | affine (base stride : Word)
  | general (row : Lanes)
  deriving DecidableEq, Repr

/-- What a flight is: a lane-mode flight, the same collapsed onto a lane, or a service flight (15 R326, R331). -/
inductive Role where
  | lane
  | collapsed (lane : Nat)
  | walk
  | fault (level : Nat)
  deriving DecidableEq, Repr

/-- The KIND of an access in walk and fault records, in the order of its codes 0 to 9 (15 R340). -/
inductive AccessKind where
  | load | store | atomic | fetch | copyRead | copyWrite | matrixRead | stashFill | record | matrixWrite
  deriving DecidableEq, Repr

/-- What a blocked flight waits for (03 R76). A blocked instruction runs again when its wait is over. -/
inductive Block where
  | none
  /-- WAITF (03 R105). -/
  | flags
  /-- The drain of EXIT (03 R106). -/
  | exit
  /-- WAITB, or the wait of BAR, for a generation at a level (03 R108). -/
  | barrier (level gen : Nat)
  /-- ARRIVE held by a pending arrival of that generation (03 R108). -/
  | arrive (level gen : Nat)
  /-- BWAIT (11 R268). -/
  | batch (k : Nat)
  /-- FENCE, by order and scope (09 R227). -/
  | fence (order scope : Nat)
  /-- LAND with a request pending (14 R311). -/
  | land (id : Nat)
  /-- A TLB lookup below the L1 TLB holds the instruction at issue; the lane is the one that R345 reports (08 R192). -/
  | lookup (va : Nat) (kind : AccessKind) (lane : Nat)
  /-- The owner's walk holds the instruction at issue (08 R192, 15 R340). -/
  | walk (va : Nat) (kind : AccessKind) (lane : Nat)
  /-- A fault flight suspended into its handler frame (15 R348). -/
  | suspended
  deriving DecidableEq, Repr

/-- The valid writer of a latch (03 R86): the lanes that it writes, the cycle at which its result lands (R80), its result. -/
structure Writer where
  mask : Word
  due  : Nat
  vals : Lanes
  deriving DecidableEq, Repr

/-- An open chain (03 R75, R84): its head, the body step of its head, the position of its next instruction, and the valid
writer of each latch (R86). A halted flight keeps it, for CHAIN of its saved context (14 R317), until it resumes at its head. -/
structure Chain where
  isOpen   : Bool
  head     : DWord
  headStep : Nat
  pos      : Nat
  writers  : List (Option Writer)
  deriving DecidableEq, Repr

/-- What a collapsed flight's trap saved (14 R317 TRAP; 15 R334 0x08 to 0x0C). -/
structure TrapSave where
  cause : BitVec 8
  lane  : BitVec 5
  imm   : BitVec 8
  em    : Word
  tepc  : DWord
  tdpc  : DWord
  tstep : BitVec 16
  deriving DecidableEq, Repr

/-- One register write of a fixed-latency result: the lanes it writes, and the register as its class stores it (04 R111). -/
structure RegPut where
  reg    : Nat
  mask   : Word
  vals   : Lanes
  stored : RegVal
  deriving DecidableEq, Repr

/-- One predicate write: the lanes and their bits. -/
structure PredPut where
  pred : Nat
  mask : Word
  bits : Word
  deriving DecidableEq, Repr

/-- One latch write. -/
structure LatchPut where
  latch : Nat
  mask  : Word
  vals  : Lanes
  deriving DecidableEq, Repr

/-- A fixed-latency result that has not landed (03 R79, R80, R85; 05 R148): the cycle at which it lands. -/
structure Pending where
  due   : Nat
  regs  : List RegPut
  preds : List PredPut
  latch : Option LatchPut
  fstat : BitVec 6
  deriving DecidableEq, Repr

/-- A flight's state at one barrier level: its pending arrival's generation, and how many generations it has joined,
whose lowest bit is the parity of 03 R75. -/
structure BarState where
  pending : Option Nat
  gen     : Nat
  deriving DecidableEq, Repr

/-- A poison cause to raise before the flight's next issue: trap code, lane and the instruction's PC (08 R196). -/
structure PoisonTrap where
  code : BitVec 8
  lane : Nat
  pc   : DWord
  deriving DecidableEq, Repr

/-- A variable-latency result that has been produced and has not reached its registers (03 R83): the operation, the lanes, the
registers it will write, its FSTAT bits, its set flag, its PC, and the causes it raises instead of a result (08 R196); `reads`: a
load or an atomic, `acq`: an acquire (09 R227, R228). -/
structure EarlyResult where
  key    : Nat
  reads  : Bool
  acq    : Bool
  mask   : Word
  puts   : List (Nat × Lanes)
  fstat  : BitVec 6
  flag   : Option Nat
  pc     : DWord
  poison : List PoisonTrap
  deriving DecidableEq, Repr

/-- A flight (03 R75, 14 R317). -/
structure Flight where
  key       : Nat
  team      : Nat
  index     : Nat
  vd        : Nat
  core      : Nat
  quad      : Nat
  role      : Role
  pc        : DWord
  em        : Word
  preds     : List Word
  flags     : List Nat
  fstat     : BitVec 6
  regs      : List (Nat × RegVal)
  classMap  : List ShapeClass
  waitTable : List (BitVec 12)
  chain     : Chain
  /-- The active macro body and its next step (03 R93). -/
  macroStep : Option (Nat × Nat)
  bars      : List BarState
  lastIssue : Option Nat
  waitCount : Nat
  block     : Block
  /-- YIELD: the cycle from which the flight is eligible again if no other flight has issued (03 R105). -/
  yielding  : Option Nat
  halted    : Bool
  ended     : Bool
  trap      : TrapSave
  pend      : List Pending
  /-- Variable-latency results that readers may see and that have not landed (03 R83). -/
  early     : List EarlyResult
  /-- Causes to raise before the next issue, in order (08 R196). -/
  poisoned  : List PoisonTrap
  deriving DecidableEq, Repr

/-! ### Memory, caches and translation -/

/-- Bytes by address, addresses rising, no byte equal to what an unlisted address reads as (Ops.lean, Memory.wf). -/
abbrev Memory := List Host.Cell

/-- The states in which L1 and L2 hold a line; I is absence (17 R375). -/
inductive LineState where
  | Sc | S | E | M
  deriving DecidableEq, Repr

/-- The cache that holds a line: the L1 of a core or the L2 of a hall. -/
inductive CacheId where
  | l1 (core : Nat)
  | l2 (hall : Nat)
  deriving DecidableEq, Repr

/-- A line held by an L1 or an L2: the 128 bytes at 128 × line, in Sc as the data sectors of an attar code (17 R375). `dirty`
are the bytes written since it was last written back (09 R241), `bad` the poisoned ones (17 R385); `next` marks the next victim
(08 R191). -/
structure CacheLine where
  cache : CacheId
  line  : Nat
  state : LineState
  vd    : Nat
  code  : Nat
  data  : List Byte
  dirty : BitVec 128
  bad   : BitVec 128
  next  : Bool
  deriving DecidableEq, Repr

/-- A line held by the LLC (17 R367, R373): its owner tag, its code, its data sectors as encoded, its dirty and its poisoned
bytes. The list keeps each set's lines least recently used first. -/
structure LlcLine where
  line    : Nat
  vd      : Nat
  code    : Nat
  sectors : Nat
  data    : List Byte
  dirty   : BitVec 128
  bad     : BitVec 128
  deriving DecidableEq, Repr

/-- A line gathered in a core's write-combining buffer, by flight (08 R191). -/
structure WcLine where
  core   : Nat
  flight : Nat
  vd     : Nat
  line   : Nat
  bytes  : List (Nat × Byte)
  deriving DecidableEq, Repr

/-- A translation (15 R339, R360). -/
structure TlbEntry where
  vd   : Nat
  asid : Nat
  va   : Nat
  size : Nat
  pa   : Nat
  w    : Bool
  x    : Bool
  uc   : Bool
  deriving DecidableEq, Repr

/-- A buffer record, its five words (08 R181). -/
structure BufRec where
  q0 : DWord
  q1 : DWord
  q2 : DWord
  q3 : DWord
  q4 : DWord
  deriving DecidableEq, Repr

/-- A record held by a core's record cache (08 R183); `grid` is twice a grid's key, or one more than twice an owner's number
for its service table. -/
structure RecEntry where
  core   : Nat
  grid   : Nat
  num    : Nat
  record : BufRec
  deriving DecidableEq, Repr

/-! ### Outstanding operations -/

/-- What a memory operation does when it is performed (08 R193). -/
inductive MemKind where
  | ld | st | atom (op : Nat) | pref | cclean | cinv
  | lds (mode : Nat) | sts | atoms (op : Nat) | feset | feclr | ldfrag
  | stashmap | stashflush | stashdrop
  | ldp | stp
  | signal | launch
  deriving DecidableEq, Repr

/-- One lane of a memory operation: the addresses of its bytes, lowest first (physical, or scratchpad offsets); none for a
clamped lane. `scale` are the addresses of E0 and E1, `nibble` the half of a DX4 byte, `data` the operand; `uc` are the
addresses that are accessed uncached (08 R191). -/
structure LaneAcc where
  lane   : Nat
  addrs  : List Nat
  scale  : List Nat
  nibble : Nat
  data   : DWord
  data2  : Word
  uc     : List Nat
  deriving DecidableEq, Repr

/-- A memory instruction that has left issue and has not completed. -/
structure MemOp where
  key    : Nat
  flight : Nat
  kind   : MemKind
  /-- 0 relaxed, 1 acquire, 2 release, 3 both, 4 SC (02 R53). -/
  order  : Nat
  scope  : Nat
  policy : Nat
  record : BufRec
  disp   : Nat
  dst    : Nat
  mask   : Word
  lanes  : List LaneAcc
  flag   : Option Nat
  pc     : DWord
  deriving DecidableEq, Repr

/-- An instruction in a quadrant's variable-latency float unit (06 R158). -/
structure VfuOp where
  key    : Nat
  flight : Nat
  op9    : Nat
  mode   : Nat
  dst    : Nat
  mask   : Word
  a      : Lanes
  b      : Lanes
  flag   : Option Nat
  pc     : DWord
  deriving DecidableEq, Repr

/-- The other variable-latency instructions of the launch, owner and system classes, completed as their entries say. -/
inductive SysKind where
  /-- Waits for the flight's earlier operations of those keys (17 R388). -/
  | cntr (k : Nat) (after : List Nat)
  | qosq (k : Nat) | errq (k : Nat)
  | wqtake | fqtake
  | rwalk (ptr addr : DWord)
  /-- Waits for the accesses that translated through a dropped entry (15 R361). -/
  | tlbkill (after : List Nat)
  | tlbput
  /-- Waits for the flight's earlier accesses (15 R362). -/
  | tresume (token : Nat) (after : List Nat)
  | ctxsv | ctxld
  /-- Falls at the record's admission (14 R320). -/
  | launch (record : Nat)
  deriving DecidableEq, Repr

/-- An outstanding instruction of those classes. -/
structure SysOp where
  key    : Nat
  flight : Nat
  kind   : SysKind
  dst    : Nat
  mask   : Word
  flag   : Option Nat
  pc     : DWord
  deriving DecidableEq, Repr

/-- One side of a copy after its locator and record are read (11 R252). -/
structure Side where
  /-- 0 global, 1 scratchpad, 2 peer, 3 a kind-3 map (a SPACE 0 locator of a kind-3 record), 4 a FILL pattern. -/
  space  : Nat
  record : BufRec
  off    : Nat
  enc    : Nat
  rnd    : Nat
  sat    : Bool
  pitch  : Nat
  link   : Nat
  deriving DecidableEq, Repr

/-- The copy forms, op9 0x140 to 0x149 (11 R264). -/
inductive CopyForm where
  | cpy | cpy2 | cpyt | cpyx | cpyz | cpyg | cpys | cpym | fill | cpyp
  deriving DecidableEq, Repr

/-- Where a copy stands in its engine (11 R249, R257, R267). -/
inductive CopyState where
  | queued | active
  /-- Waiting for a walk. -/
  | walking
  /-- Paused on a fault whose record is still to be posted (15 R344, R345). -/
  | faulted
  /-- Paused on the fault record of that token (15 R345). -/
  | paused (token : Nat)
  /-- Its writes are done; a CPYM's follow-on is still to be passed on. -/
  | written
  /-- The follow-on command has been passed on. -/
  | following (cmd : Nat)
  | done
  deriving DecidableEq, Repr

/-- A copy (11 R248 to R268). `c0`, `c1` are Vc and Vc+1; `lanes` the per-lane offsets of CPYG and CPYS; `next` the next
unit to move; `failAt` the position, code and OFFSET of the earliest failure (R251); `block` and `srcAt`, `outAt` the
distiller's progress (R260). -/
structure Copy where
  key    : Nat
  team   : Nat
  flight : Nat
  core   : Nat
  form   : CopyForm
  dst    : Side
  src    : Side
  c0     : Word
  c1     : Word
  table  : BufRec
  lanes  : List (Nat × Nat)
  dreg   : Nat
  flag   : Option Nat
  batch  : Option Nat
  pc     : DWord
  state  : CopyState
  next   : Nat
  failAt : Option (Nat × Nat × Nat)
  fstat  : BitVec 6
  block  : Nat
  srcAt  : Nat
  outAt  : Nat
  /-- Source bytes the engine has placed in the distiller's buffer, and those taken from it (13 R291). -/
  placed : Nat
  taken  : Nat
  /-- The block that the distiller takes, where its header starts, and where the bytes that it skips end, 0 before (13 R291). -/
  tkBlock : Nat
  tkAt   : Nat
  tkEnd  : Nat
  /-- Source bytes the engine has read for it; those from the current block's header on, and the 64-byte source blocks that
  arrived poisoned; code-length tables read from the table record, by block (11 R261). -/
  got    : Nat
  buf    : List Byte
  bad    : List Nat
  tabs   : List (Nat × List Byte)
  /-- Raw bytes of a DX block of the output that earlier blocks have not filled, and the raw bytes before them (05 R142). -/
  carry  : List Byte
  rawAt  : Nat
  deriving DecidableEq, Repr

/-- Matrix commands (12 R284 to R289). -/
inductive MxKind where
  | mwld | mwldL2 | mma | mmaByp | mdrain | mzero | maccld | maccst
  deriving DecidableEq, Repr

/-- A command in the sequencer queue of its team (12 R273, R277). -/
structure MxCmd where
  key     : Nat
  team    : Nat
  flight  : Nat
  kind    : MxKind
  bank    : Nat
  tile    : Nat
  srcTile : Nat
  row     : Nat
  srow    : Nat
  rows    : Nat
  record  : BufRec
  off     : Nat
  scale   : Word
  pages   : List (Nat × Nat × Bool)
  flag    : Option Nat
  started : Bool
  next    : Nat
  paused  : Bool
  fstat   : BitVec 6
  poison  : Option (BitVec 8)
  copy    : Option Nat
  lane    : Nat
  pc      : DWord
  /-- The cycle in which it entered (12 R273). -/
  cycle   : Nat
  deriving DecidableEq, Repr

/-- Where a bank's weights come from: the form, the record as read at the load's issue, off, and the pages translated then
(12 R277, R280). -/
structure BankSrc where
  isL2   : Bool
  record : BufRec
  off    : Nat
  pages  : List (Nat × Nat × Bool)
  deriving DecidableEq, Repr

/-- A weight bank: the declared format (MSTAT's codes, 12 R290) and source that the last load's issue set, what it holds
(validity, poison cause, source), the weight codes (element (n, k) at n × K + k) and the scale bytes. -/
structure Bank where
  fmt    : Nat
  desc   : BankSrc
  valid  : Bool
  poison : Option (BitVec 8)
  held   : BankSrc
  codes  : List Nat
  scales : List Nat
  deriving DecidableEq, Repr

/-- A core's array and accumulator store (12 R269): the holding team, tile rows that are not all zero, poisoned rows. -/
structure MxCore where
  core   : Nat
  team   : Option Nat
  rows   : List (Nat × List Word)
  poison : List (Nat × BitVec 8)
  w0     : Bank
  w1     : Bank
  /-- Banks to reload before the sequencer goes on (12 R277). -/
  reload : List Nat
  deriving DecidableEq, Repr

/-- A line pinned in a hall's L2 for a command (12 R280). -/
structure Pin where
  hall : Nat
  line : Nat
  cmd  : Nat
  deriving DecidableEq, Repr

/-! ### Teams and grids -/

/-- The state of a scratchpad granule (08 R199; coded 0 to 3 in 14 R316). -/
inductive Granule where
  | empty | full | poisonedError | poisonedChecksum
  deriving DecidableEq, Repr

/-- A stash window (08 R202): its record, scratchpad range, global base, filled and dirty lines by index. -/
structure Window where
  num    : Nat
  off    : Nat
  len    : Nat
  base   : Nat
  filled : List (Nat × Nat)
  dirty  : List Nat
  deriving DecidableEq, Repr

/-- A pending switch request (14 R310, R312): target, direction, unhalted cycles since the first flight arrived. -/
structure SwitchReq where
  target : Nat
  up     : Bool
  waited : Option Nat
  deriving DecidableEq, Repr

/-- Where a team is (14; 15 R344; 17 R382). -/
inductive TeamState where
  | resident
  /-- Saved in a swap frame by forward progress (14 R313). -/
  | swapped
  /-- Saved in frame `frame` on a fault, awaiting TRESUME (15 R344). -/
  | faulted (frame : Nat)
  /-- Held in place on a fault (15 R344). -/
  | held
  /-- TRESUME has made it ready; its frame still holds it (15 R362). -/
  | ready (frame : Nat)
  /-- Parked by CTXSV at a physical address (14 R324), from its swap frame (0), a fault frame (1), or a fault frame after
TRESUME (2). -/
  | parked (pa : Nat) (was : Nat)
  /-- Some of its parts are spilt (17 R382). -/
  | spilt
  | retired
  deriving DecidableEq, Repr

/-- A part that a claim has taken from a halted team (17 R382): a register of a flight, scratchpad granules from the
first, or the array with the team's tiles. -/
inductive SpillPart where
  | reg (flight reg : Nat) | granules (first n : Nat) | array
  deriving DecidableEq, Repr

/-- A team (01 R17, 14 R298 to R317). -/
structure Team where
  key       : Nat
  grid      : Nat
  index     : Nat
  vd        : Nat
  core      : Nat
  variant   : Nat
  state     : TeamState
  handle    : Nat
  base      : Nat
  scratch   : Memory
  granules  : List (Nat × Granule)
  windows   : List Window
  batches   : List Nat
  request   : Option SwitchReq
  issueTime : Nat
  blockedFor : Nat
  spills    : List SpillPart
  /-- TOKEN sequence of its last fault record (15 R345). -/
  tokenSeq  : Nat
  /-- Its macro image as its core's control store holds it: bodies by number (03 R92). -/
  bodies    : List (Nat × List DWord)
  reason    : Nat
  /-- Its array and accumulator state while it is off its core (12 R277; 14 R316). -/
  mx        : Option MxCore
  deriving DecidableEq, Repr

/-- One key of a landing entry (14 R305). -/
structure LandKey where
  num  : Nat
  loc  : Nat
  reg  : Nat
  soff : Nat
  slen : Nat
  deriving DecidableEq, Repr

/-- A landing entry (14 R305). -/
structure Landing where
  id   : Nat
  pc   : DWord
  keys : List LandKey
  deriving DecidableEq, Repr

/-- A variant as its descriptor gives it (14 R304), with its macro bodies as last read (03 R92). -/
structure Variant where
  num      : Nat
  code     : DWord
  classMap : List ShapeClass
  rows     : Nat
  flights  : Nat
  isMatrix : Bool
  scratch  : Nat
  wcet     : Nat
  waitTab  : List (BitVec 12)
  macros   : Nat
  mused    : Nat
  mlen     : Nat
  bodies   : List (Nat × List DWord)
  landings : List Landing
  deriving DecidableEq, Repr

/-- A region and an edge (14 R296). -/
structure Edge where
  sig       : DWord
  regions   : List (Nat × Nat)
  satisfied : Bool
  deriving DecidableEq, Repr

/-- Where a grid stands. -/
inductive GridState where
  | admitted | dispatched | retired
  deriving DecidableEq, Repr

/-- Who enqueued a record: a flight, whose instruction's flag falls at admission, or a host packet (14 R320, 19 R400). -/
inductive Source where
  | flight
  | host (queue tag : Nat) (signal : Bool)
  deriving DecidableEq, Repr

/-- A record in a launch queue, awaiting admission (14 R299). -/
structure Queued where
  key    : Nat
  queue  : Nat
  va     : DWord
  pa     : Nat
  isI    : Bool
  source : Source
  deriving DecidableEq, Repr

/-- A place that a class-1 grid has reserved: the quadrants of its flights and its scratchpad base (14 R301). -/
structure Seat where
  core  : Nat
  quads : List Nat
  base  : Nat
  deriving DecidableEq, Repr

/-- A grid (14 R293 to R302). -/
structure Grid where
  key      : Nat
  vd       : Nat
  queue    : Nat
  va       : DWord
  /-- Where the record's first page, and the next one if it reaches it, are mapped. -/
  pa       : Nat
  pa2      : Option Nat
  isI      : Bool
  source   : Source
  kernel   : DWord
  state    : GridState
  /-- Domain and extent of levels 1 upward (14 R294). -/
  levels   : List (Nat × Nat)
  producer : Nat
  cls      : Nat
  varmask  : Nat
  variants : List Variant
  buftab   : DWord
  asid     : Nat
  edgesIn  : List Edge
  edgesOut : List Edge
  countVa  : DWord
  countMax : Nat
  swap     : List Nat
  frameSz  : Nat
  teams    : Nat
  next     : Nat
  bound    : Nat
  accepted : Nat
  /-- Cycle of the dispatch point (14 R297, R302). -/
  started  : Nat
  vstar    : Option Nat
  /-- What it has reserved, units one after another (14 R301). -/
  reserved : List Seat
  overrun  : Bool
  clamped  : Bool
  sigfail  : Bool
  deriving DecidableEq, Repr

/-- A barrier of one unit at one level (03 R108): completed generations, and the flights that have arrived at the current
one, each with the operations that must complete before its arrival counts (09 R229). -/
structure Barrier where
  grid    : Nat
  level   : Nat
  unit    : Nat
  gen     : Nat
  arrived : List (Nat × List Nat)
  deriving DecidableEq, Repr

/-! ### Owners -/

/-- Who waits for a walk request (15 R340, R344). -/
inductive Waiter where
  | flight (key : Nat)
  | copy (key : Nat)
  | admission (queue : Nat)
  | grid (key : Nat)
  /-- A core's weight banks at a resume (12 R277). -/
  | reload (core : Nat)
  | packet (queue : Nat)
  | peer (b : PeerBlock)
  deriving DecidableEq, Repr

/-- A walk request (15 R340). -/
structure WalkReq where
  slot    : Nat
  seq     : Nat
  va      : Nat
  asid    : Nat
  kind    : AccessKind
  bank    : Nat
  /-- Each with the KIND and the address of its access. -/
  waiters : List (Waiter × AccessKind × Nat)
  taken   : Bool
  stale   : Bool
  deriving DecidableEq, Repr

/-- A fault record posted or to be posted (15 R345). -/
structure FaultRec where
  va    : Nat
  kind  : AccessKind
  level : Nat
  state : Nat
  cause : Nat
  token : Nat
  frame : Nat
  pc    : DWord
  asid  : Nat
  lane  : Nat
  seq   : Nat
  deriving DecidableEq, Repr

/-- One host launch queue (19 R397 to R401). -/
structure HostQueue where
  qbase   : DWord
  cqbase  : DWord
  logn    : Nat
  en      : Bool
  qhead   : Nat
  qtail   : Nat
  cqhead  : Nat
  cqwrite : Nat
  phase   : Bool
  /-- Rings as read when EN rose. -/
  ring    : Nat
  cring   : Nat
  /-- Packets read and not yet acted on: their 64 bytes. -/
  packets : List (List Byte)
  /-- Packets read whose completion entry is not yet written. -/
  pending : Nat
  /-- LOGN as read when EN rose. -/
  elogn   : Nat
  /-- Completion entries written that the host has not consumed. -/
  entries : Nat
  deriving DecidableEq, Repr

/-- A record of the owner's error log (17 R386). -/
structure ErrorRec where
  struct : Nat
  kind   : Nat
  unit   : Nat
  addr   : Nat
  deriving DecidableEq, Repr

/-- A held access to an entry in transfer (19 R407). -/
inductive Held where
  | op (key : Nat)
  /-- An access of the device's own for a waiter; its event comes again. -/
  | sys (w : Waiter)
  | copy (key : Nat)
  | host (acc : HostAccess)
  | bar2 (acc : HostAccess)
  /-- A record that the device posts for an owner. -/
  | post (vd addr : Nat) (bytes : List Byte)
  deriving DecidableEq, Repr

/-- A region of 2 MiB, or an entry of 4 KiB of a split region (19 R406): ownership (true is P, the processor), the
transfer that runs (toP, remaining back-invalidate lines), held accesses in arrival order, and accesses owed service
before a transfer back (R408). -/
structure XferEntry where
  offset   : Nat
  len      : Nat
  isP      : Bool
  transfer : Option (Bool × List Nat)
  request  : Bool
  held     : List Held
  owed     : List Held
  deriving DecidableEq, Repr

/-- A shadow stack of one owner and sampled set, most recent first: lines and sector counts (17 R377). -/
structure Shadow where
  set   : Nat
  stack : List (Nat × Nat)
  deriving DecidableEq, Repr

/-- The fields of a virtual device's configuration block that are read at owner start, as the host has written them (19 R402). -/
structure PfConfig where
  part        : Nat
  slot        : Nat
  port        : Nat
  enable      : Bool
  vbase       : DWord
  vlimit      : DWord
  spillBase   : DWord
  spillStride : DWord
  expose      : List (DWord × DWord)
  deriving DecidableEq, Repr

/-- An owner, a virtual device (15 R334; 17 R376 to R390; 19 R397, R402). -/
structure Owner where
  vd        : Nat
  -- PF configuration block (19 R402)
  part      : Nat
  slot      : Nat
  port      : Nat
  enable    : Bool
  vbase     : DWord
  vlimit    : DWord
  slice     : Nat
  minw      : Nat
  maxw      : Nat
  /-- The fields that are read at owner start, as written; while STATE is 0 they are the ones above and below. -/
  hostCfg   : PfConfig
  /-- SLICE, MINW and MAXW as the host has written them; they take effect at the next slice or allocation period. -/
  hostSlice : Nat
  hostMinw  : Nat
  hostMaxw  : Nat
  spillBase : DWord
  spillStride : DWord
  hvState   : Nat
  opBusy    : Bool
  opResult  : Nat
  migAddr   : DWord
  migSize   : DWord
  dropInt   : DWord
  xferCnt   : DWord
  expose    : List (DWord × DWord)
  pairs     : List Word
  bal       : List DWord
  /-- BUSY of a balustrade write: the operations that the drop waits for (19 R404). -/
  balDropping : Option (List Nat)
  /-- Balustrade writes that wait for BUSY to clear (19 R404). -/
  balWaiting : List (Nat × DWord)
  -- owner registers (15 R334)
  tvec      : DWord
  wq        : DWord
  fq        : DWord
  fpool     : DWord
  tree      : DWord
  asid      : Word
  sbuf      : DWord
  held      : Nat
  /-- NFRAMES as read at owner start or at the last write of OWN.FPOOL (15 R346). -/
  nframes   : Nat
  -- VF registers (19 R397)
  state     : Nat
  reason    : Nat
  vdevt     : BitVec 4
  queues    : List HostQueue
  xferBusy  : Bool
  xferErr   : Bool
  xferP     : Bool
  xferSplit : Bool
  /-- An XFERREQ, its op and offset, that waits for its entry while BUSY is 1 (19 R406). -/
  xferPend  : Option (Nat × Nat)
  msixMask  : BitVec 16
  pba       : BitVec 16
  /-- Address, data and control words of the MSI-X table, 256 bytes. -/
  msixTable : List Byte
  entries   : List XferEntry
  -- queues of system work
  launchQ   : List Queued
  walks     : List WalkReq
  walkHead  : Nat
  walkTail  : Nat
  walkSeq   : Nat
  /-- Misses that wait because 4,096 requests are outstanding or the ring is full (15 R340). -/
  misses    : List (Nat × Nat × AccessKind × Waiter)
  /-- Pages whose walk ended missing, or without the attribute, for a waiter that is not a flight or a copy. -/
  missed    : List (Waiter × Nat)
  faultRing : List FaultRec
  faultHead : Nat
  faultTail : Nat
  /-- Records waiting for a slot of the level-0 ring, with their teams or copies already held (15 R344). -/
  faultWait : List (Option Nat × FaultRec)
  level1    : Option FaultRec
  level2    : Option FaultRec
  /-- Tokens of the records on which fault flights 0 and 1 are suspended (15 R348). -/
  suspTokens : List Nat
  faultSeq  : Nat
  /-- Frames of the pool in use (15 R346). -/
  frames    : List Nat
  progress  : Nat
  -- counters and errors (17 R383, R386)
  counters  : List DWord
  floor     : Nat
  errors    : List ErrorRec
  errDropped : Nat
  shadows   : List Shadow
  misscurve : List Nat
  deriving DecidableEq, Repr

/-- What the device keeps of an owner that SAVE has written out at an address, beyond the image's own bytes: its grids, its
teams, and their work that waits (19 R410; the model's own, log 20). -/
structure Migration where
  addr     : Nat
  owner    : Owner
  grids    : List Grid
  teams    : List Team
  flights  : List Flight
  barriers : List Barrier
  memOps   : List MemOp
  sysOps   : List SysOp
  copies   : List Copy
  mxq      : List MxCmd
  deriving DecidableEq, Repr

/-! ### Partitions, links, management -/

/-- A partition (01 R19; 21 R424, R426). -/
structure Partition where
  num     : Nat
  phalls  : Word
  pchgrp  : Word
  psvc    : Word
  parc    : Word
  ppower  : Word
  patq    : Word
  pt2     : Word
  active  : Bool
  result  : Nat
  /-- The resources as APPLY took them. -/
  halls   : List Nat
  groups  : List Nat
  svc     : List Nat
  arc     : List Nat
  atq     : Nat
  t2      : Nat × Nat
  power   : Nat
  cycle   : Nat
  clock   : Nat
  /-- Samples in a row below 95 % of the share (21 R426). -/
  below   : Nat
  /-- Held one step lower by heat (21 R427). -/
  hot     : Bool
  /-- The owner slot whose slice runs, none between slices, and the cycles left (17 R379). -/
  turn    : Option Nat
  lastTurn : Nat
  left    : Nat
  llcAccesses : Nat
  dead    : Bool
  deriving DecidableEq, Repr

/-- An arcade link (19 R411); `far` are the PAIR registers that the far device's owners have for it. -/
structure Link where
  num     : Nat
  up      : Bool
  peer    : BitVec 12
  far     : List (Nat × Word)
  failed  : Bool
  deriving DecidableEq, Repr

/-- What the HSA is doing (21 R416). -/
inductive HsaOp where
  | none | hash | verify | extend
  deriving DecidableEq, Repr

/-- The management core and its blocks (21 R414 to R423, R430). -/
structure Mgmt where
  rom        : Memory
  sram       : Memory
  flash      : Memory
  fuseKey    : List (List Byte)
  revoke     : Word
  minver     : Word
  bootReason : Word
  rstreq     : Word
  minimal    : Bool
  wdog       : Nat
  bootok     : Bool
  rxlen      : Word
  rx         : List Byte
  tx         : List Byte
  sent       : List (List Byte)
  hsaSrc     : DWord
  hsaLen     : DWord
  hsaKey     : DWord
  hsaIdx     : Word
  hsaBusy    : HsaOp
  hsaPass    : Bool
  hsaErr     : Nat
  dig        : List Byte
  meas       : List (List Byte)
  flcAddr    : Word
  flcData    : Word
  flcBusy    : Bool
  flcErr     : Bool
  pc         : DWord
  xregs      : List DWord
  mstatus    : DWord
  mtvec      : DWord
  mepc       : DWord
  mcause     : DWord
  mtval      : DWord
  halted     : Bool
  /-- The first stage has run since the last reset. -/
  started    : Bool
  powered    : Bool
  arcid      : Word
  trip       : Bool
  temp       : List Nat
  power      : Nat
  deriving DecidableEq, Repr

/-- What the host has been sent or told. -/
inductive HostEvent where
  /-- An MSI-X message of a virtual device's vector (19 R409). -/
  | msix (vd vector : Nat)
  /-- The data a host read returned (19 R405, R407). -/
  | readData (vd : Nat) (bytes : List Byte)
  /-- What a read of a device register returned (19 R397, R402). -/
  | regData (value : Nat)
  /-- A virtual function's answer to a configuration read on a port, and to any other request on the port that VDCFG.PORT does
  not select (19 R395). -/
  | config (port vd : Nat)
  | unsupported (port vd : Nat)
  /-- A stall event at the physical function (15 R351). -/
  | stall (vd : Nat)
  /-- An access to an unmapped physical address (21 R425). -/
  | unmapped (addr : Nat)
  /-- An error reported through the physical function alone, or with its blast set (17 R385, R386). -/
  | error (struct unit addr : Nat)
  /-- A CXL.mem request that reaches no exposure (19 R402). -/
  | noTarget (decoder : Nat)
  /-- A block of a CPYP sent to the peer on a link, by address in the peer owner's space (11 R266). -/
  | peerBlock (link vd : Nat) (bytes : List (Nat × Byte))
  /-- The answer to a block that a peer has sent: performed, or refused (19 R411). -/
  | peerReply (link vd : Nat) (ok : Bool)
  deriving DecidableEq, Repr

/-- A quadrant of a core: its latches, the team and flight it last issued, its flights in placement order, oldest first,
and the cycle of its last turn (03 R75, R77, R87). -/
structure Quad where
  num       : Nat
  latches   : List Lanes
  lastTeam  : Nat
  order     : List Nat
  turnCycle : Option Nat
  deriving DecidableEq, Repr

/-- One turn of the schedule: a quadrant's cycle, an instruction of the management core, an event, an event whose results
readers see before they land, the landing of such a result of a flight (03 R83), the end of an owner's reset (19 R403), or a
millisecond of the package with its average power (21 R415, R423). -/
inductive Turn where
  | quad (num : Nat)
  | mgmt
  | event (i : Instr)
  | early (i : Instr)
  | settle (flight n : Nat)
  | resetDone (vd : Nat)
  | millisecond (watts : Nat)
  deriving DecidableEq, Repr

/-- A range of a core's scratchpad as the last team that held it left it, of whatever owner (08 R197): data by offset in the
core's scratchpad. -/
structure Residue where
  core : Nat
  base : Nat
  size : Nat
  vd   : Nat
  data : List (Nat × Byte)
  deriving DecidableEq, Repr

/-- The machine. `agenda`, `focus`, `cur`, `free` and `nextKey` are the model's own (log 2, log 9). -/
structure State where
  agenda  : List Turn
  focus   : Nat
  cur     : Option Nat
  free    : Nat
  nextKey : Nat
  mem     : Memory
  poison  : List Nat
  lines   : List CacheLine
  llc     : List LlcLine
  wc      : List WcLine
  pins    : List Pin
  l1tlb   : List (Nat × TlbEntry)
  l2tlb   : List (Nat × TlbEntry)
  l3tlb   : List (Nat × TlbEntry)
  recs    : List RecEntry
  quads   : List Quad
  flights : List Flight
  memOps  : List MemOp
  vfu     : List VfuOp
  sysOps  : List SysOp
  copies  : List Copy
  /-- The copy that each core's engine served last (11 R249). -/
  engines : List (Nat × Nat)
  mxq     : List MxCmd
  mx      : List MxCore
  teams   : List Team
  /-- What teams left in the scratchpads, the latest first (08 R197). -/
  residue : List Residue
  grids   : List Grid
  barriers : List Barrier
  /-- Forwarding entries of a core: the operations whose arrivals it redirects (14 R314). -/
  forwards : List (Nat × List Nat)
  owners  : List Owner
  /-- Owners as SAVE has written them out (log 20). -/
  saved   : List Migration
  parts   : List Partition
  links   : List Link
  hdmTgt  : List Word
  t2size  : Nat
  /-- Ports in plain PCIe mode (19 R394, R396). -/
  pcie    : List Bool
  mgmt    : Mgmt
  host    : List HostEvent
  deriving DecidableEq, Repr

/-- Why a step stops with a fault. -/
inductive Fault where
  /-- exec of a fetched instruction with no current flight (raised by every fetched instruction's meaning): the device never
  executes an instruction outside a flight, so stopping is safe. -/
  | noFlight
  deriving DecidableEq, Repr

/-- Why a step is refused. -/
inductive Refusal where
  /-- The instruction has no meaning yet (raised only by an arm of exec): safe. -/
  | notModelled (mnemonic : String)
  deriving DecidableEq, Repr

/-! ### Reset -/

/-- A partition after a package reset (21 R423). The clock and cycle count are log 1. -/
def Partition.reset (p : Nat) : Partition where
  num := p
  phalls := 0
  pchgrp := 0
  psvc := 0
  parc := 0
  ppower := 0
  patq := 0
  pt2 := 0
  active := false
  result := 0
  halls := []
  groups := []
  svc := []
  arc := []
  atq := 0
  t2 := (0, 0)
  power := 0
  cycle := 0
  clock := 700
  below := 0
  hot := false
  turn := none
  lastTurn := 23
  left := 0
  llcAccesses := 0
  dead := false

/-- The management block at power-on: RSTREQ 0, the control block 0, MEAS.n 32 zero bytes, mtvec 0, PASS 0 (21 R415, R416,
R417, R430). What the manual gives no value, the ROM, the flash and the fuses among it, is zero (log 1). -/
def Mgmt.reset : Mgmt where
  rom := []
  sram := []
  flash := []
  fuseKey := List.replicate 4 (List.replicate 32 0)
  revoke := 0
  minver := 0
  bootReason := 0
  rstreq := 0
  minimal := false
  wdog := 0
  bootok := false
  rxlen := 0
  rx := []
  tx := []
  sent := []
  hsaSrc := 0
  hsaLen := 0
  hsaKey := 0
  hsaIdx := 0
  hsaBusy := .none
  hsaPass := false
  hsaErr := 0
  dig := List.replicate 32 0
  meas := List.replicate 8 (List.replicate 32 0)
  flcAddr := 0
  flcData := 0
  flcBusy := false
  flcErr := false
  pc := 0
  xregs := List.replicate 32 0
  mstatus := 0
  mtvec := 0
  mepc := 0
  mcause := 0
  mtval := 0
  halted := false
  started := false
  powered := true
  arcid := 0
  trip := false
  temp := [25, 25, 25, 25]
  power := 0

/-- The machine right after a reset: no partition is active, no owner exists in any state but stopped, nothing is resident
or cached (21 R423), and memory lists nothing (log 3). -/
def State.reset : State where
  agenda := []
  focus := 0
  cur := none
  free := 0
  nextKey := 1
  mem := []
  poison := []
  lines := []
  llc := []
  wc := []
  pins := []
  l1tlb := []
  l2tlb := []
  l3tlb := []
  recs := []
  quads := []
  flights := []
  memOps := []
  vfu := []
  sysOps := []
  copies := []
  engines := []
  mxq := []
  mx := []
  teams := []
  residue := []
  grids := []
  barriers := []
  forwards := []
  owners := []
  saved := []
  parts := (List.range 16).map Partition.reset
  links := []
  hdmTgt := List.replicate 16 0
  t2size := 1024
  pcie := [false, false]
  mgmt := Mgmt.reset
  host := []

end Sys2Proof.Machine
end

