-- ==== Sys2Proof/Machine/Attar.lean ====
section
/-!
DEFINITION. The attar encoding of a line (17 R367 to R370).
-/

namespace Sys2Proof.Machine

/-- A line's 32 little-endian words (R367). -/
def lineWords (d : List Byte) : List Nat := (List.range 32).map fun i => leNat ((d.drop (4 * i)).take 4)

/-- The delta of a word from w0, read as signed (R368). -/
def attarDelta (w0 w : Nat) : Int := (BitVec.ofNat 32 (w + 2 ^ 32 - w0)).toInt

/-- The codes of R368, each with its sectors, in the order that breaks ties. -/
def attarCands (ws : List Nat) : List (Nat × Nat) :=
  let w0 := ws.headD 0
  let n := (ws.filter (· ≠ 0)).length
  let within (lo hi : Int) : Bool := ws.all fun w => lo ≤ attarDelta w0 w && attarDelta w0 w ≤ hi
  (if n = 0 then [(0, 0)] else [])
    ++ (if ws.all (· = w0) && w0 ≠ 0 then [(1, 1)] else [])
    ++ (if 1 ≤ n && n ≤ 23 then [(2, (4 + 4 * n + 31) / 32)] else [])
    ++ (if within (-128) 127 then [(3, 2)] else [])
    ++ (if within (-32768) 32767 then [(4, 3)] else [])
    ++ [(5, 4)]

/-- The encoder's choice: fewest sectors, ties to the earlier code (R369). -/
def attarEncode (d : List Byte) : Nat × Nat :=
  (attarCands (lineWords d)).foldl (fun best c => if c.2 < best.2 then c else best) (5, 5)

/-- The encoded bytes of a line under a code (R368). -/
def attarBytes (code : Nat) (d : List Byte) : List Byte :=
  let ws := lineWords d
  let w0 := ws.headD 0
  match code with
  | 0 => []
  | 1 => leBytes 4 w0
  | 2 => leBytes 4 (laneIds.foldl (fun m i => if ws.getD i 0 ≠ 0 then m + 2 ^ i else m) 0) ++ (ws.filter (· ≠ 0)).flatMap (leBytes 4)
  | 3 => leBytes 4 w0 ++ ws.tail.flatMap fun w => leBytes 1 (w + 2 ^ 32 - w0)
  | 4 => leBytes 4 w0 ++ ws.tail.flatMap fun w => leBytes 2 (w + 2 ^ 32 - w0)
  | _ => d

/-- A line's data sectors: the encoding, then zeros to the end of the last sector (R367). -/
def attarData (d : List Byte) : List Byte :=
  let e := attarEncode d
  let bs := attarBytes e.1 d
  bs ++ List.replicate (32 * e.2 - bs.length) 0

/-- Word `i` of encoded bytes. -/
def attarWord (bs : List Byte) (i : Nat) : List Byte := (bs.drop (4 * i)).take 4

/-- The word that a signed delta of `n` bytes at `o` stands for. -/
def attarSum (bs : List Byte) (n o : Nat) : List Byte :=
  let δ := leNat ((bs.drop o).take n)
  let w0 := leNat (attarWord bs 0)
  leBytes 4 (w0 + δ + (if 2 ^ (8 * n - 1) ≤ δ then 2 ^ 32 - 2 ^ (8 * n) else 0))

/-- The line that the sectors hold (R370): codes 110 and 111 read as RAW. -/
def attarDecode (code : Nat) (bs : List Byte) : List Byte :=
  match code with
  | 0 => List.replicate 128 0
  | 1 => laneIds.flatMap fun _ => attarWord bs 0
  | 2 =>
    let m := leNat (attarWord bs 0)
    laneIds.flatMap fun i =>
      if m.testBit i then attarWord bs (1 + ((List.range i).filter fun j => m.testBit j).length) else [0, 0, 0, 0]
  | 3 => laneIds.flatMap fun i => if i = 0 then attarWord bs 0 else attarSum bs 1 (3 + i)
  | 4 => laneIds.flatMap fun i => if i = 0 then attarWord bs 0 else attarSum bs 2 (2 + 2 * i)
  | _ => bs

end Sys2Proof.Machine
end

