-- ==== Sys2Proof/Machine/Base.lean ====
section
/-!
DEFINITION. Numbers, memory as a list, the tables of the state with their lookups and updates, and messages to the host.
-/

namespace Sys2Proof.Machine


/-! ### Numbers -/

/-- The core, hall and gallery of a quadrant (01 R12). -/
def coreOfQuad (q : Nat) : Nat := q / 4
def hallOfCore (c : Nat) : Nat := c / Config.coresPerHall
def galleryOfHall (h : Nat) : Nat := h / Config.hallsPerGallery
def galleryOfCore (c : Nat) : Nat := galleryOfHall (hallOfCore c)

/-- Virtual addresses wrap modulo 2^57 (08 R180, R184). -/
def vaMod : Nat := 2 ^ 57

/-- The word of a number, wrapped (04 R115). -/
def wd (n : Nat) : Word := BitVec.ofNat 32 n
def dw (n : Nat) : DWord := BitVec.ofNat 64 n

/-- The 64-bit value of a pair (02 R47, 04 R113). -/
def pair64 (lo hi : Word) : DWord := hi ++ lo
def loWord (d : DWord) : Word := d.setWidth 32
def hiWord (d : DWord) : Word := (d >>> 32).setWidth 32

/-- Bits [hi:lo] of a number. -/
def bits (n hi lo : Nat) : Nat := n / 2 ^ lo % 2 ^ (hi + 1 - lo)

/-- The active lanes of a mask, ascending. -/
def lanesOf (m : Word) : List Nat := laneIds.filter fun l => m.getLsbD l

/-- The mask of one lane. -/
def laneBit (l : Nat) : Word := wd (2 ^ l)

/-- The 32-bit mask of a property of lanes. -/
def maskOf (p : Nat → Bool) : Word := wd (laneIds.foldl (fun a l => if p l then a + 2 ^ l else a) 0)

/-- The lowest active lane, 0 when none is (03 R96). -/
def lowestLane (m : Word) : Nat := (lanesOf m).headD 0

/-- The lanes of `new` where the mask is set, of `old` elsewhere. -/
def mergeLanes (m : Word) (old new : Lanes) : Lanes := Lanes.tab fun l => if m.getLsbD l then new.at l else old.at l

/-! ### Memory -/

/-- The value of a byte that is not listed (log 3). -/
def Memory.unlisted : Byte := 0

/-- One byte. -/
def Memory.get : Memory → Nat → Byte
  | [], _ => Memory.unlisted
  | (k, b) :: m, a => if k = a then b else Memory.get m a

/-- Store one byte, keeping addresses rising and no byte equal to the unlisted value. -/
def Memory.set : Memory → Nat → Byte → Memory
  | [], a, b => if b = Memory.unlisted then [] else [(a, b)]
  | (k, v) :: m, a, b =>
    if a < k then (if b = Memory.unlisted then (k, v) :: m else (a, b) :: (k, v) :: m)
    else if a = k then (if b = Memory.unlisted then m else (a, b) :: m)
    else (k, v) :: Memory.set m a b

/-- Every address is above `lo`, rising, and no byte is the unlisted value. -/
def Memory.wfFrom : Nat → Memory → Bool
  | _, [] => true
  | lo, (k, b) :: m => lo ≤ k && b ≠ Memory.unlisted && Memory.wfFrom (k + 1) m

/-- The canonical form. -/
def Memory.wf (m : Memory) : Bool := Memory.wfFrom 0 m

/-- Bytes from an address up. -/
def Memory.read (m : Memory) (a n : Nat) : List Byte := (List.range n).map fun i => m.get (a + i)

/-- Store bytes at the addresses listed, in order. -/
def Memory.puts (m : Memory) (ws : List (Nat × Byte)) : Memory := ws.foldl (fun m w => m.set w.1 w.2) m

/-- Bytes paired with their addresses. -/
def bytesAt (a : Nat) (bs : List Byte) : List (Nat × Byte) := (List.range bs.length).map fun i => (a + i, bs.getD i 0)

/-! ### Tables -/

/-- A quadrant at reset: latches zero (log 1). -/
def Quad.reset (n : Nat) : Quad := ⟨n, List.replicate 4 (Lanes.tab fun _ => 0), 0, [], none⟩

/-- A link that has not trained (19 R411). -/
def Link.reset (n : Nat) : Link := ⟨n, false, 0, [], false⟩

/-- A weight bank that holds nothing (12 R290). -/
def Bank.reset : Bank where
  fmt := 0
  desc := ⟨false, ⟨0, 0, 0, 0, 0⟩, 0, []⟩
  valid := false
  poison := none
  held := ⟨false, ⟨0, 0, 0, 0, 0⟩, 0, []⟩
  codes := []
  scales := []

/-- An array and accumulator store that no team holds: every word +0 (12 R269). -/
def MxCore.reset (c : Nat) : MxCore := ⟨c, none, [], [], Bank.reset, Bank.reset, []⟩

/-- A host queue at reset (19 R397, R401; log 1). -/
def HostQueue.reset : HostQueue := ⟨0, 0, 0, false, 0, 0, 0, 0, true, 0, 0, [], 0, 0, 0⟩

/-- An owner as a reset of its virtual device and a package reset leave it (15 R334, R337; 17 R376, R379, R383; 19 R397,
R402; 21 R423). Where the manual gives no value, log 1; the MSI-X mask bits are log 6. -/
def Owner.reset (vd : Nat) : Owner where
  vd := vd
  part := 0
  slot := 0
  port := 0
  enable := false
  vbase := 0
  vlimit := 0
  slice := Config.defaultSlice
  minw := 0
  maxw := 0
  hostCfg := ⟨0, 0, 0, false, 0, 0, 0, 0, List.replicate 4 (0, 0)⟩
  hostSlice := Config.defaultSlice
  hostMinw := 0
  hostMaxw := 0
  spillBase := 0
  spillStride := 0
  hvState := 0
  opBusy := false
  opResult := 0
  migAddr := 0
  migSize := 0
  dropInt := 0
  xferCnt := 0
  expose := List.replicate 4 (0, 0)
  pairs := List.replicate 12 0
  bal := List.replicate 64 0
  balDropping := none
  balWaiting := []
  tvec := 0
  wq := 0
  fq := 0
  fpool := 0
  tree := 0
  asid := 0
  sbuf := 0
  held := 0
  nframes := 0
  state := 0
  reason := 0
  vdevt := 0
  queues := List.replicate 8 HostQueue.reset
  xferBusy := false
  xferErr := false
  xferP := false
  xferSplit := false
  xferPend := none
  msixMask := 0xFFFF
  pba := 0
  msixTable := (List.range 16).flatMap fun _ => List.replicate 12 0 ++ [1, 0, 0, 0]
  entries := []
  launchQ := []
  walks := []
  walkHead := 0
  walkTail := 0
  walkSeq := 0
  misses := []
  missed := []
  faultRing := []
  faultHead := 0
  faultTail := 0
  faultWait := []
  level1 := none
  level2 := none
  suspTokens := [0, 0]
  faultSeq := 0
  frames := []
  progress := 0
  counters := List.replicate 25 0
  floor := 0
  errors := []
  errDropped := 0
  shadows := []
  misscurve := List.replicate 17 0

def State.flight (s : State) (k : Nat) : Option Flight := kget Flight.key k s.flights
def State.putFlight (s : State) (f : Flight) : State := { s with flights := kset Flight.key f s.flights }
def State.modFlight (s : State) (k : Nat) (g : Flight → Flight) : State :=
  match s.flight k with
  | some f => s.putFlight (g f)
  | none => s

def State.quad (s : State) (n : Nat) : Quad := (kget Quad.num n s.quads).getD (Quad.reset n)
def State.putQuad (s : State) (q : Quad) : State := { s with quads := kset Quad.num q s.quads }

def State.team (s : State) (k : Nat) : Option Team := kget Team.key k s.teams
def State.putTeam (s : State) (t : Team) : State := { s with teams := kset Team.key t s.teams }
def State.modTeam (s : State) (k : Nat) (g : Team → Team) : State :=
  match s.team k with
  | some t => s.putTeam (g t)
  | none => s

def State.grid (s : State) (k : Nat) : Option Grid := kget Grid.key k s.grids
def State.putGrid (s : State) (g : Grid) : State := { s with grids := kset Grid.key g s.grids }

/-- An owner; one that nothing has written holds its reset values. -/
def State.owner (s : State) (vd : Nat) : Owner := (kget Owner.vd vd s.owners).getD (Owner.reset vd)
def State.putOwner (s : State) (o : Owner) : State := { s with owners := kset Owner.vd o s.owners }
def State.modOwner (s : State) (vd : Nat) (g : Owner → Owner) : State := s.putOwner (g (s.owner vd))

/-- Where a physical address of the owner lies: host memory is reached on the owner's port, and the second port's stands 2^64
higher (19 R396; log 82). -/
def Owner.onPort (o : Owner) (a : Nat) : Nat := if o.port = 1 && 2 ^ 51 ≤ a && a < 2 ^ 52 then a + 2 ^ 64 else a

/-- Owners of a partition. -/
def State.ownersOf (s : State) (p : Nat) : List Owner := s.owners.filter fun o => o.enable && o.part = p

def State.part (s : State) (p : Nat) : Partition := (kget Partition.num p s.parts).getD (Partition.reset p)
def State.putPart (s : State) (p : Partition) : State := { s with parts := kset Partition.num p s.parts }
def State.modPart (s : State) (p : Nat) (g : Partition → Partition) : State := s.putPart (g (s.part p))

def State.mxCore (s : State) (c : Nat) : MxCore := (kget MxCore.core c s.mx).getD (MxCore.reset c)
def State.putMx (s : State) (m : MxCore) : State := { s with mx := kset MxCore.core m s.mx }

def State.link (s : State) (n : Nat) : Link := (kget Link.num n s.links).getD (Link.reset n)
def State.putLink (s : State) (l : Link) : State := { s with links := kset Link.num l s.links }

def State.copy (s : State) (k : Nat) : Option Copy := kget Copy.key k s.copies
def State.putCopy (s : State) (c : Copy) : State := { s with copies := kset Copy.key c s.copies }
def State.memOp (s : State) (k : Nat) : Option MemOp := kget MemOp.key k s.memOps
def State.mxCmd (s : State) (k : Nat) : Option MxCmd := kget MxCmd.key k s.mxq
def State.putMxCmd (s : State) (c : MxCmd) : State := { s with mxq := kset MxCmd.key c s.mxq }

/-- The flight whose instruction is at issue. -/
def State.curFlight (s : State) : Option Flight := s.cur.bind s.flight

/-- The partition of an owner, and its cycle count (00 R5). -/
def State.partOf (s : State) (vd : Nat) : Partition := s.part (s.owner vd).part
def State.now (s : State) (vd : Nat) : Nat := (s.partOf vd).cycle

/-- The variant that a team runs (01 R29). -/
def State.variantOf (s : State) (t : Team) : Option Variant :=
  (s.grid t.grid).bind fun g => kget Variant.num t.variant g.variants

/-- The operations of a macro body of the flight's variant (03 R92). -/
def State.body (s : State) (f : Flight) (n : Nat) : Option (List DWord) :=
  (s.team f.team).bind fun t => (kget Prod.fst n t.bodies).map Prod.snd

/-- Count `n` more events of a counter, which wraps (17 R383). -/
def State.count (s : State) (vd k n : Nat) : State :=
  s.modOwner vd fun o => { o with counters := listSet o.counters k (o.counters.getD k 0 + dw n) }

def Role.isOwner : Role → Bool
  | .lane => false
  | _ => true

def Role.isService : Role → Bool
  | .walk | .fault _ => true
  | _ => false

/-- The one lane of an owner-mode flight (15 R326). -/
def Role.ownerLane : Role → Nat
  | .collapsed l => l
  | _ => 0

/-- OWN.ROLE (15 R334). -/
def Role.code : Role → Nat
  | .lane | .collapsed _ => 0
  | .walk => 1
  | .fault k => 2 + 4 * k

/-- EM after a write: in owner mode other lanes' bits stay 0 (15 R326). -/
def Flight.setEM (f : Flight) (em : Word) : Flight :=
  { f with em := if f.role.isOwner then em &&& laneBit f.role.ownerLane else em }

/-- The PC's bits [63:57] and 0 read 0 (03 R75). -/
def pcMask : DWord := 0x01FFFFFFFFFFFFFE

def Flight.setPC (f : Flight) (a : DWord) : Flight := { f with pc := a &&& pcMask }

/-! ### Messages to the host -/

def State.tell (s : State) (e : HostEvent) : State := { s with host := s.host ++ [e] }

/-- Delivery of the owner's interrupts is off (19 R402, R409). -/
def Owner.hvDesched (o : Owner) : Bool := o.hvState ≠ 0

/-- Signal a vector of a virtual device (19 R409): sent, pending, or discarded. -/
def State.signalVector (s : State) (vd v : Nat) : State :=
  let o := s.owner vd
  if o.state = 4 then s.putOwner { o with dropInt := o.dropInt + 1 }
  else if o.msixMask.getLsbD v || o.hvDesched || o.state = 3 then
    s.putOwner { o with pba := o.pba ||| BitVec.ofNat 16 (2 ^ v) }
  else s.tell (.msix vd v)

/-- Set a bit of VDEVT, which signals vector 0 (19 R397). -/
def State.raiseEvent (s : State) (vd bit : Nat) : State :=
  (s.modOwner vd fun o => { o with vdevt := o.vdevt ||| BitVec.ofNat 4 (2 ^ bit) }).signalVector vd 0

end Sys2Proof.Machine
end

