-- ==== Sys2Proof/Machine/Cache.lean ====
section
/-!
DEFINITION. The caches: what a line holds, eviction and write-back, the LLC's placement and accounts, recall of stash-window
lines, and coherent reads and writes at the points of coherence of the scopes (08 R188 to R191, R203; 17 R371 to R375, R377).
-/

namespace Sys2Proof.Machine

/-! ### What a line holds -/

/-- A line's bytes, expanded where the cache holds it compressed (08 R190; 17 R370). -/
def CacheLine.bytes (c : CacheLine) : List Byte := if c.state = .Sc then attarDecode c.code c.data else c.data
def LlcLine.bytes (l : LlcLine) : List Byte := attarDecode l.code l.data

/-- The bytes of a line as the caches hold it, and which are poisoned: an L1 or L2 copy, else the LLC's; none where no cache
holds it. -/
def State.copyOf (s : State) (ln : Nat) : Option (List Byte × BitVec 128) :=
  match kget CacheLine.line ln s.lines with
  | some c => some (c.bytes, c.bad)
  | none => (kget LlcLine.line ln s.llc).map fun l => (l.bytes, l.bad)

def State.cached (s : State) (ln : Nat) : Option (List Byte) := (s.copyOf ln).map Prod.fst

/-- A byte as every coherent agent reads it (08 R188). -/
def State.byte (s : State) (a : Nat) : Byte :=
  match s.cached (a / 128) with
  | some d => d.getD (a % 128) 0
  | none => s.mem.get a

def State.bytes (s : State) (a n : Nat) : List Byte := (List.range n).map fun i => s.byte (a + i)

/-- A whole line as every coherent agent reads it. -/
def State.line (s : State) (ln : Nat) : List Byte := (s.cached ln).getD (s.mem.read (128 * ln) 128)

/-- The mask of the bytes of a line that a property of addresses picks. -/
def maskBytes (ln : Nat) (p : Nat → Bool) : BitVec 128 :=
  BitVec.ofNat 128 ((List.range 128).foldl (fun m i => if p (128 * ln + i) then m + 2 ^ i else m) 0)

/-- The poisoned bytes that memory holds of a line. -/
def State.memBad (s : State) (ln : Nat) : BitVec 128 := if s.poison = [] then 0 else maskBytes ln s.poison.contains

/-- The poisoned bytes of a line as every coherent agent reads it. -/
def State.badLine (s : State) (ln : Nat) : BitVec 128 := ((s.copyOf ln).map Prod.snd).getD (s.memBad ln)

/-- A byte reads as poisoned (17 R385). -/
def State.badByte (s : State) (a : Nat) : Bool :=
  match s.copyOf (a / 128) with
  | some c => c.2.getLsbD (a % 128)
  | none => s.poison.contains a

/-- Whether any of the addresses is poisoned. -/
def State.poisoned (s : State) (as : List Nat) : Bool := as.any s.badByte

/-- Physical addresses that hold something (21 R425); host memory from 2^51 up, the second port's 2^64 higher (log 82). -/
def State.mapped (s : State) (a : Nat) : Bool :=
  a < 32 * Config.groupBytes || (0x8000000000 ≤ a && a < 0x8000000000 + s.t2size * 2 ^ 30) || (2 ^ 51 ≤ a % 2 ^ 64 && a % 2 ^ 64 < 2 ^ 52 && a < 2 ^ 65)

/-- Write bytes straight to memory and clear their poison; an unmapped address drops the write and is reported
(21 R425). -/
def State.memPut (s : State) (ws : List (Nat × Byte)) : State :=
  let ok := ws.filter fun w => s.mapped w.1
  let bad := ws.filter fun w => !s.mapped w.1
  { s with
    mem := s.mem.puts ok
    poison := s.poison.filter fun a => !(ok.any fun w => w.1 = a)
    host := s.host ++ (bad.take 1).map fun w => .unmapped w.1 }

/-- The dirty bytes of a line go to its memory, with their poison; the other bytes there stay (09 R241). -/
def State.writeBack (s : State) (ln : Nat) (d : List Byte) (dirty bad : BitVec 128) : State :=
  let is := (List.range 128).filter fun i => dirty.getLsbD i
  { s with
    mem := s.mem.puts (is.map fun i => (128 * ln + i, d.getD i 0))
    poison := (s.poison.filter fun a => !(a / 128 = ln && dirty.getLsbD (a % 128)))
      ++ (is.filter fun i => bad.getLsbD i).map fun i => 128 * ln + i }

/-! ### Sets -/

/-- Channel group of an HBM line (21 R425). -/
def groupOf (ln : Nat) : Nat := 128 * ln / Config.groupBytes

/-- The LLC set of a line: its slice, and o[18:7] XOR o[30:19] (17 R371). -/
def setOf (ln : Nat) : Nat × Nat :=
  let o := 128 * ln % Config.groupBytes
  (groupOf ln, bits o 18 7 ^^^ bits o 30 19)

/-- Lines that the LLC may hold: HBM alone (17 R371). -/
def llcMay (ln : Nat) : Bool := groupOf ln < 32

/-- The pseudo-owner of a partition's physical-function accesses (17 R373). -/
def pseudoOwner (p : Nat) : Nat := 384 + p

def llcSectors (ls : List LlcLine) : Nat := ls.foldl (fun n l => n + l.sectors) 0

/-- Lines of owners above their floors, least recently used first (17 R374): `inSet` holds the line that is placed too, which
counts in its owner's holding and is no candidate. -/
def State.aboveFloor (s : State) (inSet : List LlcLine) (o ln : Nat) : List LlcLine :=
  inSet.filter fun l =>
    let own := inSet.filter fun m => m.vd = l.vd
    let fl := (s.owner l.vd).floor
    l.vd ≠ o && l.line ≠ ln && (llcSectors own > 4 * fl || own.length > 2 * fl)

def State.maxWays (s : State) (o : Nat) : Nat := if o < 384 then (s.owner o).maxw else 16

/-- Evict a line: its dirty bytes written to HBM, expanded (17 R374). -/
def State.llcEvict (s : State) (l : LlcLine) : State :=
  let s : State := if l.dirty = 0 then s else s.writeBack l.line l.bytes l.dirty l.bad
  { s with llc := s.llc.filter fun m => m.line ≠ l.line }

/-- Make room, at most `fuel` evictions; and whether the line can be held (17 R374). `heldSec` are the sectors that the line
holds now, none where it is not held. -/
def State.llcRoom (s : State) (o ln sectors : Nat) (heldSec : Option Nat) : Nat → State × Bool
  | 0 => (s, false)
  | fuel + 1 =>
    let inSet := s.llc.filter fun l => setOf l.line = setOf ln
    let others := inSet.filter fun l => l.line ≠ ln
    let freeSec := 64 - llcSectors inSet
    let freeTags := 32 - inSet.length
    let need := sectors - heldSec.getD 0
    let needTag := if heldSec.isSome then 0 else 1
    if need ≤ freeSec && needTag ≤ freeTags then (s, true)
    else
      let own := others.filter fun l => l.vd = o
      let mw := s.maxWays o
      let pool := if llcSectors own + sectors > 4 * mw || own.length + 1 > 2 * mw then own
        else own ++ s.aboveFloor inSet o ln
      match pool with
      | [] => (s, false)
      | v :: _ =>
        let s : State := s.llcEvict v
        let s : State := if heldSec.isSome then
            let s : State := s.count o 8 1
            if v.vd = o then s else s.count v.vd 9 1
          else s
        s.llcRoom o ln sectors heldSec fuel

/-- A stack cut to 64 sectors. -/
def shadowCut : List (Nat × Nat) → Nat → List (Nat × Nat)
  | [], _ => []
  | (l, n) :: st, room => if n ≤ room then (l, n) :: shadowCut st (room - n) else []

/-- The shadow stack of an owner takes the sectors of a line that it holds from the line's latest encoding (17 R377). -/
def State.shadowSize (s : State) (o ln sectors : Nat) : State :=
  let (g, st) := setOf ln
  if st % 64 ≠ 0 then s
  else
    let ow := s.owner o
    match kget Shadow.set (4096 * g + st) ow.shadows with
    | none => s
    | some sh => s.putOwner { ow with
        shadows := kset Shadow.set ⟨sh.set, shadowCut (sh.stack.map fun e => if e.1 = ln then (ln, sectors) else e) 64⟩ ow.shadows }

/-- Encode a line and place it with the owner's tag, most recently used, or as the set's next victim (17 R372 to R374; 08 R191);
`tally`: the event counts. A line that cannot be held goes to HBM if dirty. -/
def State.llcPlace (s : State) (o ln : Nat) (d : List Byte) (dirty bad : BitVec 128) (tally next : Bool) : State :=
  let (code, sectors) := attarEncode d
  let s : State := (if tally then s.count o code 1 else s).shadowSize o ln sectors
  let held := kget LlcLine.line ln s.llc
  let r := s.llcRoom o ln sectors (held.map LlcLine.sectors) 65
  let s : State := r.1
  let rest := s.llc.filter fun l => l.line ≠ ln
  let l : LlcLine := ⟨ln, o, code, sectors, attarData d, dirty, bad⟩
  if r.2 then { s with llc := if next then l :: rest else rest ++ [l] }
  else
    let s : State := { s with llc := rest }
    if dirty = 0 then s else s.writeBack ln d dirty bad

/-! ### Accounts of an access at the LLC -/

/-- The sector depth of a line in a shadow stack: the sectors down to and with it (17 R377). -/
def shadowDepth (ln : Nat) : List (Nat × Nat) → Nat → Option Nat
  | [], _ => none
  | (l, n) :: st, acc => if l = ln then some (acc + n) else shadowDepth ln st (acc + n)

/-- An access at the LLC by owner `o` counts as a hit or a miss, in the partition's total, and in the shadow monitor. -/
def State.llcAccount (s : State) (o ln : Nat) : State :=
  let held := kget LlcLine.line ln s.llc
  let s : State := s.count o (if held.isSome then 10 else 11) 1
  let s : State := s.modPart (s.owner o).part fun p => { p with llcAccesses := p.llcAccesses + 1 }
  let (g, st) := setOf ln
  if st % 64 ≠ 0 then s
  else
    let key := 4096 * g + st
    let ow := s.owner o
    let stack := match kget Shadow.set key ow.shadows with
      | some sh => sh.stack
      | none => []
    let missAt : Nat → Bool := fun w => match shadowDepth ln stack 0 with
      | some d => 4 * w < d
      | none => true
    let sec := (attarEncode (s.line ln)).2
    let stack' := shadowCut ((ln, sec) :: stack.filter fun e => e.1 ≠ ln) 64
    s.putOwner { ow with
      shadows := kset Shadow.set ⟨key, stack'⟩ ow.shadows
      misscurve := (List.range 17).map fun w => ow.misscurve.getD w 0 + (if missAt w then 1 else 0) }

/-- The dirty bytes of a line that the LLC holds. -/
def State.llcDirty (s : State) (ln : Nat) : BitVec 128 := ((kget LlcLine.line ln s.llc).map LlcLine.dirty).getD 0

/-- An access at the LLC by owner `o`: accounted, and on a miss the line is filled and encoded (17 R372); a hit moves it to
the most-recent end. A fill under policy 1 leaves it the next victim (08 R191). -/
def State.llcTouch (s : State) (o ln : Nat) (next : Bool) : State :=
  let s : State := s.llcAccount o ln
  match kget LlcLine.line ln s.llc with
  | some l => { s with llc := (s.llc.filter fun m => m.line ≠ ln) ++ [l] }
  | none => s.llcPlace o ln (s.mem.read (128 * ln) 128) 0 (s.memBad ln) true next

/-! ### L1 and L2 -/

/-- Dirty data above are written back: to the LLC, which encodes them (17 R372, R375), or to memory for a line that the LLC
never holds. -/
def State.writeUp (s : State) (c : CacheLine) : State :=
  if llcMay c.line then s.llcPlace c.vd c.line c.data (s.llcDirty c.line ||| c.dirty) c.bad true false
  else s.writeBack c.line c.data c.dirty c.bad

/-- A dirty copy above is written back, so that others may share the line (17 R375). -/
def State.shareLine (s : State) (ln : Nat) : State :=
  match s.lines.find? fun c => c.line = ln && c.state = .M with
  | none => s
  | some c =>
    let s : State := s.writeUp c
    { s with lines := s.lines.map fun (m : CacheLine) =>
        if m.line = ln && (m.state = .M || m.state = .E) then { m with state := .S, dirty := 0 } else m }

def State.dropUpper (s : State) (ln : Nat) : State := { s with lines := s.lines.filter fun c => c.line ≠ ln }

/-- A line that some command has pinned, to which writes wait (12 R280). -/
def State.pinned (s : State) (ln : Nat) : Bool := s.pins.any fun p => p.line = ln

/-- Granules of 16 bytes that a line takes: two a sector in Sc (08 R190). -/
def CacheLine.granules (c : CacheLine) : Nat := if c.state = .Sc then c.data.length / 16 else 8

/-- Granules that a cache holds at most. -/
def CacheId.granules : CacheId → Nat
  | .l1 _ => Config.l1Granules
  | .l2 _ => Config.l2Granules

/-- Make room in a cache for the entering line, at most `fuel` evictions (01 R13, R14): the next victims go first; which other
line goes is free, but a pinned one stays (12 R280). A dirty line is written back. -/
def State.upperRoom (s : State) (c : CacheLine) : Nat → State
  | 0 => s
  | fuel + 1 =>
    let mine := s.lines.filter fun m => m.cache = c.cache
    if mine.foldl (fun n m => n + m.granules) c.granules ≤ c.cache.granules then s
    else
      let loose := mine.filter fun m => match m.cache with
        | .l1 _ => true
        | .l2 h => !(s.pins.any fun p => p.hall = h && p.line = m.line)
      let victim := match loose.find? CacheLine.next with
        | some v => some v
        | none => loose[Config.cacheVictim s.nextKey c.line % loose.length]?
      match victim with
      | none => s
      | some v =>
        let s : State := if v.state = .M then s.writeUp v else s
        ({ s with lines := s.lines.filter fun m => !(m.cache = v.cache && m.line = v.line) } : State).upperRoom c fuel

/-- A line enters its cache, in place of the copy there. -/
def State.putLine (s : State) (c : CacheLine) : State :=
  let s : State := { s with lines := s.lines.filter fun m => !(m.cache = c.cache && m.line = c.line) }
  let s : State := s.upperRoom c s.lines.length
  { s with lines := s.lines ++ [c] }

/-- Whether a cache holds a line. -/
def State.holds (s : State) (c : CacheId) (ln : Nat) : Bool := s.lines.any fun m => m.cache = c && m.line = ln

/-- A read copy enters a cache: Sc where the record lets a compressed line travel up, else S (17 R375; 08 R190). -/
def State.addCopy (s : State) (c : CacheId) (ln vd : Nat) (compressed next : Bool) : State :=
  if s.holds c ln then s
  else
    let d := s.line ln
    let bad := s.badLine ln
    let s : State := { s with lines := s.lines.map fun (m : CacheLine) => if m.line = ln && m.state = .E then { m with state := .S } else m }
    s.putLine (if compressed && llcMay ln then ⟨c, ln, .Sc, vd, (attarEncode d).1, attarData d, 0, bad, next⟩
      else ⟨c, ln, .S, vd, 5, d, 0, bad, next⟩)

/-! ### Coherent accesses -/

/-- Where an access is performed (08 R188). -/
inductive Poc where
  | l1 (core : Nat)
  | l2 (hall : Nat)
  | llc
  deriving DecidableEq, Repr

/-- The point of coherence of a scope for a core; stores under policies 2 and 3 are performed at the LLC, those under policy 1
no nearer than L2 (08 R188, R191). An atomic takes the point of its scope, as under policy 0. -/
def pocOf (core scope policy : Nat) : Poc :=
  if policy = 2 || policy = 3 then .llc
  else if scope ≤ 1 then (if policy = 1 then .l2 (hallOfCore core) else .l1 core)
  else if scope = 2 then .l2 (hallOfCore core)
  else .llc

/-- Codes 5 to 7 act as 0 (08 R191); a page or range marked uncached is accessed under code 4. -/
def policyOf (q4policy : Nat) (uc : Bool) : Nat := if uc then 4 else if 5 ≤ q4policy then 0 else q4policy

/-- Put the new data of a line where a write of the bytes in `written` is performed; `whole`: the write covers the line, which
is then not filled first (18 R391). Above the LLC, a cache that does not hold the line E or M asks for ownership: a dirty copy
elsewhere is written back, the access reaches the LLC, and every other copy is dropped (17 R375). At the LLC, a dirty copy
above is written back first. A line the LLC never holds goes to its memory. -/
def State.placeLine (s : State) (vd : Nat) (poc : Poc) (ln : Nat) (d : List Byte) (written bad : BitVec 128) (whole next : Bool) :
    State :=
  let upper (c : CacheId) : State :=
    match s.lines.find? fun m => m.cache = c && m.line = ln && (m.state = .M || m.state = .E) with
    | some m => (s.dropUpper ln).putLine ⟨c, ln, .M, vd, 5, d, m.dirty ||| written, bad, next⟩
    | none =>
      let s : State := s.shareLine ln
      let s : State := if whole || !llcMay ln then s else s.llcTouch vd ln next
      (s.dropUpper ln).putLine ⟨c, ln, .M, vd, 5, d, written, bad, next⟩
  match poc with
  | .l1 c => upper (.l1 c)
  | .l2 h => upper (.l2 h)
  | .llc =>
    let s : State := (s.shareLine ln).dropUpper ln
    if llcMay ln then
      let s : State := if whole then s.llcAccount vd ln else s.llcTouch vd ln next
      s.llcPlace vd ln d (s.llcDirty ln ||| written) bad true next
    else s.writeBack ln d written bad

/-! ### Stash-window lines (08 R203) -/

/-- The lines of a window that lie at a physical line: their indices (08 R202). -/
def Window.at (w : Window) (ln : Nat) : List Nat := (w.filled.filter fun p => p.2 = ln).map Prod.fst

/-- The first or the second 64 bytes of a line. -/
def halfMask (h : Nat) : BitVec 128 := BitVec.ofNat 128 ((2 ^ 64 - 1) * 2 ^ (64 * h))

/-- The dirty window line at scratch offset `o` of a team goes to the hall's L2 as physical line `ln` (R203); the LLC encodes
each of its 64-byte blocks (17 R372; log 83). The bytes of a poisoned granule are poisoned there, the others are not. DEDUCED
(log 29): the rules name no way for poison to be lost. -/
def State.windowOut (s : State) (t : Team) (o ln : Nat) : State :=
  let bad := maskBytes ln fun a => match kget Prod.fst ((o + a % 128) / 16) t.granules with
    | some (_, .poisonedError) | some (_, .poisonedChecksum) => true
    | _ => false
  let d := t.scratch.read o 128
  let c : CacheId := .l2 (hallOfCore t.core)
  if llcMay ln then
    let s : State := s.placeLine t.vd .llc ln (d.take 64 ++ (s.line ln).drop 64) (halfMask 0)
      ((s.badLine ln &&& halfMask 1) ||| (bad &&& halfMask 0)) false false
    (s.placeLine t.vd .llc ln d (halfMask 1) bad false false).addCopy c ln t.vd false false
  else (s.dropUpper ln).putLine ⟨c, ln, .M, t.vd, 5, d, BitVec.allOnes 128, bad, false⟩

/-- Any other access to a filled window line recalls it (08 R203): its data go to the hall's L2 if it is dirty, and the line
is unfilled. -/
def State.recallLine (s : State) (ln : Nat) : State :=
  s.teams.foldl (fun s t =>
    if t.windows.all fun w => w.at ln = [] then s
    else
      let dirty := t.windows.flatMap fun w => ((w.at ln).filter w.dirty.contains).map fun i => w.off + 128 * i
      let s : State := match dirty.getLast? with
        | some o => s.windowOut t o ln
        | none => s
      let ws := t.windows.map fun w =>
        { w with filled := w.filled.filter fun p => p.2 ≠ ln, dirty := w.dirty.filter fun i => !(w.at ln).contains i }
      s.putTeam { t with windows := ws }) s

def State.recallLines (s : State) (lns : List Nat) : State := lns.foldl State.recallLine s

/-! ### Accesses of the device's own -/

/-- The dirty bytes that the caches hold of a line. -/
def State.dirtyBytes (s : State) (ln : Nat) : BitVec 128 :=
  s.lines.foldl (fun m c => if c.line = ln && c.state = .M then m ||| c.dirty else m) (s.llcDirty ln)

/-- Drop every copy of a line, writing its dirty bytes to memory. -/
def State.flushLine (s : State) (ln : Nat) : State :=
  let s : State := s.recallLine ln
  let m := s.dirtyBytes ln
  let s : State := if m = 0 then s else s.writeBack ln (s.line ln) m (s.badLine ln)
  { s with lines := s.lines.filter fun c => c.line ≠ ln, llc := s.llc.filter fun c => c.line ≠ ln }

/-- The lines that a list of writes touches. -/
def linesOf (ws : List (Nat × Byte)) : List Nat := (ws.map fun w => w.1 / 128).dedup

/-- A write by the device itself, coherent and outside the LLC's accounts (17 R372). -/
def State.devWrite (s : State) (ws : List (Nat × Byte)) : State := ((linesOf ws).foldl State.flushLine s).memPut ws

/-! ### Reads and writes of an owner -/

/-- Replace bytes of a line. -/
def patchLine (ln : Nat) (d : List Byte) (ws : List (Nat × Byte)) : List Byte :=
  ws.foldl (fun d w => if w.1 / 128 = ln then listSet d (w.1 % 128) w.2 else d) d

/-- The bytes of a line that are written. -/
def writtenMask (ln : Nat) (ws : List (Nat × Byte)) : BitVec 128 := maskBytes ln fun a => ws.any fun w => w.1 = a

/-- A coherent write by owner `vd` at a point of coherence, line by line, each line replaced at once (17 R242, R372);
written bytes lose their poison, and a write to an unmapped address is dropped and reported (21 R425). -/
def State.cohPut (s : State) (vd : Nat) (poc : Poc) (next : Bool) (ws : List (Nat × Byte)) : State :=
  let ok := ws.filter fun w => s.mapped w.1
  let bad := ws.filter fun w => !s.mapped w.1
  let s : State := (linesOf ok).foldl (fun s ln =>
    let s : State := s.recallLine ln
    let m := writtenMask ln ok
    s.placeLine vd poc ln (patchLine ln (s.line ln) ok) m (s.badLine ln &&& ~~~m) (m = BitVec.allOnes 128) next) s
  { s with host := s.host ++ (bad.take 1).map fun w => .unmapped w.1 }

/-- Poison is written to bytes at the LLC (12 R279). -/
def State.cohPoison (s : State) (vd : Nat) (as : List Nat) : State :=
  ((as.map (· / 128)).dedup).foldl (fun s ln =>
    let s : State := s.recallLine ln
    let m := maskBytes ln as.contains
    s.placeLine vd .llc ln (s.line ln) m (s.badLine ln ||| m) false false) s

/-- Poison is written to bytes of memory. -/
def State.memPoison (s : State) (as : List Nat) : State := { s with poison := (s.poison ++ as).dedup }

def State.cohWrite (s : State) (vd : Nat) (poc : Poc) (ws : List (Nat × Byte)) : State := s.cohPut vd poc false ws

/-- A write under a policy: code 4 goes to the channel controller, and recalls a window line (08 R191, R203). -/
def State.write (s : State) (vd core scope policy : Nat) (ws : List (Nat × Byte)) : State :=
  if policy = 4 then (s.recallLines (linesOf ws)).memPut ws else s.cohPut vd (pocOf core scope policy) (policy = 1) ws

/-- A read reaches the LLC: a dirty copy above is written back, and the line is filled there on a miss. -/
def State.fetchLlc (s : State) (vd ln : Nat) (next : Bool) : State :=
  let s : State := s.shareLine ln
  if llcMay ln then s.llcTouch vd ln next else s

/-- A line is filled into a hall's L2. -/
def State.fillL2 (s : State) (vd hall ln : Nat) (compressed next : Bool) : State :=
  if s.holds (.l2 hall) ln then s else (s.fetchLlc vd ln next).addCopy (.l2 hall) ln vd compressed next

/-- A compressed copy is expanded in place (12 R280). -/
def State.expandCopy (s : State) (c : CacheId) (ln : Nat) : State :=
  match s.lines.find? fun m => m.cache = c && m.line = ln && m.state = .Sc with
  | some m => s.putLine { m with state := .S, code := 5, data := m.bytes }
  | none => s

/-- A load's allocation of one line (08 R191): nothing under policies 2 to 4 above the LLC, L2 under 1, L1 and L2 under 0.
`attar` and `expand` are the record's (08 R190). -/
def State.fillLine (s : State) (vd core policy : Nat) (attar : Bool) (expand : Nat) (ln : Nat) : State :=
  if policy = 4 || !s.mapped (128 * ln) || s.holds (.l1 core) ln then s
  else
    let hall := hallOfCore core
    let sc (n : Nat) : Bool := attar && n ≤ expand
    match policy with
    | 0 => (s.fillL2 vd hall ln (sc 1) false).addCopy (.l1 core) ln vd (sc 2) false
    | 1 => s.fillL2 vd hall ln (sc 1) true
    | _ => if s.holds (.l2 hall) ln then s else s.fetchLlc vd ln false

/-- A byte as an access under a policy reads it. -/
def State.readByte (s : State) (policy a : Nat) : Byte :=
  if !s.mapped a then 0 else if policy = 4 then s.mem.get a else s.byte a

/-- A byte arrives poisoned under a policy. -/
def State.readBad (s : State) (policy a : Nat) : Bool := if policy = 4 then s.poison.contains a else s.badByte a

/-- Report the first unmapped address of a read (21 R425). -/
def State.noteUnmapped (s : State) (as : List Nat) : State :=
  match as.find? fun a => !s.mapped a with
  | some a => s.tell (.unmapped a)
  | none => s

/-- A read by an instruction: allocation, and the bytes. -/
def State.load (s : State) (vd core policy : Nat) (attar : Bool) (expand : Nat) (as : List Nat) : State × List Byte :=
  let s : State := ((as.map (· / 128)).dedup.foldl (fun s ln => (s.recallLine ln).fillLine vd core policy attar expand ln) s).noteUnmapped as
  (s, as.map (s.readByte policy))

/-- The dirty data of a line move to one cache, leaving the other copies clean. -/
def State.moveDirty (s : State) (c : CacheId) (ln : Nat) : State :=
  match s.lines.find? fun m => m.line = ln && m.state = .M && m.cache ≠ c with
  | none => s
  | some m =>
    let s : State := { s with lines := s.lines.map fun (x : CacheLine) => if x.line = ln && x.state = .M then { x with state := .S, dirty := 0 } else x }
    s.putLine { m with cache := c }

/-- Write a line's dirty data, wherever they are, to a point of coherence, leaving copies clean (08 R215 CCLEAN). `o` is the
issuing owner. -/
def State.cleanLine (s : State) (o core scope ln : Nat) : State :=
  if scope ≤ 1 then s.moveDirty (.l1 core) ln
  else if scope = 2 then s.moveDirty (.l2 (hallOfCore core)) ln
  else
    let s : State := match s.lines.find? fun c => c.line = ln && c.state = .M with
      | none => s
      | some c =>
        let s : State := { s with lines := s.lines.map fun (m : CacheLine) => if m.line = ln then { m with state := if m.state = .M then .S else m.state, dirty := 0 } else m }
        if llcMay ln then (s.llcAccount o ln).llcPlace o ln c.data (s.llcDirty ln ||| c.dirty) c.bad true false
        else s.writeBack ln c.data c.dirty c.bad
    match (if scope = 5 then kget LlcLine.line ln s.llc else none) with
    | some l =>
      if l.dirty = 0 then s
      else
        let s : State := s.writeBack ln l.bytes l.dirty l.bad
        { s with llc := s.llc.map fun (m : LlcLine) => if m.line = ln then { m with dirty := 0 } else m }
    | none => s

/-- CCLEAN, then drop every copy between the core and the point of coherence (08 R215 CINV). -/
def State.invalLine (s : State) (o core scope ln : Nat) : State :=
  let s : State := s.cleanLine o core scope ln
  let drop : CacheId → Bool := fun c =>
    if scope ≤ 1 then false else if scope = 2 then c = .l1 core else true
  let s : State := { s with lines := s.lines.filter fun m => !(m.line = ln && drop m.cache) }
  if scope = 5 then { s with llc := s.llc.filter fun l => l.line ≠ ln } else s

/-! ### The write-combining buffer (08 R191) -/

/-- One gathered line written out at the LLC; a line that is pinned waits (12 R280). -/
def State.writeOut (s : State) (w : WcLine) : State :=
  if s.pinned w.line then s else ({ s with wc := s.wc.filter (· ≠ w) }).cohWrite w.vd .llc w.bytes

/-- The gathered stores of a flight to these lines are written out. -/
def State.drainLines (s : State) (flight : Nat) (lns : List Nat) : State :=
  (s.wc.filter fun w => w.flight = flight && lns.contains w.line).foldl State.writeOut s

/-- The gathered stores of a flight drain to their points of coherence. -/
def State.drainWc (s : State) (flight : Nat) : State :=
  (s.wc.filter fun w => w.flight = flight).foldl State.writeOut s

/-- Before a line is cleaned, what the device holds of it elsewhere: stores gathered by any flight, and window lines. -/
def State.gatherLine (s : State) (ln : Nat) : State :=
  ((s.wc.filter fun w => w.line = ln).foldl State.writeOut s).recallLine ln

/-- Gathered stores of a flight that a pin keeps in the buffer (12 R280). -/
def State.wcStuck (s : State) (flight : Nat) : Bool := s.wc.any fun w => w.flight = flight && s.pinned w.line

end Sys2Proof.Machine
end

