-- ==== Sys2Proof/Machine/Ops.lean ====
section
/-!
DEFINITION. The named operations over flights and owners: flags, landing of results, halts, taking a trap and returning from
one, and stalling an owner.
-/

namespace Sys2Proof.Machine

/-! ### Flags -/

def Flight.addFlag (f : Flight) (n : Nat) : Flight := { f with flags := listSet f.flags n (min 63 (f.flags.getD n 0 + 1)) }

/-- A completion subtracts 1; a flag never falls below zero (03 R82). -/
def Flight.dropFlag (f : Flight) (n : Nat) : Flight := { f with flags := listSet f.flags n (f.flags.getD n 0 - 1) }

def State.dropFlag (s : State) (k : Nat) (flag : Option Nat) : State :=
  match flag with
  | some n => s.modFlight k fun f => f.dropFlag n
  | none => s

/-- FSTAT bits are only ever set (05 R146). -/
def State.orFstat (s : State) (k : Nat) (b : BitVec 6) : State := s.modFlight k fun f => { f with fstat := f.fstat ||| b }

/-! ### Landing of fixed-latency results -/

/-- The value a register reads in each lane by its class (04 R110). -/
def RegVal.lanes : RegVal → Lanes
  | .uniform u => Lanes.tab fun _ => u
  | .affine b st => Lanes.tab fun l => b + wd l * st
  | .general row => Lanes.tab row.at

/-- A register of a flight; one that nothing has written is 0 in the form of its class (log 1). -/
def Flight.reg (f : Flight) (r : Nat) : RegVal :=
  match kget Prod.fst r f.regs with
  | some p => p.2
  | none =>
    match f.classMap.getD r .absent with
    | .affine => .affine 0 0
    | .uniform => .uniform 0
    | _ => .general (Lanes.tab fun _ => 0)

def Flight.setReg (f : Flight) (r : Nat) (v : RegVal) : Flight := { f with regs := kset Prod.fst (r, v) f.regs }

/-- Predicate `n`; P7 reads all ones (02 R46). -/
def Flight.pred (f : Flight) (n : Nat) : Word := if n = 7 then 0xFFFFFFFF else f.preds.getD n 0

/-- Write the masked bits of a predicate; a write to P7 is discarded (02 R46). -/
def Flight.setPred (f : Flight) (n : Nat) (mask bits : Word) : Flight :=
  if n = 7 then f
  else { f with preds := listSet f.preds n ((f.preds.getD n 0 &&& ~~~mask) ||| (bits &&& mask)) }

/-- One register write: a general register takes the written lanes, another its stored form (04 R111). -/
def Flight.landReg (f : Flight) (p : RegPut) : Flight :=
  match p.stored with
  | .general _ => f.setReg p.reg (.general (mergeLanes p.mask (f.reg p.reg).lanes p.vals))
  | v => f.setReg p.reg v

/-- A result's register, predicate and FSTAT effects (03 R79; 05 R148). -/
def Flight.landOne (f : Flight) (p : Pending) : Flight :=
  let f := p.regs.foldl Flight.landReg f
  let f := p.preds.foldl (fun f q => f.setPred q.pred q.mask q.bits) f
  { f with fstat := f.fstat ||| p.fstat }

/-- The team whose latches the flight may read: its own, each service flight being one for itself (03 R87; 15 R331). -/
def Flight.latchTeam (f : Flight) : Nat := if f.role.isService then f.key else f.team

/-- The latch effect, in the quadrant while it still runs the flight's team (03 R85, R87). -/
def Quad.landLatch (q : Quad) (team : Nat) (p : Pending) : Quad :=
  match p.latch with
  | some l =>
    if q.lastTeam = team then
      { q with latches := listSet q.latches l.latch (mergeLanes l.mask (q.latches.getD l.latch []) l.vals) }
    else q
  | none => q

/-- Land the results of a flight that are due by the cycle given; `none` lands all. -/
def State.land (s : State) (k : Nat) (upTo : Option Nat) : State :=
  match s.flight k with
  | none => s
  | some f =>
    let due : Pending → Bool := fun p => match upTo with
      | some c => p.due ≤ c
      | none => true
    let ready := f.pend.filter due
    let f' := ready.foldl Flight.landOne { f with pend := f.pend.filter fun p => !due p }
    let q := ready.foldl (fun q p => q.landLatch f.latchTeam p) (s.quad f.quad)
    (s.putFlight f').putQuad q

/-! ### Chains, halts and resumption -/

def Chain.closed : Chain := ⟨false, 0, 0, 0, List.replicate 4 none⟩

/-- Where a trapped or halted flight resumes: at the chain head, and in a body at the head's step (03 R89, R94, R98). -/
def Flight.rewind (f : Flight) : Flight :=
  if f.chain.isOpen then
    { f with
      pc := f.chain.head
      macroStep := f.macroStep.map fun m => (m.1, f.chain.headStep)
      chain := Chain.closed }
  else f

/-- A halt takes effect between issues (03 R98). The flight will resume at the head of an open chain, which its saved context
names (14 R317 CHAIN). -/
def Flight.halt (f : Flight) : Flight := { f.rewind with halted := true, chain := f.chain }

/-- After a resume the last issue lies at least 8 cycles back, so that every fixed-latency result has reached its registers
(03 R76, R80); no latch is valid (R89). -/
def Flight.resume (f : Flight) : Flight :=
  { f.pend.foldl Flight.landOne f with pend := [], chain := Chain.closed, halted := false, lastIssue := none, waitCount := 0 }

/-- The flight becomes the youngest in its quadrant's placement order (03 R77). -/
def State.makeYoungest (s : State) (f : Flight) : State :=
  let q := s.quad f.quad
  s.putQuad { q with order := q.order.filter (· ≠ f.key) ++ [f.key] }

/-- Halt every flight that satisfies `p`. -/
def State.haltAll (s : State) (p : Flight → Bool) : State :=
  { s with flights := s.flights.map fun f => if p f && !f.ended then f.halt else f }

/-- The flights of a team. -/
def State.teamFlights (s : State) (t : Nat) : List Flight := s.flights.filter fun f => !f.role.isService && f.team = t

/-- The levels that make up a team: up to the lowest core-bound level, none above the flight when there is none (01 R17). -/
def Grid.teamTop (g : Grid) : Nat :=
  match (List.range g.levels.length).find? fun n => (g.levels.getD n (9, 1)).1 = 1 with
  | some n => n + 1
  | none => ((List.range g.levels.length).filter fun n => (g.levels.getD n (9, 1)).1 = 0).length

/-- The extent of level n, 1 when it is not declared (02 R62). -/
def Grid.ext (g : Grid) (n : Nat) : Nat := if n = 0 then 32 else (g.levels.getD (n - 1) (9, 1)).2

/-- Flights of a team: the product of the extents of the levels up to the team level. -/
def Grid.flights (g : Grid) : Nat := (List.range g.teamTop).foldl (fun p n => p * g.ext (n + 1)) 1

/-- The highest level bound to the core, the team level when none is above it (14 R308, R309). -/
def Grid.coreTop (g : Grid) : Nat :=
  (List.range g.levels.length).foldl (fun m n => if (g.levels.getD n (9, 1)).1 = 1 then n + 1 else m) g.teamTop

/-- Teams of a unit that is placed whole (14 R308, R309). -/
def Grid.group (g : Grid) : Nat :=
  (List.range (g.coreTop - g.teamTop)).foldl (fun p n => p * g.ext (g.teamTop + n + 1)) 1

/-- The team is on a core and nothing of it is held or saved elsewhere. -/
def Team.runs (t : Team) : Bool := t.state = .resident

/-- The team is on its core, or has retired. -/
def Team.onCore (t : Team) : Bool := t.state = .resident || t.state = .held || t.state = .retired

/-- The teams of the unit that is placed whole with this one (14 R308). -/
def State.groupOf (s : State) (t : Team) : List Team :=
  match s.grid t.grid with
  | some g => s.teams.filter fun u => u.grid = t.grid && u.index / g.group = t.index / g.group
  | none => [t]

/-- An owner's slice is running (17 R379): the partition's turn names its slot. -/
def State.inSlice (s : State) (vd : Nat) : Bool := (s.partOf vd).turn = some (s.owner vd).slot

/-- The owner runs, in its slice. -/
def State.ownerRuns (s : State) (vd : Nat) : Bool := (s.owner vd).state = 1 && s.inSlice vd && !(s.partOf vd).dead

/-- The team is in place, its unit with it, and its owner runs. -/
def State.teamRuns (s : State) (t : Team) : Bool := s.ownerRuns t.vd && t.runs && (s.groupOf t).all Team.onCore

/-- What lets a flight of an owner run at all: the owner runs, in its slice, and the flight's team is in place. -/
def State.mayRun (s : State) (f : Flight) : Bool :=
  if f.role.isService then s.ownerRuns f.vd
  else match s.team f.team with
    | some t => s.teamRuns t
    | none => false

/-- Resume every halted flight that satisfies `p` and may run; each counts as the youngest (03 R77). -/
def State.resumeAll (s : State) (p : Flight → Bool) : State :=
  (s.flights.filter fun f => p f && f.halted && !f.ended).foldl (fun s f =>
    if s.mayRun f then (s.putFlight f.resume).makeYoungest f else s) s

/-! ### Stalling an owner -/

/-- The stall record (15 R351). -/
def stallRecord (reason cause role lane : Nat) (pc : DWord) (addr cycle : Nat) : List Byte :=
  [BitVec.ofNat 8 reason, BitVec.ofNat 8 cause, BitVec.ofNat 8 role, BitVec.ofNat 8 lane, 0, 0, 0, 0]
    ++ leBytes 8 pc.toNat ++ leBytes 8 addr ++ leBytes 8 cycle ++ List.replicate 32 0

/-- Stall an owner (15 R351): its flights halt in place, the record is written, the virtual device and the physical
function are told. -/
def State.stallOwner (s : State) (vd reason cause role lane : Nat) (pc : DWord) (addr : Nat) : State :=
  let s : State := s.haltAll fun f => f.vd = vd
  let s : State := s.devWrite (bytesAt ((s.owner vd).onPort ((s.owner vd).vbase.toNat + 0x100)) (stallRecord reason cause role lane pc addr (s.now vd)))
  let s : State := s.modOwner vd fun o => { o with state := 2, reason := reason }
  (s.raiseEvent vd 0).tell (.stall vd)

/-! ### Taking a trap, and the return from one -/

/-- Trap codes (02 R74). -/
def Trap.illegalEncoding : Nat := 1
def Trap.illegalOperand : Nat := 2
def Trap.shapeViolation : Nat := 3
def Trap.macroNest : Nat := 4
def Trap.software : Nat := 5
def Trap.bufferInvalid : Nat := 6
def Trap.bufferBounds : Nat := 7
def Trap.misaligned : Nat := 8
def Trap.dataPoison : Nat := 9
def Trap.checksumMismatch : Nat := 10
def Trap.copyRights : Nat := 11
def Trap.balustrade : Nat := 12
def Trap.matrixFormat : Nat := 13
def Trap.landingUnknown : Nat := 14

/-- TSTEP of a flight that will resume in a macro body: [15] active, [10:5] body, [4:0] step (15 R334). -/
def stepCode (m : Option (Nat × Nat)) : BitVec 16 :=
  match m with
  | some (b, st) => BitVec.ofNat 16 (0x8000 + 32 * b + st)
  | none => 0

def stepOfCode (c : BitVec 16) : Option (Nat × Nat) :=
  if c.getLsbD 15 then some (bits c.toNat 10 5, bits c.toNat 4 0) else none

/-- A trap, taken: `lane` is the reported lane, `detail` the instruction that caused it, `skip` the bytes by which the
resume point lies past the instruction (TRAP alone). In lane mode the flight collapses (03 R95 to R98); in owner mode the
owner stalls with DOUBLE_TRAP (03 R99). -/
def State.takeTrap (s : State) (f : Flight) (code lane imm : Nat) (detail : DWord) (skip : Nat) : State :=
  if f.role.isOwner then
    s.stallOwner f.vd 1 code f.role.code f.role.ownerLane detail 0
  else
    let s : State := s.land f.key none
    match s.flight f.key with
    | none => s
    | some f =>
      let r := f.rewind
      let resume : DWord := if skip = 0 then r.pc else (f.pc + dw skip) &&& pcMask
      s.putFlight
        { r with
          role := .collapsed lane
          trap :=
            { cause := BitVec.ofNat 8 code, lane := BitVec.ofNat 5 lane, imm := BitVec.ofNat 8 imm, em := f.em,
              tepc := resume, tdpc := detail, tstep := stepCode r.macroStep }
          em := laneBit lane
          macroStep := none
          block := .none
          pc := (s.owner f.vd).tvec &&& pcMask }

/-- XRET, once its checks have passed (15 R357). -/
def Flight.xret (f : Flight) : Flight :=
  { f with
    role := .lane
    em := f.trap.em
    macroStep := stepOfCode f.trap.tstep
    pc := f.trap.tepc &&& pcMask
    chain := Chain.closed }

/-! ### Fresh flights and teams -/

/-- A flight in lane mode as placement makes it (14 R307; 03 R75), under a map. -/
def Flight.fresh (key team index vd core quad : Nat) (role : Role) (pc : DWord) (cm : List ShapeClass)
    (waits : List (BitVec 12)) : Flight where
  key := key
  team := team
  index := index
  vd := vd
  core := core
  quad := quad
  role := role
  pc := pc
  em := if role.isOwner then 1 else 0xFFFFFFFF
  preds := List.replicate 7 0
  flags := List.replicate 12 0
  fstat := 0
  regs := []
  classMap := cm
  waitTable := waits
  chain := Chain.closed
  macroStep := none
  bars := List.replicate 7 ⟨none, 0⟩
  lastIssue := none
  waitCount := 0
  block := .none
  yielding := none
  halted := false
  ended := false
  trap := ⟨0, 0, 0, 0, 0, 0, 0⟩
  pend := []
  early := []
  poisoned := []

/-- A team as placement makes it (14 R307; 08 R197). -/
def Team.fresh (key grid index vd core variant : Nat) : Team where
  key := key
  grid := grid
  index := index
  vd := vd
  core := core
  variant := variant
  state := .resident
  handle := 0
  base := 0
  scratch := []
  granules := []
  windows := []
  batches := List.replicate 8 0
  request := none
  issueTime := 0
  blockedFor := 0
  spills := []
  tokenSeq := 0
  bodies := []
  reason := 0
  mx := none

/-! ### Keys -/

/-- A fresh key for a flight, an operation or a team. -/
def State.freshKey (s : State) : State := { s with nextKey := s.nextKey + 1 }

/-- The next place of the free values (log 9). -/
def State.drawn (s : State) : State := { s with free := s.free + 1 }

end Sys2Proof.Machine
end

