-- ==== Sys2Proof/Machine/Operands.lean ====
section
/-!
DEFINITION. Operands at issue: what stops an instruction, the checks of register and predicate fields (02 R45 to R47),
reading registers, pairs, latches and predicates with the freedom of early reads (03 R80, R83, R86), and writing a result
under a register's shape class (04 R110 to R113).
-/

namespace Sys2Proof.Machine

/-- What keeps an instruction from its effect. -/
inductive Stop where
  /-- A trap: its code and the lane that raises it (none: the lowest active lane, R96). -/
  | trap (code : Nat) (lane : Option Nat)
  /-- The instruction stays at issue, or blocks; it runs again when the wait is over. -/
  | block (b : Block)
  /-- An access of the device's own at issue is held by a transfer of ownership (19 R407); the instruction is tried again. -/
  | hold (as : List Nat)
  /-- TRAP: the resume point lies past the instruction (03 R104). -/
  | software (imm : Nat)
  /-- The owner stalls with that reason and address (15 R338, R328). -/
  | stall (reason addr : Nat)
  deriving DecidableEq, Repr

abbrev Chk (α : Type) := Except Stop α

def illegalOperand {α : Type} : Chk α := .error (.trap Trap.illegalOperand none)
def illegalEncoding {α : Type} : Chk α := .error (.trap Trap.illegalEncoding none)

/-- Pass when the condition holds, else trap ILLEGAL_OPERAND. -/
def need (c : Bool) : Chk Unit := if c then .ok () else illegalOperand

/-- Run `f` on each element, the first stop winning. -/
def chkAll {α β : Type} (f : α → Chk β) : List α → Chk (List β)
  | [] => .ok []
  | a :: as =>
    match f a with
    | .error e => .error e
    | .ok b =>
      match chkAll f as with
      | .error e => .error e
      | .ok bs => .ok (b :: bs)

/-- What an instruction sees when it issues: the state (its quadrant's latches already cleared if the team changed, R87),
its flight, its fields with parameter slots replaced, its row, its length and the partition's cycle. -/
structure Ctx where
  s   : State
  f   : Flight
  x   : XF
  op9 : Nat
  len : Nat
  now : Nat
  deriving DecidableEq, Repr

def Ctx.owner (c : Ctx) : Bool := c.f.role.isOwner
def Ctx.team (c : Ctx) : Option Team := c.s.team c.f.team
def Ctx.variant (c : Ctx) : Option Variant := c.team.bind c.s.variantOf

/-! ### Macro parameters -/

/-- Fields that name registers, in which a parameter slot may stand (02 R45, R61). -/
def fieldIsReg : FieldUse → Bool
  | .src | .srcPair | .dst | .dstPair | .srcT | .dstT | .cvtSrc | .cvtDst | .cvtSrcI | .cvtDstI | .atomD | .group _ _ => true
  | _ => false

/-- A parameter slot replaced by the field of the MCALL that it names: MP0 its b, MP1 its c, MP2 its d (02 R45, 03 R93). -/
def substField (u : FieldUse) (mcall : XF) (v : BitVec 8) : BitVec 8 :=
  if fieldIsReg u then
    if v = 244 then mcall.b else if v = 245 then mcall.c else if v = 246 then mcall.d else v
  else v

def substParams (r : Row) (mcall : XF) (x : XF) : XF :=
  { x with
    d := substField r.d mcall x.d
    a := substField r.a mcall x.a
    b := substField r.b mcall x.b
    c := substField r.c mcall x.c }

/-! ### Field checks -/

def Flight.cls (f : Flight) (r : Nat) : ShapeClass := f.classMap.getD r .absent

def Flight.present (f : Flight) (r : Nat) : Bool := r < 240 && f.cls r ≠ .absent

/-- A source register field (02 R45). -/
def srcOk (f : Flight) (v : Nat) : Bool := f.present v || (240 ≤ v && v ≤ 243) || v = 248 || v = 249

/-- A destination register field (02 R45). -/
def dstOk (f : Flight) (v : Nat) : Bool := f.present v || v = 248

/-- A pair field (02 R47). -/
def pairOk (f : Flight) (v : Nat) : Bool := v = 248 || (v % 2 = 0 && f.present v && f.present (v + 1))

/-- A 64-bit type in an integer modifier byte (02 R50). -/
def is64 (c : Nat) : Bool := c % 16 = 6 || c % 16 = 7

/-- A 64-bit integer source type in a conversion's type byte (06 R161). -/
def srcIs64 (b : Nat) : Bool := b = 6 || b = 7

/-- A source type byte that names F16X2 or BF16X2 (02 R51). -/
def packedByte (b : Nat) : Bool := b = 0x15 || b = 0x16

/-- CVT.F to a packed destination from the F32 pair Va:Va+1 (06 R161). -/
def f32Pair (x : XF) : Bool := x.b = 0x10 && (x.c.toNat % 16 = 5 || x.c.toNat % 16 = 6)

/-- A field's value names a register or predicate that is there, ILLEGAL_OPERAND otherwise (02 R45 to R47, R55, R58, R62). -/
def fieldOk (f : Flight) (x : XF) (u : FieldUse) (v : Nat) : Bool :=
  match u with
  | .src => srcOk f v
  | .dst => dstOk f v
  | .srcPair | .dstPair => pairOk f v
  | .srcT => if is64 x.c.toNat then pairOk f v else srcOk f v
  | .dstT => if is64 x.c.toNat then pairOk f v else dstOk f v
  | .pred => v < 8
  | .below n => v < n
  | .cvtSrc => if srcIs64 x.b.toNat || f32Pair x then pairOk f v else srcOk f v
  | .cvtSrcI => if srcIs64 x.b.toNat then pairOk f v else srcOk f v
  | .cvtDst => if packedByte x.b.toNat && x.c.toNat % 16 = 0 then pairOk f v else dstOk f v
  | .cvtDstI => if is64 x.c.toNat then pairOk f v else dstOk f v
  | .atomD =>
    let op := x.c.toNat / 8
    if op = 9 || op = 11 || op = 12 then pairOk f v else dstOk f v
  | .group n even =>
    (!even || v % 2 = 0) && v + n ≤ 240 && (List.range n).all fun i => f.cls (v + i) = .general
  | .selector => v < 0x0D
  | .level => x.a.toNat = 2 || x.a.toNat = 3 → v < 8
  | _ => true

/-- All register and predicate fields of an instruction (02 R49). GETSR of SR.CYCLE names a pair (02 R62). -/
def fieldsOk (r : Row) (f : Flight) (x : XF) : Bool :=
  fieldOk f x r.d x.d.toNat && fieldOk f x r.a x.a.toNat && fieldOk f x r.b x.b.toNat && fieldOk f x r.c x.c.toNat
    && (match r.a with
        | .selector => x.a ≠ 0x0A || pairOk f x.d.toNat
        | _ => true)

/-! ### Reading -/

/-- A free choice of the run: `slot` tells the operands of one instruction apart (log 9). -/
def Ctx.choose (c : Ctx) (slot i : Nat) : Bool := Config.freeBit c.s.free (65536 * slot + i)

/-- One pending result that has not landed: in each lane it writes, the old value or the new (03 R80). -/
def Ctx.early (c : Ctx) (slot : Nat) (put : Nat → Option (Word × Lanes)) (ps : List Pending) (i : Nat) (v : Lanes) : Lanes :=
  match ps with
  | [] => v
  | p :: ps =>
    let v := match put i with
      | none => v
      | some (m, new) => Lanes.tab fun l =>
          if m.getLsbD l && (p.due ≤ c.now || c.choose slot (32 * i + l)) then new.at l else v.at l
    c.early slot put ps (i + 1) v

/-- The write of register `r` in the `i`th pending result. -/
def putOf (ps : List Pending) (r i : Nat) : Option (Word × Lanes) :=
  (ps[i]?).bind fun p => (kget RegPut.reg r p.regs).map fun q => (q.mask, q.vals)

/-- Variable-latency results that have been produced and not landed: in each lane the old value or the new (03 R83). -/
def Ctx.produced (c : Ctx) (slot r : Nat) : List EarlyResult → Nat → Lanes → Lanes
  | [], _, v => v
  | e :: es, i, v =>
    let v := match kget Prod.fst r e.puts with
      | none => v
      | some p => Lanes.tab fun l => if e.mask.getLsbD l && c.choose slot (2048 + 32 * i + l) then p.2.at l else v.at l
    c.produced slot r es (i + 1) v

/-- Register `r` of the flight: its class's value, under early reads of results that have not landed (03 R80, R83). -/
def Ctx.vreg (c : Ctx) (slot r : Nat) : Lanes :=
  c.produced slot r c.f.early 0 (c.early slot (putOf c.f.pend r) c.f.pend 0 (c.f.reg r).lanes)

/-- The position of this instruction in its chain, none outside one (03 R84). -/
def Ctx.pos (c : Ctx) : Option Nat :=
  if c.f.chain.isOpen then some c.f.chain.pos else if c.x.chain then some 0 else none

/-- Latch `j`: in the lanes that the valid writer wrote its result, or before its latency has passed what the latch holds;
elsewhere zero or what the latch holds (03 R80, R86; 07 R168). -/
def Ctx.latch (c : Ctx) (slot j : Nat) : Lanes :=
  let held := (c.s.quad c.f.quad).latches.getD j []
  let latchPut (i : Nat) : Option (Word × Lanes) := (c.f.pend[i]?).bind fun p => p.latch.bind fun l =>
    if l.latch = j then some (l.mask, l.vals) else none
  let cur := c.early slot latchPut c.f.pend 0 held
  let writer := if c.f.chain.isOpen then c.f.chain.writers.getD j none else none
  let other (l : Nat) : Word := if c.choose slot (32768 + l) then cur.at l else 0
  match writer with
  | none => Lanes.tab other
  | some w => Lanes.tab fun l =>
    if w.mask.getLsbD l then if w.due ≤ c.now || c.choose slot (32800 + l) then w.vals.at l else cur.at l
    else other l

/-- A source register field (02 R45). -/
def Ctx.src (c : Ctx) (slot : Nat) (v : BitVec 8) : Lanes :=
  let n := v.toNat
  if n < 240 then c.vreg slot n
  else if n ≤ 243 then c.latch slot (n - 240)
  else if n = 249 then Lanes.tab wd
  else Lanes.tab fun _ => 0

def Ctx.srcA (c : Ctx) : Lanes := c.src 1 c.x.a
def Ctx.srcB (c : Ctx) : Lanes := c.src 2 c.x.b
def Ctx.srcC (c : Ctx) : Lanes := c.src 3 c.x.c
def Ctx.srcD (c : Ctx) : Lanes := c.src 0 c.x.d

/-- The odd half of a pair; VZ reads a 64-bit zero (02 R47). -/
def Ctx.srcHi (c : Ctx) (slot : Nat) (v : BitVec 8) : Lanes :=
  if v.toNat < 240 then c.vreg (slot + 4) (v.toNat + 1) else Lanes.tab fun _ => 0

/-- A pair in one lane. -/
def Ctx.pairAt (c : Ctx) (slot : Nat) (v : BitVec 8) (l : Nat) : DWord :=
  pair64 ((c.src slot v).at l) ((c.srcHi slot v).at l)

/-- A pair in every lane. -/
def Ctx.pairs (c : Ctx) (slot : Nat) (v : BitVec 8) : List DWord :=
  let lo := c.src slot v
  let hi := c.srcHi slot v
  laneIds.map fun l => pair64 (lo.at l) (hi.at l)

/-- The lowest active lane's pair: what a whole-flight instruction reads. -/
def Ctx.low (c : Ctx) : Nat := lowestLane c.f.em
def Ctx.pairLow (c : Ctx) (slot : Nat) (v : BitVec 8) : DWord := c.pairAt slot v c.low

/-- Predicate `n`, under early reads (03 R80). -/
def Ctx.predOf (c : Ctx) (slot n : Nat) : Word :=
  if n = 7 then 0xFFFFFFFF
  else
    let put (i : Nat) : Option (Word × Lanes) := (c.f.pend[i]?).bind fun p =>
      (kget PredPut.pred n p.preds).map fun q => (q.mask, Lanes.tab fun l => if q.bits.getLsbD l then 1 else 0)
    let old := Lanes.tab fun l => if (c.f.pred n).getLsbD l then 1 else 0
    let v := c.early slot put c.f.pend 0 old
    maskOf fun l => v.at l = 1

/-! ### Writing under a shape class -/

/-- The flight as it will stand at cycle `t`, with the results due by then landed. -/
def Flight.settled (f : Flight) (t : Nat) : Flight := (f.pend.filter fun p => p.due ≤ t).foldl Flight.landOne f

/-- WriteShaped (04 R111, R112): the register as its class stores the formed result, or the lowest active lane that departs
from the class, none where only inactive lanes depart. `stride` is the stored stride. -/
def formShape (cls : ShapeClass) (stride : Word) (mask : Word) (res : Lanes) : Except (Option Nat) RegVal :=
  match cls with
  | .general => .ok (.general res)
  | .uniform =>
    match laneIds.filter fun l => res.at l ≠ res.at 0 with
    | [] => .ok (.uniform (res.at 0))
    | bad => .error (bad.filter fun l => mask.getLsbD l).head?
  | .affine =>
    match lanesOf mask with
    | [] => .ok (.affine 0 0)
    | l0 :: rest =>
      let v0 := res.at l0
      let fit (st : Word) : Except (Option Nat) RegVal :=
        let b := v0 - wd l0 * st
        match laneIds.filter fun l => res.at l ≠ b + wd l * st with
        | [] => .ok (.affine b st)
        | bad => .error (bad.filter fun l => mask.getLsbD l).head?
      match rest with
      | [] => fit stride
      | l1 :: _ =>
        let δ := (res.at l1 - v0).toInt
        let k : Int := l1 - l0
        if δ % k = 0 then fit (BitVec.ofInt 32 (δ / k)) else .error (some l1)
  | .absent => .error none

/-- One register's shape with the reported lane of its SHAPE_VIOLATION: the lowest active lane when only inactive ones depart
(04 R112). -/
def fitShape (cls : ShapeClass) (stride : Word) (mask : Word) (res : Lanes) : Except Nat RegVal :=
  match formShape cls stride mask res with
  | .ok v => .ok v
  | .error l => .error (l.getD (lowestLane mask))

/-- The lower of two departing lanes. -/
def lowerLane : Option Nat → Option Nat → Option Nat
  | some a, some b => some (min a b)
  | some a, none => some a
  | none, b => b

/-- The stride of an affine register. -/
def RegVal.stride : RegVal → Word
  | .affine _ st => st
  | _ => 0

/-- One 32-bit result under the class of register `r`, which it reaches at cycle `t` (04 R111): active lanes take the new
value, the others keep what they then read; no write and no check when no lane is active (R91). -/
def Ctx.putReg (c : Ctx) (t r : Nat) (mask : Word) (new : Lanes) : Except (Option Nat) (List RegPut) :=
  if mask = 0 then .ok []
  else
    let old := (c.f.settled t).reg r
    match formShape (c.f.cls r) old.stride mask (mergeLanes mask old.lanes new) with
    | .ok st => .ok [⟨r, mask, new, st⟩]
    | .error lane => .error lane

/-- A SHAPE_VIOLATION at the lowest active lane that departs, else at the lowest active lane (04 R112). -/
def departs {α : Type} (mask : Word) (lane : Option Nat) : Chk α :=
  .error (.trap Trap.shapeViolation (some (lane.getD (lowestLane mask))))

/-- A destination field: VZ and WS = 1 write no register (02 R44, R45); the two halves of a pair are checked together
(04 R112, R113). -/
def Ctx.putDst (c : Ctx) (t : Nat) (mask : Word) (lo : Lanes) (hi : Option Lanes) : Chk (List RegPut) :=
  let d := c.x.d.toNat
  if c.x.ws || 240 ≤ d then .ok []
  else
    let high : Except (Option Nat) (List RegPut) := match hi with
      | none => .ok []
      | some h => c.putReg t (d + 1) mask h
    match c.putReg t d mask lo, high with
    | .ok p, .ok q => .ok (p ++ q)
    | .error a, .ok _ => departs mask a
    | .ok _, .error b => departs mask b
    | .error a, .error b => departs mask (lowerLane a b)

end Sys2Proof.Machine
end

