-- ==== Sys2Proof/Machine/Flags.lean ====
section
/-!
DEFINITION. The FSTAT bits (05 R145), and how an instruction gathers them from its active lanes (05 R147).
-/

namespace Sys2Proof.Machine

/-- A set of FSTAT bits. -/
abbrev Flags := BitVec 6

def Fl.none : Flags := 0
def Fl.nv : Flags := 1
def Fl.dz : Flags := 2
def Fl.of : Flags := 4
def Fl.uf : Flags := 8
def Fl.nx : Flags := 16
def Fl.sb : Flags := 32

/-- The bits raised in the lanes of the mask (05 R147: under EM zero, none). -/
def Flags.gather (mask : Word) (g : Nat → Flags) : Flags := (lanesOf mask).foldl (fun a l => a ||| g l) Fl.none

end Sys2Proof.Machine
end

