-- ==== Sys2Proof/Machine/Translate.lean ====
section
/-!
DEFINITION. Translation at the L1 TLB, the balustrade, and fetching an instruction's bytes (15 R327, R337 to R340; 08 R192).
-/

namespace Sys2Proof.Machine

/-! ### The balustrade -/

/-- A balustrade entry's range when it is valid, with UC (15 R337). -/
def balRange (e : DWord) : Option (Nat × Nat × Bool) :=
  let n := e.toNat
  if n % 2 = 1 then some (bits n 63 28 * 65536, bits n 27 4 * 65536, bits n 1 1 = 1) else none

/-- The lowest-numbered valid entry that contains a physical range whole (15 R337): its UC; none outside the balustrade. -/
def Owner.balustrade (o : Owner) (a n : Nat) : Option Bool :=
  let a := if 2 ^ 64 ≤ a then a - 2 ^ 64 else a
  (o.bal.filterMap balRange).findSome? fun (b, sz, uc) => if b ≤ a && a + n ≤ b + sz then some uc else none

/-- A range inside the vestibule. -/
def Owner.inVestibule (o : Owner) (a n : Nat) : Bool := o.vbase.toNat ≤ a && a + n ≤ o.vlimit.toNat

/-! ### TLBs -/

def TlbEntry.covers (e : TlbEntry) (vd asid va : Nat) : Bool :=
  e.vd = vd && e.asid = asid && e.va ≤ va && va < e.va + e.size

/-- The physical address of a virtual one that the entry covers. -/
def TlbEntry.phys (e : TlbEntry) (va : Nat) : Nat := e.pa + (va - e.va)

/-- KINDs 1, 2, 5, 7 and 9 need W, KIND 3 needs X (15 R340). -/
def AccessKind.needsW : AccessKind → Bool
  | .store | .atomic | .copyWrite | .stashFill | .matrixWrite => true
  | _ => false

def AccessKind.allowed (k : AccessKind) (e : TlbEntry) : Bool := (!k.needsW || e.w) && (k ≠ .fetch || e.x)

def AccessKind.code : AccessKind → Nat
  | .load => 0 | .store => 1 | .atomic => 2 | .fetch => 3 | .copyRead => 4 | .copyWrite => 5 | .matrixRead => 6
  | .stashFill => 7 | .record => 8 | .matrixWrite => 9

/-- The entry of one TLB (a core's, a hall's, a bank's) that serves an address. -/
def tlbFind (tlb : List (Nat × TlbEntry)) (unit vd asid va : Nat) : Option TlbEntry :=
  (tlb.find? fun p => p.1 = unit && p.2.covers vd asid va).map Prod.snd

/-- The L3 banks of an owner's partition, by channel group, and the one that serves an address (15 R339). -/
def State.banksOf (s : State) (vd : Nat) : List Nat := (s.partOf vd).groups
def State.bankOf (s : State) (vd va : Nat) : Nat :=
  let bs := s.banksOf vd
  bs.getD (Config.bankHash bs.length (va / 4096) % bs.length) 0

/-- The entry with which a core's access to an address would go on without a walk: in its L1, its hall's L2 or the L3 bank. -/
def State.entryFor (s : State) (core vd asid va : Nat) : Option TlbEntry :=
  match tlbFind s.l1tlb core vd asid va with
  | some e => some e
  | none =>
    match tlbFind s.l2tlb (hallOfCore core) vd asid va with
    | some e => some e
    | none => tlbFind s.l3tlb (s.bankOf vd va) vd asid va

/-- The ASID of a flight: its grid's, or the owner's for a service flight. -/
def State.asidOf (s : State) (f : Flight) : Nat :=
  if f.role.isService then (s.owner f.vd).asid.toNat % 65536
  else match (s.team f.team).bind fun t => s.grid t.grid with
    | some g => g.asid
    | none => 0

/-- A physical byte is accessed under policy 4: by the balustrade entry that holds it (R337), or as host memory on a port in
plain PCIe mode (19 R396). -/
def State.uncachedAt (s : State) (vd pa : Nat) : Bool :=
  let o := s.owner vd
  o.balustrade pa 1 = some true || (2 ^ 51 ≤ pa && s.pcie.getD o.port false)

/-- Translation in a core's L1 TLB; a miss, or an entry that lacks the attribute, holds the instruction (08 R192). The
result is the physical address and UC. -/
def State.l1Translate (s : State) (core vd asid va : Nat) (kind : AccessKind) (lane : Nat) : Chk (Nat × Bool) :=
  match tlbFind s.l1tlb core vd asid va with
  | some e => if kind.allowed e then .ok (e.phys va, e.uc || s.uncachedAt vd (e.phys va)) else .error (.block (.lookup va kind lane))
  | none => .error (.block (.lookup va kind lane))

/-- A flight's translation. -/
def State.translate (s : State) (f : Flight) (va : Nat) (kind : AccessKind) (lane : Nat) : Chk (Nat × Bool) :=
  s.l1Translate f.core f.vd (s.asidOf f) (va % vaMod) kind lane

/-- The physical addresses of consecutive virtual bytes, and whether any is uncached. -/
def State.translateRange (s : State) (f : Flight) (va n : Nat) (kind : AccessKind) (lane : Nat) : Chk (List (Nat × Bool)) :=
  chkAll (fun i => s.translate f (va + i) kind lane) (List.range n)

/-! ### Fetch -/

/-- Instruction bytes at an address of the flight: physical, inside the vestibule and the balustrade, in owner mode; translated
with X in lane mode (15 R327, R338). -/
def State.fetchAt (s : State) (f : Flight) (a n : Nat) : Chk (List Byte) :=
  if f.role.isOwner then
    let o := s.owner f.vd
    if o.inVestibule a n then (if (o.balustrade a n).isSome then .ok (s.bytes (o.onPort a) n) else .error (.stall 2 a))
    else .error (.stall 6 (if o.inVestibule a 1 then o.vlimit.toNat else a))
  else
    match s.translateRange f a n .fetch (lowestLane f.em) with
    | .error e => .error e
    | .ok ps => .ok (ps.map fun p => s.readByte (if p.2 then 4 else 0) p.1)

/-- The physical bytes that a fetch of `n` bytes at the PC reads. -/
def State.fetchAddrs (s : State) (f : Flight) (n : Nat) : List Nat :=
  if f.role.isOwner then (List.range n).map fun i => (s.owner f.vd).onPort f.pc.toNat + i
  else match s.translateRange f f.pc.toNat n .fetch 0 with
    | .ok ps => ps.map Prod.fst
    | .error _ => []

/-- The instruction's bytes: two, then the rest of its length (02 R33). -/
def State.fetchWord (s : State) (f : Flight) : Chk (List Byte) :=
  match s.fetchAt f f.pc.toNat 2 with
  | .error e => .error e
  | .ok b =>
    let n := lengthOf (b.headD 0)
    if n = 2 then .ok b
    else
      match s.fetchAt f (f.pc.toNat + 2) (n - 2) with
      | .error e => .error e
      | .ok r => .ok (b ++ r)

end Sys2Proof.Machine
end

