-- ==== Sys2Proof/Machine/Xfer.lean ====
section
/-!
DEFINITION. Exposed memory and its ownership as device accesses meet it (19 R405 to R408; 20 R412).
-/

namespace Sys2Proof.Machine

/-- The exposure's ranges in order, base and bytes; an entry outside every valid balustrade entry acts as size 0 (R405). -/
def Owner.exposure (o : Owner) : List (Nat × Nat) :=
  o.expose.map fun e =>
    let b := bits e.1.toNat 51 21 * 2 ^ 21
    let n := e.2.toNat * 2 ^ 21
    if (o.balustrade b n).isSome then (o.onPort b, n) else (o.onPort b, 0)

def rangesSize (rs : List (Nat × Nat)) : Nat := rs.foldl (fun n r => n + r.2) 0

/-- The physical address of an exposure byte. -/
def rangesAt : List (Nat × Nat) → Nat → Option Nat
  | [], _ => none
  | (b, n) :: rs, o => if o < n then some (b + o) else rangesAt rs (o - n)

/-- The exposure offset of a physical address. -/
def rangesOff : List (Nat × Nat) → Nat → Nat → Option Nat
  | [], _, _ => none
  | (b, n) :: rs, a, acc => if b ≤ a && a < b + n then some (acc + (a - b)) else rangesOff rs a (acc + n)

def XferEntry.covers (e : XferEntry) (off : Nat) : Bool := e.offset ≤ off && off < e.offset + e.len

/-- The owner and the entry that a physical byte lies in. -/
def State.entryOf (s : State) (a : Nat) : Option (Nat × XferEntry) :=
  s.owners.findSome? fun o =>
    (rangesOff o.exposure a 0).bind fun off => (o.entries.find? fun e => e.covers off).map fun e => (o.vd, e)

def State.putEntry (s : State) (vd : Nat) (e : XferEntry) : State :=
  s.modOwner vd fun o => { o with entries := kset XferEntry.offset e o.entries }

/-- The 64-byte lines of an entry, by their exposure offsets: what a transfer to A invalidates at the host (R407). -/
def XferEntry.hostLines (e : XferEntry) : List Nat := (List.range (e.len / 64)).map fun i => e.offset + 64 * i

/-- Each arrival of such an access is one of its own; the others are found again by their keys. -/
def Held.repeats : Held → Bool
  | .host _ | .bar2 _ | .post _ _ _ => true
  | _ => false

/-- A device access, an operation `w`, to these bytes: held, with the state that records it, when one lies in an entry that
is P or in transfer; it causes the transfer to A (R407). An access that is owed its turn is not held (R408). -/
def State.devHold (s : State) (as : List Nat) (w : Held) : Option State :=
  match (as.filterMap s.entryOf).find? fun p => (p.2.isP || p.2.transfer.isSome) && !p.2.owed.contains w with
  | none => none
  | some (vd, e) =>
    let e : XferEntry := if e.held.contains w && !w.repeats then e else { e with held := e.held ++ [w] }
    some (s.putEntry vd { e with transfer := some (e.transfer.getD (false, e.hostLines)) })

/-- A write of the device's own for an owner, at .PA, held while the host has the bytes (19 R407). -/
def State.heldPost (s : State) (vd a : Nat) (bs : List Byte) : State :=
  (s.devHold ((List.range bs.length).map fun i => a + i) (.post vd a bs)).getD (s.cohWrite vd .llc (bytesAt a bs))

def Held.isCxl : Held → Bool
  | .host _ => true
  | _ => false

/-- The first held access begins the next transfer, once no access is owed its turn (R408). -/
def XferEntry.next (e : XferEntry) : XferEntry :=
  match e.held with
  | [] => e
  | w :: _ =>
    if e.owed ≠ [] || e.transfer.isSome then e
    else { e with transfer := some (if w.isCxl then (true, []) else (false, e.hostLines)) }

/-- The access has been performed, so that the next transfer may begin. -/
def State.served (s : State) (w : Held) : State :=
  { s with owners := s.owners.map fun o => { o with
    entries := o.entries.map fun e => if e.owed.contains w then { e with owed := e.owed.filter (· ≠ w) }.next else e } }

end Sys2Proof.Machine
end

