-- ==== Sys2Proof/Machine/Issue.lean ====
section
/-!
DEFINITION. Issue: the decode-time checks in their order (02 R49), what a stopped instruction does to its flight, and the
bookkeeping of one that issues: PC and macro step, chain position, latch, last issue, wait count, set flag (03 R79 to R94).
Every meaning of a fetched instruction is one of the four shapes at the end.
-/

namespace Sys2Proof.Machine

/-- What a meaning answers. -/
abbrev Result := Host.Outcome State Fault Refusal

/-- Where an instruction leads. -/
inductive Next where
  /-- The next step of the body, or past the instruction. -/
  | seq
  | goto (pc : DWord)
  /-- The first step of a macro body (03 R93). -/
  | body (n : Nat)
  /-- The meaning has set the PC itself. -/
  | stay
  deriving DecidableEq, Repr

/-- The op9 cells of the control class (02 R54). -/
def isControl (op9 : Nat) : Bool := op9 < 0x40

/-- When the quadrant issues a flight of another team, every latch is cleared first (03 R87). -/
def State.clearLatches (s : State) (f : Flight) : State :=
  let q := s.quad f.quad
  if q.lastTeam = f.latchTeam then s
  else s.putQuad { q with latches := List.replicate 4 (Lanes.tab fun _ => 0), lastTeam := f.latchTeam }

/-- The instruction's fields, with parameter slots replaced inside a body by the MCALL's at the PC (03 R93). -/
def State.fieldsOf (s : State) (f : Flight) (v : View) : Chk XF :=
  match f.macroStep with
  | none => .ok v.x
  | some _ =>
    match s.fetchAt f f.pc.toNat 8 with
    | .error e => .error e
    | .ok bs => .ok (substParams (rowOf v.op9) (XF.ofWord (dw (leNat bs))) v.x)

/-- The checks of R49 after the cell itself, the first that applies winning. -/
def gate (v : View) (s : State) (f : Flight) : Chk Ctx :=
  let r := rowOf v.op9
  if r.owner && !f.role.isOwner then illegalEncoding
  else if f.macroStep.isSome && (isControl v.op9 || v.op9 = 0x183) then .error (.trap Trap.macroNest none)
  else
    match s.fieldsOf f v with
    | .error e => .error e
    | .ok x =>
      if !v.encOk then illegalEncoding
      else if !v.opndOk || !fieldsOk r f x then illegalOperand
      else .ok ⟨(s.clearLatches f).drawn, f, x, v.op9, v.len, s.now f.vd⟩

/-- Another flight of the quadrant has issued, which ends the wait of a YIELD (03 R105). -/
def State.endYields (s : State) (f : Flight) : State :=
  { s with flights := s.flights.map fun g => if g.quad = f.quad && g.key ≠ f.key then { g with yielding := none } else g }

/-- The owner's progress count returns to 0 (15 R349). -/
def State.progressed (s : State) (vd : Nat) : State :=
  if (s.owner vd).progress = 0 then s else s.modOwner vd fun o => { o with progress := 0 }

/-- What an issue brings about for others: the waits of YIELD end, and a lane-mode flight's issue is its owner's progress
(03 R105; 15 R349). -/
def State.tookSlot (s : State) (f : Flight) : State :=
  if f.role.isOwner then s.endYields f else (s.endYields f).progressed f.vd

/-- A wait at issue for translation keeps an open chain; any other block breaks it (03 R88). -/
def Block.atIssue : Block → Bool
  | .lookup _ _ _ | .walk _ _ _ => true
  | _ => false

/-- The flight blocks on its instruction, which runs again when the wait is over. A block that is not a wait at issue
takes the issue slot and breaks the chain. -/
def Flight.blockOn (f : Flight) (now : Nat) (b : Block) : Flight :=
  if b.atIssue then { f with block := b }
  else { f with block := b, chain := Chain.closed, lastIssue := some now, waitCount := 0, yielding := none }

/-- The machine with that flight blocked. -/
def State.blockFlight (s : State) (f : Flight) (b : Block) : State :=
  let s' : State := s.putFlight (f.blockOn (s.now f.vd) b)
  if b.atIssue then s' else (s'.clearLatches f).tookSlot f

/-- What becomes of a flight whose instruction stops. -/
def State.stopped (s : State) (f : Flight) (len : Nat) (st : Stop) : State :=
  match st with
  | .trap code lane => s.takeTrap f code (lane.getD (lowestLane f.em)) 0 f.pc 0
  | .software imm => s.takeTrap f Trap.software (lowestLane f.em) imm f.pc len
  | .block b => s.blockFlight f b
  | .hold as => (s.devHold as (.op f.key)).getD s
  | .stall reason addr => s.stallOwner f.vd reason 0 f.role.code f.role.ownerLane f.pc addr

/-- An instruction at issue: the checks, then its own effect, or what stops it. -/
def issue (v : View) (s : State) (body : Ctx → Chk State) : Result :=
  match s.curFlight with
  | none => .fault .noFlight
  | some f =>
    match gate v s f with
    | .error st => .next (s.stopped f v.len st)
    | .ok c =>
      match body c with
      | .error st => .next (s.stopped f v.len st)
      | .ok s' => .next s'

/-! ### Bookkeeping -/

/-- The PC and macro step after the instruction. -/
def Flight.advance (f : Flight) (s : State) (len : Nat) (nx : Next) : Flight :=
  match nx with
  | .goto pc => f.setPC pc
  | .body n => { f with macroStep := some (n, 0) }
  | .stay => f
  | .seq =>
    match f.macroStep with
    | none => f.setPC (f.pc + dw len)
    | some (b, st) =>
      if st + 1 < ((s.body f b).getD []).length then { f with macroStep := some (b, st + 1) }
      else { f with macroStep := none }.setPC (f.pc + 8)

/-- The instruction is the last step of its body (03 R84, R93). -/
def Ctx.lastStep (c : Ctx) : Bool :=
  match c.f.macroStep with
  | none => false
  | some (b, st) => !(st + 1 < ((c.s.body c.f b).getD []).length)

/-- Instructions that close an open chain whatever their chain bit: the control class, LAND, and XRET, which enters lane mode
with the chain closed (03 R84; 14 R322; 15 R357). -/
def closesChain (op9 : Nat) : Bool := isControl op9 || op9 = 0x183 || op9 = 0x1A4

/-- The chain after the instruction (03 R84): `latched` is the fixed-latency register result it produces. -/
def Ctx.chainAfter (c : Ctx) (latched : Option Writer) : Chain :=
  match c.pos with
  | none => Chain.closed
  | some p =>
    if !c.x.chain || c.len = 4 || closesChain c.op9 || p = 7 || c.lastStep then Chain.closed
    else
      let base : Chain := if c.f.chain.isOpen then c.f.chain
        else ⟨true, c.f.pc, (c.f.macroStep.getD (0, 0)).2, 0, List.replicate 4 none⟩
      { base with
        pos := p + 1
        writers := match latched with
          | some w => listSet base.writers (p % 4) (some w)
          | none => base.writers }

/-- The set flag of a kind-V instruction (02 R42). -/
def Ctx.flag (c : Ctx) : Option Nat := if c.x.set.toNat < 12 then some c.x.set.toNat else none

/-- The flight after its instruction has issued. -/
def Ctx.issued (c : Ctx) (s : State) (nx : Next) (latched : Option Writer) (f : Flight) : Flight :=
  let f := f.advance s c.len nx
  let f := match c.flag with
    | some n => f.addFlag n
    | none => f
  { f with chain := c.chainAfter latched, lastIssue := some c.now, waitCount := 0, block := .none, yielding := none }

/-- The bookkeeping of an issued instruction over the state its effect left. -/
def Ctx.finish (c : Ctx) (s : State) (nx : Next) (latched : Option Writer) : State :=
  (s.modFlight c.f.key fun f => c.issued s nx latched f).tookSlot c.f

/-! ### The four shapes -/

/-- A fixed-latency register result: its low and high words, the lanes it writes, its FSTAT bits. -/
structure FixedOut where
  lo    : Lanes
  hi    : Option Lanes
  mask  : Word
  flags : Flags
  deriving DecidableEq, Repr

/-- The latch write of an instruction in a chain (03 R85): the low word of a pair. -/
def Ctx.latchPut (c : Ctx) (mask : Word) (lo : Lanes) : Option LatchPut := c.pos.map fun p => ⟨p % 4, mask, lo⟩

/-- The state with a result on its way (03 R79). -/
def Ctx.postFixed (c : Ctx) (lat : Nat) (o : FixedOut) (puts : List RegPut) : State :=
  c.s.putFlight { c.f with
    pend := c.f.pend ++ [⟨c.now + lat, puts, [], c.latchPut o.mask o.lo, if o.mask = 0 then 0 else o.flags⟩] }

/-- The valid writer that such a result makes of an instruction in a chain (03 R86). -/
def Ctx.writer (c : Ctx) (lat : Nat) (o : FixedOut) : Option Writer := c.pos.map fun _ => ⟨o.mask, c.now + lat, o.lo⟩

/-- Kind F with a register result. -/
def fixedOp (lat : Nat) (v : View) (s : State) (body : Ctx → Chk FixedOut) : Result :=
  issue v s fun c =>
    match body c with
    | .error e => .error e
    | .ok o =>
      match c.putDst (c.now + lat) o.mask o.lo o.hi with
      | .error e => .error e
      | .ok puts => .ok (c.finish (c.postFixed lat o puts) .seq (c.writer lat o))

/-- The state with a predicate result on its way. -/
def Ctx.postPred (c : Ctx) (lat : Nat) (bits : Word) (flags : Flags) : State :=
  c.s.putFlight { c.f with
    pend := c.f.pend ++ [⟨c.now + lat, [], [⟨c.x.d.toNat, c.f.em, bits⟩], none, if c.f.em = 0 then 0 else flags⟩] }

/-- Kind F with a predicate result, whose active bits it writes. -/
def predOp (lat : Nat) (v : View) (s : State) (body : Ctx → Chk (Word × Flags)) : Result :=
  issue v s fun c =>
    match body c with
    | .error e => .error e
    | .ok o => .ok (c.finish (c.postPred lat o.1 o.2) .seq none)

/-- An instruction without a fixed-latency result that changes the state at issue and leads somewhere. -/
def ctlOp (v : View) (s : State) (body : Ctx → Chk (State × Next)) : Result :=
  issue v s fun c =>
    match body c with
    | .error e => .error e
    | .ok o => .ok (c.finish o.1 o.2 none)

/-- Kind V: the effect at issue enters the operation in its queue; its set flag rises (03 R82). -/
def varOp (v : View) (s : State) (body : Ctx → Chk State) : Result :=
  issue v s fun c =>
    match body c with
    | .error e => .error e
    | .ok s' => .ok (c.finish s' .seq none)

/-- Every variable-latency operation of a flight has completed (03 R105). -/
def State.quiet (s : State) (k : Nat) : Bool :=
  (match s.flight k with
    | some f => f.early = []
    | none => true) && !(s.memOps.any fun o => o.flight = k) && !(s.vfu.any fun o => o.flight = k) && !(s.sysOps.any fun o => o.flight = k)
    && !(s.copies.any fun o => o.flight = k && o.state ≠ .done) && !(s.mxq.any fun o => o.flight = k)

end Sys2Proof.Machine
end

