-- ==== Sys2Proof/Machine/Integer.lean ====
section
/-!
DEFINITION. Integer and address instructions (04 R115 to R127). LEA, which reads a buffer record, is in Memory.lean.
-/

namespace Sys2Proof.Machine

/-! ### Types (04 R115) -/

/-- A lane's source under a type of 32 bits or fewer: 0 .I32, 1 .N32, 2 .I16, 3 .N16, 4 .I8, 5 .N8. -/
def readT (t : Nat) (w : Word) : Int :=
  match t with
  | 0 => w.toInt
  | 2 => (w.setWidth 16).toInt
  | 3 => (w.setWidth 16).toNat
  | 4 => (w.setWidth 8).toInt
  | 5 => (w.setWidth 8).toNat
  | _ => w.toNat

/-- The range of a type (04 R115). -/
def rangeT (t : Nat) : Int × Int :=
  match t with
  | 0 => (-2147483648, 2147483647)
  | 2 => (-32768, 32767)
  | 3 => (0, 65535)
  | 4 => (-128, 127)
  | 5 => (0, 255)
  | 6 => (-9223372036854775808, 9223372036854775807)
  | 7 => (0, 18446744073709551615)
  | 8 => (-32768, 32767)
  | _ => (0, 4294967295)

/-- Sat(x, t): x clamped to the range of t. -/
def satT (t : Nat) (x : Int) : Int := max (rangeT t).1 (min (rangeT t).2 x)

/-- The result register of a type of 32 bits or fewer: wrapped to the type, then extended. -/
def wrapT (t : Nat) (x : Int) : Word :=
  match t with
  | 2 => (BitVec.ofInt 16 x).signExtend 32
  | 3 => (BitVec.ofInt 16 x).setWidth 32
  | 4 => (BitVec.ofInt 8 x).signExtend 32
  | 5 => (BitVec.ofInt 8 x).setWidth 32
  | _ => BitVec.ofInt 32 x

def writeT (t : Nat) (sat : Bool) (x : Int) : Word := wrapT t (if sat then satT t x else x)

/-- The signed halves of a word, low first. -/
def halfI (w : Word) (h : Nat) : Int := ((w >>> (16 * h)).setWidth 16).toInt

def packHalves (lo hi : BitVec 16) : Word := hi ++ lo

/-- A result of the active lanes, of one word or of a pair. -/
def Ctx.out32 (c : Ctx) (f : Nat → Word) : FixedOut := ⟨Lanes.tab f, none, c.f.em, Fl.none⟩
def Ctx.out64 (c : Ctx) (f : Nat → DWord) : FixedOut :=
  ⟨Lanes.tab fun l => loWord (f l), some (Lanes.tab fun l => hiWord (f l)), c.f.em, Fl.none⟩

def Ctx.itype (c : Ctx) : Nat := c.x.c.toNat % 16
def Ctx.isat (c : Ctx) : Bool := c.x.c.getLsbD 4

/-- The exact value of a 64-bit source. -/
def read64 (t : Nat) (d : DWord) : Int := if t = 6 then d.toInt else d.toNat

/-- An operation of two sources in exact integers, under the modifier byte's type (04 R115). A row without b reads it as
zero. -/
def Ctx.intOp (c : Ctx) (g : Int → Int → Int) : FixedOut :=
  let t := c.itype
  if is64 t then
    let a := c.pairs 1 c.x.a
    let b := c.pairs 2 c.x.b
    c.out64 fun l =>
      let x := g (read64 t (a.getD l 0)) (read64 t (b.getD l 0))
      BitVec.ofInt 64 (if c.isat then satT t x else x)
  else
    let a := c.srcA
    let b := c.srcB
    if t = 8 then
      c.out32 fun l =>
        let half (h : Nat) : BitVec 16 :=
          let x := g (halfI (a.at l) h) (halfI (b.at l) h)
          BitVec.ofInt 16 (if c.isat then satT 8 x else x)
        packHalves (half 0) (half 1)
    else c.out32 fun l => writeT t c.isat (g (readT t (a.at l)) (readT t (b.at l)))

/-- An operation on unsigned values of width 32 or 64, with the count or second operand `b` also unsigned (04 R122 to R124). -/
def Ctx.natOp (c : Ctx) (g : Nat → Nat → Nat → Nat) : FixedOut :=
  if is64 c.itype then
    let a := c.pairs 1 c.x.a
    let b := c.pairs 2 c.x.b
    c.out64 fun l => dw (g 64 (a.getD l 0).toNat (b.getD l 0).toNat)
  else
    let a := c.srcA
    let b := c.srcB
    c.out32 fun l => wd (g 32 (a.at l).toNat (b.at l).toNat)

/-- A shift under a type: the count is the whole unsigned value of Vb, the low register's for a pair (04 R123). -/
def Ctx.shiftOp (c : Ctx) (g : Nat → Nat → Nat → Nat) : FixedOut :=
  let b := c.srcB
  if is64 c.itype then
    let a := c.pairs 1 c.x.a
    c.out64 fun l => dw (g 64 (a.getD l 0).toNat (b.at l).toNat)
  else
    let a := c.srcA
    c.out32 fun l => wd (g 32 (a.at l).toNat (b.at l).toNat)

/-- A shift by the immediate in c. -/
def Ctx.shiftImm (c : Ctx) (g : Nat → Nat → Nat → Nat) : FixedOut :=
  let a := c.srcA
  c.out32 fun l => wd (g 32 (a.at l).toNat c.x.c.toNat)

/-! ### Shifts and bits (04 R123 to R125) -/

def shlN (w a n : Nat) : Nat := if n ≥ w then 0 else a * 2 ^ n % 2 ^ w
def shrN (w a n : Nat) : Nat := if n ≥ w then 0 else a / 2 ^ n
/-- Sign fill. -/
def sarN (w a n : Nat) : Nat :=
  let neg := a ≥ 2 ^ (w - 1)
  if n ≥ w then (if neg then 2 ^ w - 1 else 0)
  else a / 2 ^ n + (if neg then 2 ^ w - 2 ^ (w - n) else 0)
def rotlN (w a n : Nat) : Nat :=
  let m := n % w
  (a * 2 ^ m % 2 ^ w) ||| (a / 2 ^ (w - m))

def clzN (w a : Nat) : Nat := if a = 0 then w else w - 1 - Nat.log2 a
def popcN (w a : Nat) : Nat := (List.range w).foldl (fun n i => n + a / 2 ^ i % 2) 0
def brevN (w a : Nat) : Nat := (List.range w).foldl (fun n i => n + a / 2 ^ i % 2 * 2 ^ (w - 1 - i)) 0

/-- BFX: `fill` is the value of the bits above 31 (04 R125). -/
def bfx (signed : Bool) (a : Word) (p n : Nat) : Word :=
  let n := min n 32
  if n = 0 then 0
  else
    let top : Bool := signed && a.getLsbD 31
    let bit (i : Nat) : Bool := if p + i < 32 then a.getLsbD (p + i) else top
    let ext : Bool := signed && bit (n - 1)
    maskOf fun i => if i < n then bit i else ext

/-- BFI (04 R125). -/
def bfi (a b c : Word) : Word :=
  let p := bits c.toNat 7 0
  let n := bits c.toNat 15 8
  if p ≥ 32 || n = 0 then a
  else
    let n := min n (32 - p)
    maskOf fun i => if p ≤ i && i < p + n then b.getLsbD (i - p) else a.getLsbD i

/-! ### The operations -/

/-- IADD, ISUB (04 R118). -/
def outIadd (c : Ctx) : Chk FixedOut := .ok (c.intOp fun a b => a + b)
def opIadd (v : View) (s : State) : Result := fixedOp 4 v s outIadd
def outIsub (c : Ctx) : Chk FixedOut := .ok (c.intOp fun a b => a - b)
def opIsub (v : View) (s : State) : Result := fixedOp 4 v s outIsub

/-- IMUL: the low 32 or 64 bits (04 R119). -/
def outImul (c : Ctx) : Chk FixedOut := .ok (c.intOp fun a b => a * b)
def opImul (v : View) (s : State) : Result := fixedOp 6 v s outImul

/-- IMULH: bits [63:32], signed under .I32 (04 R119). -/
def outImulh (c : Ctx) : Chk FixedOut :=
  let a := c.srcA
  let b := c.srcB
  .ok (c.out32 fun l => hiWord (BitVec.ofInt 64 (readT c.itype (a.at l) * readT c.itype (b.at l))))
def opImulh (v : View) (s : State) : Result := fixedOp 6 v s outImulh

/-- IMLA (04 R119). -/
def outImla (c : Ctx) : Chk FixedOut :=
  let a := c.srcA
  let b := c.srcB
  let d := c.srcC
  .ok (c.out32 fun l => a.at l * b.at l + d.at l)
def opImla (v : View) (s : State) : Result := fixedOp 6 v s outImla

/-- IMLAL: a 64-bit product added to the pair of c (04 R119). -/
def imlal (signed : Bool) (c : Ctx) : FixedOut :=
  let a := c.srcA
  let b := c.srcB
  let ext (w : Word) : DWord := if signed then w.signExtend 64 else w.setWidth 64
  let acc := c.pairs 3 c.x.c
  c.out64 fun l => ext (a.at l) * ext (b.at l) + acc.getD l 0

def outImlalI32 (c : Ctx) : Chk FixedOut := .ok (imlal true c)
def opImlalI32 (v : View) (s : State) : Result := fixedOp 6 v s outImlalI32
def outImlalN32 (c : Ctx) : Chk FixedOut := .ok (imlal false c)
def opImlalN32 (v : View) (s : State) : Result := fixedOp 6 v s outImlalN32

/-- IMIN, IMAX, IABS, INEG (04 R120). -/
def outImin (c : Ctx) : Chk FixedOut := .ok (c.intOp min)
def opImin (v : View) (s : State) : Result := fixedOp 4 v s outImin
def outImax (c : Ctx) : Chk FixedOut := .ok (c.intOp max)
def opImax (v : View) (s : State) : Result := fixedOp 4 v s outImax
def outIabs (c : Ctx) : Chk FixedOut := .ok (c.intOp fun a _ => if a < 0 then -a else a)
def opIabs (v : View) (s : State) : Result := fixedOp 4 v s outIabs
def outIneg (c : Ctx) : Chk FixedOut := .ok (c.intOp fun a _ => -a)
def opIneg (v : View) (s : State) : Result := fixedOp 4 v s outIneg

/-- IADDMIN.I32: the sum saturates before the minimum (04 R121). -/
def outIaddminI32 (c : Ctx) : Chk FixedOut :=
  let a := c.srcA
  let b := c.srcB
  let d := c.srcC
  .ok (c.out32 fun l => BitVec.ofInt 32 (min (satT 0 ((a.at l).toInt + (b.at l).toInt)) (d.at l).toInt))
def opIaddminI32 (v : View) (s : State) : Result := fixedOp 4 v s outIaddminI32

/-- IADDMIN.I16X2, half by half (04 R121). -/
def outIaddminI16x2 (c : Ctx) : Chk FixedOut :=
  let a := c.srcA
  let b := c.srcB
  let d := c.srcC
  .ok (c.out32 fun l =>
    let half (h : Nat) : BitVec 16 :=
      BitVec.ofInt 16 (min (satT 2 (halfI (a.at l) h + halfI (b.at l) h)) (halfI (d.at l) h))
    packHalves (half 0) (half 1))
def opIaddminI16x2 (v : View) (s : State) : Result := fixedOp 4 v s outIaddminI16x2

/-- Bitwise (04 R122). -/
def outAnd (c : Ctx) : Chk FixedOut := .ok (c.natOp fun _ a b => a &&& b)
def opAnd (v : View) (s : State) : Result := fixedOp 4 v s outAnd
def outOr (c : Ctx) : Chk FixedOut := .ok (c.natOp fun _ a b => a ||| b)
def opOr (v : View) (s : State) : Result := fixedOp 4 v s outOr
def outXor (c : Ctx) : Chk FixedOut := .ok (c.natOp fun _ a b => a ^^^ b)
def opXor (v : View) (s : State) : Result := fixedOp 4 v s outXor
def outAndn (c : Ctx) : Chk FixedOut := .ok (c.natOp fun w a b => a &&& (2 ^ w - 1 - b))
def opAndn (v : View) (s : State) : Result := fixedOp 4 v s outAndn
def outNot (c : Ctx) : Chk FixedOut := .ok (c.natOp fun w a _ => 2 ^ w - 1 - a)
def opNot (v : View) (s : State) : Result := fixedOp 4 v s outNot

/-- Shifts and rotation (04 R123). -/
def outShl (c : Ctx) : Chk FixedOut := .ok (c.shiftOp shlN)
def opShl (v : View) (s : State) : Result := fixedOp 4 v s outShl
def outShr (c : Ctx) : Chk FixedOut := .ok (c.shiftOp shrN)
def opShr (v : View) (s : State) : Result := fixedOp 4 v s outShr
def outSar (c : Ctx) : Chk FixedOut := .ok (c.shiftOp sarN)
def opSar (v : View) (s : State) : Result := fixedOp 4 v s outSar
def outRotl (c : Ctx) : Chk FixedOut := .ok (c.shiftOp rotlN)
def opRotl (v : View) (s : State) : Result := fixedOp 4 v s outRotl
def outShlImm (c : Ctx) : Chk FixedOut := .ok (c.shiftImm shlN)
def opShlImm (v : View) (s : State) : Result := fixedOp 4 v s outShlImm
def outShrImm (c : Ctx) : Chk FixedOut := .ok (c.shiftImm shrN)
def opShrImm (v : View) (s : State) : Result := fixedOp 4 v s outShrImm
def outSarImm (c : Ctx) : Chk FixedOut := .ok (c.shiftImm sarN)
def opSarImm (v : View) (s : State) : Result := fixedOp 4 v s outSarImm
def outRotlImm (c : Ctx) : Chk FixedOut := .ok (c.shiftImm rotlN)
def opRotlImm (v : View) (s : State) : Result := fixedOp 4 v s outRotlImm

/-- Bit counts and reversal (04 R124): a 64-bit count lies in the low register, 0 in the high. -/
def outClz (c : Ctx) : Chk FixedOut := .ok (c.natOp fun w a _ => clzN w a)
def opClz (v : View) (s : State) : Result := fixedOp 4 v s outClz
def outPopc (c : Ctx) : Chk FixedOut := .ok (c.natOp fun w a _ => popcN w a)
def opPopc (v : View) (s : State) : Result := fixedOp 4 v s outPopc
def outBrev (c : Ctx) : Chk FixedOut := .ok (c.natOp fun w a _ => brevN w a)
def opBrev (v : View) (s : State) : Result := fixedOp 4 v s outBrev

/-- Bit fields (04 R125). -/
def outBfxN32 (c : Ctx) : Chk FixedOut :=
  let a := c.srcA
  let b := c.srcB
  let n := c.srcC
  .ok (c.out32 fun l => bfx false (a.at l) (b.at l).toNat (n.at l).toNat)
def opBfxN32 (v : View) (s : State) : Result := fixedOp 4 v s outBfxN32
def outBfxI32 (c : Ctx) : Chk FixedOut :=
  let a := c.srcA
  let b := c.srcB
  let n := c.srcC
  .ok (c.out32 fun l => bfx true (a.at l) (b.at l).toNat (n.at l).toNat)
def opBfxI32 (v : View) (s : State) : Result := fixedOp 4 v s outBfxI32
def outBfi (c : Ctx) : Chk FixedOut :=
  let a := c.srcA
  let b := c.srcB
  let d := c.srcC
  .ok (c.out32 fun l => bfi (a.at l) (b.at l) (d.at l))
def opBfi (v : View) (s : State) : Result := fixedOp 4 v s outBfi

/-- A condition of ICMP: 0 EQ, 1 NE, 2 LT, 3 LE, 4 GT, 5 GE (02 R50). -/
def condI (k : Nat) (a b : Int) : Bool :=
  match k with
  | 0 => a = b
  | 1 => a ≠ b
  | 2 => a < b
  | 3 => a ≤ b
  | 4 => a > b
  | _ => a ≥ b

/-- ICMP (04 R126). -/
def outIcmp (c : Ctx) : Chk (Word × Flags) :=
  let t := c.itype
  let k := c.x.c.toNat / 32
  if is64 t then
    let a := c.pairs 1 c.x.a
    let b := c.pairs 2 c.x.b
    .ok (maskOf fun l => condI k (read64 t (a.getD l 0)) (read64 t (b.getD l 0)), Fl.none)
  else
    let a := c.srcA
    let b := c.srcB
    .ok (maskOf fun l => condI k (readT t (a.at l)) (readT t (b.at l)), Fl.none)
def opIcmp (v : View) (s : State) : Result := predOp 4 v s outIcmp

/-- SEL (04 R126). -/
def outSel (c : Ctx) : Chk FixedOut :=
  let a := c.srcA
  let b := c.srcB
  let p := c.predOf 3 c.x.c.toNat
  .ok (c.out32 fun l => if p.getLsbD l then a.at l else b.at l)
def opSel (v : View) (s : State) : Result := fixedOp 4 v s outSel

/-- MOV (04 R127). -/
def outMov (c : Ctx) : Chk FixedOut := .ok (c.natOp fun _ a _ => a)
def opMov (v : View) (s : State) : Result := fixedOp 4 v s outMov

/-- MOVI and MOVHI (04 R127). -/
def outMovi (c : Ctx) : Chk FixedOut := .ok (c.out32 fun _ => c.x.imm24.signExtend 32)
def opMovi (v : View) (s : State) : Result := fixedOp 4 v s outMovi
def outMovhi (c : Ctx) : Chk FixedOut :=
  let d := c.srcD
  .ok (c.out32 fun l => (c.x.imm24.setWidth 32 <<< 8) ||| (d.at l &&& 0xFF))
def opMovhi (v : View) (s : State) : Result := fixedOp 4 v s outMovhi

/-! ### The constructors -/

/-- IADD (R118). -/
def execIadd (x : XF) (s : State) : Result := opIadd (viewX 0x040 x) s

/-- IADD_W32 (R118), as its X64 form with the cell's fixed modifiers (02 R63). -/
def execIaddW32 (w : WF) (s : State) : Result := opIadd (viewW 0x040 .dab 0x00 w) s

/-- IADD_SAT_W32 (R118), as its X64 form with the cell's fixed modifiers (02 R63). -/
def execIaddSatW32 (w : WF) (s : State) : Result := opIadd (viewW 0x040 .dab 0x10 w) s

/-- IADD_H16 (R118), as its X64 form in two-address form (02 R35, R36). -/
def execIaddH16 (h : HF) (s : State) : Result := opIadd (viewH 0x1 0x040 0 h) s

/-- ISUB (R118). -/
def execIsub (x : XF) (s : State) : Result := opIsub (viewX 0x041 x) s

/-- ISUB_W32 (R118), as its X64 form with the cell's fixed modifiers (02 R63). -/
def execIsubW32 (w : WF) (s : State) : Result := opIsub (viewW 0x041 .dab 0x00 w) s

/-- ISUB_SAT_W32 (R118), as its X64 form with the cell's fixed modifiers (02 R63). -/
def execIsubSatW32 (w : WF) (s : State) : Result := opIsub (viewW 0x041 .dab 0x10 w) s

/-- ISUB_H16 (R118), as its X64 form in two-address form (02 R35, R36). -/
def execIsubH16 (h : HF) (s : State) : Result := opIsub (viewH 0x2 0x041 0 h) s

/-- IMUL (R119). -/
def execImul (x : XF) (s : State) : Result := opImul (viewX 0x042 x) s

/-- IMUL_W32 (R119), as its X64 form with the cell's fixed modifiers (02 R63). -/
def execImulW32 (w : WF) (s : State) : Result := opImul (viewW 0x042 .dab 0x00 w) s

/-- IMULH (R119). -/
def execImulh (x : XF) (s : State) : Result := opImulh (viewX 0x043 x) s

/-- IMULH_I32_W32 (R119), as its X64 form with the cell's fixed modifiers (02 R63). -/
def execImulhI32W32 (w : WF) (s : State) : Result := opImulh (viewW 0x043 .dab 0x00 w) s

/-- IMULH_N32_W32 (R119), as its X64 form with the cell's fixed modifiers (02 R63). -/
def execImulhN32W32 (w : WF) (s : State) : Result := opImulh (viewW 0x043 .dab 0x01 w) s

/-- IMLA (R119). -/
def execImla (x : XF) (s : State) : Result := opImla (viewX 0x044 x) s

/-- IMLAL_I32 (R119). -/
def execImlalI32 (x : XF) (s : State) : Result := opImlalI32 (viewX 0x045 x) s

/-- IMLAL_N32 (R119). -/
def execImlalN32 (x : XF) (s : State) : Result := opImlalN32 (viewX 0x046 x) s

/-- IMIN (R120). -/
def execImin (x : XF) (s : State) : Result := opImin (viewX 0x047 x) s

/-- IMIN_I32_W32 (R120), as its X64 form with the cell's fixed modifiers (02 R63). -/
def execIminI32W32 (w : WF) (s : State) : Result := opImin (viewW 0x047 .dab 0x00 w) s

/-- IMIN_N32_W32 (R120), as its X64 form with the cell's fixed modifiers (02 R63). -/
def execIminN32W32 (w : WF) (s : State) : Result := opImin (viewW 0x047 .dab 0x01 w) s

/-- IMIN_H16 (R120), as its X64 form in two-address form (02 R35, R36). -/
def execIminH16 (h : HF) (s : State) : Result := opImin (viewH 0x9 0x047 0 h) s

/-- IMAX (R120). -/
def execImax (x : XF) (s : State) : Result := opImax (viewX 0x048 x) s

/-- IMAX_I32_W32 (R120), as its X64 form with the cell's fixed modifiers (02 R63). -/
def execImaxI32W32 (w : WF) (s : State) : Result := opImax (viewW 0x048 .dab 0x00 w) s

/-- IMAX_N32_W32 (R120), as its X64 form with the cell's fixed modifiers (02 R63). -/
def execImaxN32W32 (w : WF) (s : State) : Result := opImax (viewW 0x048 .dab 0x01 w) s

/-- IMAX_H16 (R120), as its X64 form in two-address form (02 R35, R36). -/
def execImaxH16 (h : HF) (s : State) : Result := opImax (viewH 0xA 0x048 0 h) s

/-- IABS (R120). -/
def execIabs (x : XF) (s : State) : Result := opIabs (viewX 0x049 x) s

/-- IABS_W32 (R120), as its X64 form with the cell's fixed modifiers (02 R63). -/
def execIabsW32 (w : WF) (s : State) : Result := opIabs (viewW 0x049 .da 0x00 w) s

/-- INEG (R120). -/
def execIneg (x : XF) (s : State) : Result := opIneg (viewX 0x04A x) s

/-- INEG_W32 (R120), as its X64 form with the cell's fixed modifiers (02 R63). -/
def execInegW32 (w : WF) (s : State) : Result := opIneg (viewW 0x04A .da 0x00 w) s

/-- IADDMIN_I32 (R121). -/
def execIaddminI32 (x : XF) (s : State) : Result := opIaddminI32 (viewX 0x04B x) s

/-- IADDMIN_I16X2 (R121). -/
def execIaddminI16x2 (x : XF) (s : State) : Result := opIaddminI16x2 (viewX 0x04C x) s

/-- AND (R122). -/
def execAnd (x : XF) (s : State) : Result := opAnd (viewX 0x050 x) s

/-- AND_W32 (R122), as its X64 form with the cell's fixed modifiers (02 R63). -/
def execAndW32 (w : WF) (s : State) : Result := opAnd (viewW 0x050 .dab 0x01 w) s

/-- AND_H16 (R122), as its X64 form in two-address form (02 R35, R36). -/
def execAndH16 (h : HF) (s : State) : Result := opAnd (viewH 0x3 0x050 1 h) s

/-- OR (R122). -/
def execOr (x : XF) (s : State) : Result := opOr (viewX 0x051 x) s

/-- OR_W32 (R122), as its X64 form with the cell's fixed modifiers (02 R63). -/
def execOrW32 (w : WF) (s : State) : Result := opOr (viewW 0x051 .dab 0x01 w) s

/-- OR_H16 (R122), as its X64 form in two-address form (02 R35, R36). -/
def execOrH16 (h : HF) (s : State) : Result := opOr (viewH 0x4 0x051 1 h) s

/-- XOR (R122). -/
def execXor (x : XF) (s : State) : Result := opXor (viewX 0x052 x) s

/-- XOR_W32 (R122), as its X64 form with the cell's fixed modifiers (02 R63). -/
def execXorW32 (w : WF) (s : State) : Result := opXor (viewW 0x052 .dab 0x01 w) s

/-- XOR_H16 (R122), as its X64 form in two-address form (02 R35, R36). -/
def execXorH16 (h : HF) (s : State) : Result := opXor (viewH 0x5 0x052 1 h) s

/-- ANDN (R122). -/
def execAndn (x : XF) (s : State) : Result := opAndn (viewX 0x053 x) s

/-- ANDN_W32 (R122), as its X64 form with the cell's fixed modifiers (02 R63). -/
def execAndnW32 (w : WF) (s : State) : Result := opAndn (viewW 0x053 .dab 0x01 w) s

/-- NOT (R122). -/
def execNot (x : XF) (s : State) : Result := opNot (viewX 0x054 x) s

/-- NOT_W32 (R122), as its X64 form with the cell's fixed modifiers (02 R63). -/
def execNotW32 (w : WF) (s : State) : Result := opNot (viewW 0x054 .da 0x01 w) s

/-- SHL (R123). -/
def execShl (x : XF) (s : State) : Result := opShl (viewX 0x055 x) s

/-- SHL_W32 (R123), as its X64 form with the cell's fixed modifiers (02 R63). -/
def execShlW32 (w : WF) (s : State) : Result := opShl (viewW 0x055 .dab 0x01 w) s

/-- SHL_H16 (R123), as its X64 form in two-address form (02 R35, R36). -/
def execShlH16 (h : HF) (s : State) : Result := opShl (viewH 0x6 0x055 1 h) s

/-- SHR (R123). -/
def execShr (x : XF) (s : State) : Result := opShr (viewX 0x056 x) s

/-- SHR_W32 (R123), as its X64 form with the cell's fixed modifiers (02 R63). -/
def execShrW32 (w : WF) (s : State) : Result := opShr (viewW 0x056 .dab 0x01 w) s

/-- SHR_H16 (R123), as its X64 form in two-address form (02 R35, R36). -/
def execShrH16 (h : HF) (s : State) : Result := opShr (viewH 0x7 0x056 1 h) s

/-- SAR (R123). -/
def execSar (x : XF) (s : State) : Result := opSar (viewX 0x057 x) s

/-- SAR_W32 (R123), as its X64 form with the cell's fixed modifiers (02 R63). -/
def execSarW32 (w : WF) (s : State) : Result := opSar (viewW 0x057 .dab 0x00 w) s

/-- SAR_H16 (R123), as its X64 form in two-address form (02 R35, R36). -/
def execSarH16 (h : HF) (s : State) : Result := opSar (viewH 0x8 0x057 0 h) s

/-- ROTL (R123). -/
def execRotl (x : XF) (s : State) : Result := opRotl (viewX 0x058 x) s

/-- ROTL_W32 (R123), as its X64 form with the cell's fixed modifiers (02 R63). -/
def execRotlW32 (w : WF) (s : State) : Result := opRotl (viewW 0x058 .dab 0x01 w) s

/-- CLZ (R124). -/
def execClz (x : XF) (s : State) : Result := opClz (viewX 0x059 x) s

/-- CLZ_W32 (R124), as its X64 form with the cell's fixed modifiers (02 R63). -/
def execClzW32 (w : WF) (s : State) : Result := opClz (viewW 0x059 .da 0x01 w) s

/-- POPC (R124). -/
def execPopc (x : XF) (s : State) : Result := opPopc (viewX 0x05A x) s

/-- POPC_W32 (R124), as its X64 form with the cell's fixed modifiers (02 R63). -/
def execPopcW32 (w : WF) (s : State) : Result := opPopc (viewW 0x05A .da 0x01 w) s

/-- BREV (R124). -/
def execBrev (x : XF) (s : State) : Result := opBrev (viewX 0x05B x) s

/-- BREV_W32 (R124), as its X64 form with the cell's fixed modifiers (02 R63). -/
def execBrevW32 (w : WF) (s : State) : Result := opBrev (viewW 0x05B .da 0x01 w) s

/-- BFX_N32 (R125). -/
def execBfxN32 (x : XF) (s : State) : Result := opBfxN32 (viewX 0x05C x) s

/-- BFX_I32 (R125). -/
def execBfxI32 (x : XF) (s : State) : Result := opBfxI32 (viewX 0x05D x) s

/-- BFI (R125). -/
def execBfi (x : XF) (s : State) : Result := opBfi (viewX 0x05E x) s

/-- ICMP (R126). -/
def execIcmp (x : XF) (s : State) : Result := opIcmp (viewX 0x060 x) s

/-- ICMP_EQ_W32 (R126), as its X64 form with the cell's fixed modifiers (02 R63). -/
def execIcmpEqW32 (w : WF) (s : State) : Result := opIcmp (viewW 0x060 .pab 0x00 w) s

/-- ICMP_NE_W32 (R126), as its X64 form with the cell's fixed modifiers (02 R63). -/
def execIcmpNeW32 (w : WF) (s : State) : Result := opIcmp (viewW 0x060 .pab 0x20 w) s

/-- ICMP_LT_W32 (R126), as its X64 form with the cell's fixed modifiers (02 R63). -/
def execIcmpLtW32 (w : WF) (s : State) : Result := opIcmp (viewW 0x060 .pab 0x40 w) s

/-- ICMP_LE_W32 (R126), as its X64 form with the cell's fixed modifiers (02 R63). -/
def execIcmpLeW32 (w : WF) (s : State) : Result := opIcmp (viewW 0x060 .pab 0x60 w) s

/-- ICMP_LT_N32_W32 (R126), as its X64 form with the cell's fixed modifiers (02 R63). -/
def execIcmpLtN32W32 (w : WF) (s : State) : Result := opIcmp (viewW 0x060 .pab 0x41 w) s

/-- ICMP_LE_N32_W32 (R126), as its X64 form with the cell's fixed modifiers (02 R63). -/
def execIcmpLeN32W32 (w : WF) (s : State) : Result := opIcmp (viewW 0x060 .pab 0x61 w) s

/-- SEL (R126). -/
def execSel (x : XF) (s : State) : Result := opSel (viewX 0x061 x) s

/-- MOV (R127). -/
def execMov (x : XF) (s : State) : Result := opMov (viewX 0x062 x) s

/-- MOV_W32 (R127), as its X64 form with the cell's fixed modifiers (02 R63). -/
def execMovW32 (w : WF) (s : State) : Result := opMov (viewW 0x062 .da 0x01 w) s

/-- MOV_H16 (R127), as its X64 form in two-address form (02 R35, R36). -/
def execMovH16 (h : HF) (s : State) : Result := opMov (viewH 0x0 0x062 1 h) s

/-- MOVI (R127). -/
def execMovi (x : XF) (s : State) : Result := opMovi (viewX 0x063 x) s

/-- MOVI_W32 (R127), as its X64 form with the cell's fixed modifiers (02 R63). -/
def execMoviW32 (w : WF) (s : State) : Result := opMovi (viewW 0x063 .imm12 0x00 w) s

/-- MOVHI (R127). -/
def execMovhi (x : XF) (s : State) : Result := opMovhi (viewX 0x064 x) s

/-- SHL_IMM (R123). -/
def execShlImm (x : XF) (s : State) : Result := opShlImm (viewX 0x068 x) s

/-- SHL_IMM_W32 (R123), as its X64 form with the cell's fixed modifiers (02 R63). -/
def execShlImmW32 (w : WF) (s : State) : Result := opShlImm (viewW 0x068 .dak 0x00 w) s

/-- SHR_IMM (R123). -/
def execShrImm (x : XF) (s : State) : Result := opShrImm (viewX 0x069 x) s

/-- SHR_IMM_W32 (R123), as its X64 form with the cell's fixed modifiers (02 R63). -/
def execShrImmW32 (w : WF) (s : State) : Result := opShrImm (viewW 0x069 .dak 0x00 w) s

/-- SAR_IMM (R123). -/
def execSarImm (x : XF) (s : State) : Result := opSarImm (viewX 0x06A x) s

/-- SAR_IMM_W32 (R123), as its X64 form with the cell's fixed modifiers (02 R63). -/
def execSarImmW32 (w : WF) (s : State) : Result := opSarImm (viewW 0x06A .dak 0x00 w) s

/-- ROTL_IMM (R123). -/
def execRotlImm (x : XF) (s : State) : Result := opRotlImm (viewX 0x06B x) s

/-- ROTL_IMM_W32 (R123), as its X64 form with the cell's fixed modifiers (02 R63). -/
def execRotlImmW32 (w : WF) (s : State) : Result := opRotlImm (viewW 0x06B .dak 0x00 w) s


end Sys2Proof.Machine
end

