-- ==== Sys2Proof/Machine/Num.lean ====
section
/-!
DEFINITION. Number formats: values, decoding, Round, DX blocks and the conversions of one element (05 R129 to R144;
06 R152, R153, R161 to R163; 08 R186).
A finite value is ±m × 2^e in exact integers; `sticky` adds a positive amount below one unit of m, for results that are not
dyadic.
-/

namespace Sys2Proof.Machine

/-- A value of the extended reals, or a NaN. -/
inductive FVal where
  | nan (signalling : Bool)
  | inf (neg : Bool)
  | fin (neg : Bool) (m : Nat) (e : Int) (sticky : Bool)
  deriving DecidableEq, Repr

/-- An IEEE-style format (05 R129). -/
structure Fmt where
  eb : Nat
  mb : Nat
  bias : Nat
  hasInf : Bool
  deriving DecidableEq, Repr

def f32 : Fmt := ⟨8, 23, 127, true⟩
def f16 : Fmt := ⟨5, 10, 15, true⟩
def bf16 : Fmt := ⟨8, 7, 127, true⟩
def f8e4 : Fmt := ⟨4, 3, 7, false⟩
def f8e5 : Fmt := ⟨5, 2, 15, true⟩

/-- The format of an ftype code 0 to 6; a packed type's is its element's (02 R51, 05 R133). -/
def fmtOf (ftype : Nat) : Fmt :=
  match ftype with
  | 1 | 5 => f16
  | 2 | 6 => bf16
  | 3 => f8e4
  | 4 => f8e5
  | _ => f32

/-- The canonical NaN (05 R131). -/
def Fmt.nan (f : Fmt) : Nat :=
  if f.hasInf then (2 ^ f.eb - 1) * 2 ^ f.mb + 2 ^ (f.mb - 1) else 2 ^ (f.eb + f.mb) - 1

/-- The largest finite magnitude code. -/
def Fmt.maxCode (f : Fmt) : Nat := if f.hasInf then (2 ^ f.eb - 1) * 2 ^ f.mb - 1 else 2 ^ (f.eb + f.mb) - 2

def Fmt.signBit (f : Fmt) (neg : Bool) : Nat := if neg then 2 ^ (f.eb + f.mb) else 0

def Fmt.emin (f : Fmt) : Int := 1 - f.bias

/-- The value of a code (05 R130, R131). -/
def Fmt.decode (f : Fmt) (code : Nat) : FVal :=
  let c := code % 2 ^ (f.eb + f.mb + 1)
  let neg := c / 2 ^ (f.eb + f.mb) = 1
  let ex := c / 2 ^ f.mb % 2 ^ f.eb
  let fr := c % 2 ^ f.mb
  if ex = 0 then .fin neg fr (f.emin - f.mb) false
  else if ex < 2 ^ f.eb - 1 then .fin neg (2 ^ f.mb + fr) ((ex : Int) - f.bias - f.mb) false
  else if f.hasInf then (if fr = 0 then .inf neg else .nan (fr < 2 ^ (f.mb - 1)))
  else if fr = 2 ^ f.mb - 1 then .nan false
  else .fin neg (2 ^ f.mb + fr) ((ex : Int) - f.bias - f.mb) false

/-! ### Rounding (05 R137 to R139) -/

/-- Rounding modes: 0 .RN, 1 .RZ, 2 .RU, 3 .RD, 4 .RO (02 R51). -/
def roundUp (mode : Nat) (neg : Bool) (n rem half : Nat) : Bool :=
  match mode with
  | 0 => rem > half || (rem = half && n % 2 = 1)
  | 2 => !neg && rem ≠ 0
  | 3 => neg && rem ≠ 0
  | 4 => rem ≠ 0 && n % 2 = 0
  | _ => false

/-- The code of ±∞ as a result: NaN in F8E4, ±Max under .SAT (05 R138). -/
def Fmt.infCode (f : Fmt) (neg sat : Bool) : Nat :=
  if sat then f.signBit neg + f.maxCode
  else if f.hasInf then f.signBit neg + f.maxCode + 1 else f.nan

/-- Overflowed (05 R138). -/
def Fmt.overflow (f : Fmt) (neg : Bool) (mode : Nat) (sat : Bool) : Nat :=
  let toInf := mode = 0 || (mode = 2 && !neg) || (mode = 3 && neg)
  if toInf && !sat then f.infCode neg false else f.signBit neg + f.maxCode

/-- Round of a value with its mode and .SAT: the code and the flags. -/
def Fmt.round (f : Fmt) (x : FVal) (mode : Nat) (sat : Bool) : Nat × Flags :=
  match x with
  | .nan _ => (f.nan, Fl.none)
  | .inf neg => (f.infCode neg sat, Fl.none)
  | .fin neg m e sticky =>
    let m' := if sticky then 4 * m + 1 else m
    let e' := if sticky then e - 2 else e
    if m' = 0 then (f.signBit neg, Fl.none)
    else
      let E : Int := Nat.log2 m' + e'
      let q : Int := max E f.emin - f.mb
      let sh := (q - e').toNat
      let n := if e' ≥ q then m' * 2 ^ (e' - q).toNat else m' / 2 ^ sh
      let rem := if e' ≥ q then 0 else m' % 2 ^ sh
      let half := if e' ≥ q then 1 else 2 ^ sh / 2
      let n' := if roundUp mode neg n rem half then n + 1 else n
      let code := ((q + f.mb - f.emin).toNat) * 2 ^ f.mb + n'
      if code > f.maxCode then (f.overflow neg mode sat, Fl.of ||| Fl.nx)
      else
        let nx := if rem ≠ 0 then Fl.nx else Fl.none
        let uf := if rem ≠ 0 && E < f.emin then Fl.uf else Fl.none
        (f.signBit neg + code, nx ||| uf)

/-! ### Exact arithmetic -/

def FVal.isNan : FVal → Bool
  | .nan _ => true
  | _ => false

def FVal.isSnan : FVal → Bool
  | .nan s => s
  | _ => false

def FVal.isNeg : FVal → Bool
  | .inf n => n
  | .fin n _ _ _ => n
  | .nan _ => false

def FVal.isZero : FVal → Bool
  | .fin _ m _ s => m = 0 && !s
  | _ => false

def FVal.isInf : FVal → Bool
  | .inf _ => true
  | _ => false

/-- ±m as an integer. -/
def signed (neg : Bool) (m : Nat) : Int := if neg then -(m : Int) else m

/-- A finite value of an integer mantissa; a zero is +0. -/
def ofIntExp (i : Int) (e : Int) : FVal := .fin (i < 0) i.natAbs e false

/-- A sum of two values, with the sign of an exact zero by R152; none when it is ∞ − ∞. -/
def FVal.add (a b : FVal) (mode : Nat) : Option FVal :=
  match a, b with
  | .inf n, .inf k => if n = k then some (.inf n) else none
  | .inf n, _ => some (.inf n)
  | _, .inf n => some (.inf n)
  | .fin n m e _, .fin k p g _ =>
    let q := min e g
    let i := signed n (m * 2 ^ (e - q).toNat) + signed k (p * 2 ^ (g - q).toNat)
    if i = 0 then
      let both := m = 0 && p = 0 && n = k
      some (.fin (if both then n else mode = 3) 0 q false)
    else some (ofIntExp i q)
  | _, _ => some (.nan false)

/-- A product; none when it is 0 × ∞. -/
def FVal.mul (a b : FVal) : Option FVal :=
  match a, b with
  | .inf n, .inf k => some (.inf (n != k))
  | .inf n, .fin k m _ _ => if m = 0 then none else some (.inf (n != k))
  | .fin k m _ _, .inf n => if m = 0 then none else some (.inf (n != k))
  | .fin n m e _, .fin k p g _ => some (.fin (n != k) (m * p) (e + g) false)
  | _, _ => some (.nan false)

def FVal.negate : FVal → FVal
  | .inf n => .inf (!n)
  | .fin n m e s => .fin (!n) m e s
  | x => x

/-- Order of two values that are not NaN: negative, zero or positive as a is below, equal to or above b. -/
def FVal.cmp (a b : FVal) : Int :=
  match a, b with
  | .inf n, .inf k => if n = k then 0 else if n then -1 else 1
  | .inf n, _ => if n then -1 else 1
  | _, .inf n => if n then 1 else -1
  | .fin n m e _, .fin k p g _ =>
    let q := min e g
    signed n (m * 2 ^ (e - q).toNat) - signed k (p * 2 ^ (g - q).toNat)
  | _, _ => 0

/-- NV for a signalling NaN among the inputs (06 R151). -/
def snanFlag (xs : List FVal) : Flags := if xs.any FVal.isSnan then Fl.nv else Fl.none

/-- A result that may be invalid: NaN with NV, or rounded (06 R153). -/
def Fmt.finish (f : Fmt) (xs : List FVal) (r : Option FVal) (mode : Nat) (sat : Bool) : Nat × Flags :=
  match r with
  | none => (f.nan, Fl.nv)
  | some x =>
    if xs.any FVal.isNan then (f.nan, snanFlag xs)
    else f.round x mode sat

def Fmt.addOp (f : Fmt) (a b : Nat) (mode : Nat) (sat : Bool) : Nat × Flags :=
  let x := f.decode a
  let y := f.decode b
  f.finish [x, y] (x.add y mode) mode sat

def Fmt.subOp (f : Fmt) (a b : Nat) (mode : Nat) (sat : Bool) : Nat × Flags :=
  let x := f.decode a
  let y := f.decode b
  f.finish [x, y] (x.add y.negate mode) mode sat

def Fmt.mulOp (f : Fmt) (a b : Nat) (mode : Nat) (sat : Bool) : Nat × Flags :=
  let x := f.decode a
  let y := f.decode b
  f.finish [x, y] (x.mul y) mode sat

/-- A × B + C with one rounding. 0 × ∞ is invalid whatever C holds, a NaN included (06 R153). -/
def Fmt.macOp (f : Fmt) (a b c : Nat) (mode : Nat) (sat : Bool) : Nat × Flags :=
  let x := f.decode a
  let y := f.decode b
  let z := f.decode c
  match x.mul y with
  | none => (f.nan, Fl.nv)
  | some p => f.finish [x, y, z] (p.add z mode) mode sat

/-! ### Minimum, maximum, comparison, class (06 R154 to R157) -/

/-- −0 orders below +0 (06 R154). -/
def FVal.order (a b : FVal) : Int :=
  let c := a.cmp b
  if c = 0 && a.isZero && b.isZero then (if a.isNeg = b.isNeg then 0 else if a.isNeg then -1 else 1) else c

/-- FMIN and FMAX on F32 codes. -/
def fminmax (isMax : Bool) (a b : Nat) : Nat × Flags :=
  let x := f32.decode a
  let y := f32.decode b
  let r := if x.isNan && y.isNan then f32.nan
    else if x.isNan then b
    else if y.isNan then a
    else if isMax then (if x.order y < 0 then b else a)
    else (if x.order y > 0 then b else a)
  (r, snanFlag [x, y])

/-- FCMP conditions 0 to 7 (06 R155). -/
def fcond (k : Nat) (a b : Nat) : Bool × Flags :=
  let x := f32.decode a
  let y := f32.decode b
  let un := x.isNan || y.isNan
  let c := x.cmp y
  let r := match k with
    | 0 => !un && c = 0
    | 1 => un || c ≠ 0
    | 2 => !un && c < 0
    | 3 => !un && c ≤ 0
    | 4 => !un && c > 0
    | 5 => !un && c ≥ 0
    | 6 => !un
    | _ => un
  let nv := if 2 ≤ k && k ≤ 5 then (if un then Fl.nv else Fl.none) else snanFlag [x, y]
  (r, nv)

/-- FCLASS (06 R156). -/
def Fmt.classOf (f : Fmt) (a : Nat) : Nat :=
  match f.decode a with
  | .nan s => if s then 2 ^ 8 else 2 ^ 9
  | .inf n => if n then 1 else 2 ^ 7
  | .fin n m _ _ =>
    if m = 0 then (if n then 2 ^ 3 else 2 ^ 4)
    else if m < 2 ^ f.mb then (if n then 2 ^ 2 else 2 ^ 5)
    else (if n then 2 ^ 1 else 2 ^ 6)

/-- A finite value rounded to an integer: its magnitude and whether it changed. -/
def roundInt (neg : Bool) (m : Nat) (e : Int) (mode : Nat) : Nat × Bool :=
  if e ≥ 0 then (m * 2 ^ e.toNat, false)
  else
    let sh := (-e).toNat
    let n := m / 2 ^ sh
    let rem := m % 2 ^ sh
    (if roundUp mode neg n rem (2 ^ sh / 2) then n + 1 else n, rem ≠ 0)

/-- FRINT (06 R157). -/
def frint (a mode : Nat) : Nat × Flags :=
  match f32.decode a with
  | .nan s => (f32.nan, if s then Fl.nv else Fl.none)
  | .inf _ => (a, Fl.none)
  | .fin n m e _ =>
    let r := (roundInt n m e mode).1
    ((f32.round (.fin n r 0 false) 1 false).1, Fl.none)

/-! ### Conversion of one element -/

/-- CVT.F from a float code (06 R162). DEDUCED (log 94): to the source's own format .SAT clamps an infinity, as the pseudocode has it. -/
def cvtFF (src dst : Fmt) (a mode : Nat) (sat : Bool) : Nat × Flags :=
  let x := src.decode a
  if x.isNan then (dst.nan, snanFlag [x]) else dst.round x mode sat

/-- CVT.F from an integer (06 R162). -/
def cvtIF (dst : Fmt) (i : Int) (mode : Nat) (sat : Bool) : Nat × Flags := dst.round (ofIntExp i 0) mode sat

/-- CVT.I from a float value, to the range of an itype (06 R163): always saturates. -/
def cvtVI (t : Nat) (x : FVal) (mode : Nat) : Int × Flags :=
  match x with
  | .nan _ => (0, Fl.nv)
  | .inf n => ((if n then (rangeT t).1 else (rangeT t).2), Fl.nv)
  | .fin n m e _ =>
    let (r, ch) := roundInt n m e mode
    let i := signed n r
    if i < (rangeT t).1 then ((rangeT t).1, Fl.nv)
    else if i > (rangeT t).2 then ((rangeT t).2, Fl.nv)
    else (i, if ch then Fl.nx else Fl.none)

def cvtFI (src : Fmt) (t a mode : Nat) : Int × Flags := cvtVI t (src.decode a) mode

/-! ### DX blocks (05 R134 to R136, R142) -/

/-- The exponent byte used: 0xFF reads as 0xFE, with SB (05 R136). -/
def dxExp (e : Nat) : Nat × Flags := if e = 0xFF then (0xFE, Fl.sb) else (e, Fl.none)

/-- DXDecode. -/
def dxDecode (code e0 e1 : Nat) (isDx8 : Bool) : FVal × Flags :=
  let (x0, s0) := dxExp e0
  let (x1, s1) := dxExp e1
  let sel := if isDx8 then bits code 7 7 else bits code 3 3
  let neg := (if isDx8 then bits code 6 6 else bits code 2 2) = 1
  let mag := if isDx8 then bits code 5 0 else bits code 1 0
  if neg && mag = 0 then (.fin false 0 0 false, s0 ||| s1 ||| Fl.sb)
  else
    let e : Int := (if sel = 0 then x0 else x1) - 127 - (if isDx8 then 5 else 1)
    (.fin neg mag e false, s0 ||| s1)

/-- RNE(m × 2^e / 2^q) of a magnitude. -/
def rneAt (m : Nat) (e q : Int) : Nat :=
  if e ≥ q then m * 2 ^ (e - q).toNat
  else
    let sh := (q - e).toNat
    let n := m / 2 ^ sh
    let rem := m % 2 ^ sh
    if rem > 2 ^ sh / 2 || (rem = 2 ^ sh / 2 && n % 2 = 1) then n + 1 else n

/-- The distance | m × 2^e − q × 2^g | in units of 2^−400. -/
def distAt (m : Nat) (e : Int) (q : Nat) (g : Int) : Nat :=
  ((m * 2 ^ (e + 400).toNat : Nat) - (q * 2 ^ (g + 400).toNat : Nat) : Int).natAbs

/-- DXEncode of 32 F32 values: codes, E0, E1 and flags. -/
def dxEncode (xs : List FVal) (isDx8 : Bool) (d : Nat) : List Nat × Nat × Nat × Flags :=
  let k : Int := if isDx8 then 132 else 128
  let maxMag := if isDx8 then 63 else 3
  let d := if d = 0 then 1 else d
  let anyInf := xs.any FVal.isInf
  let fits (E : Nat) : Bool := xs.all fun x => match x with
    | .fin _ m e _ => rneAt m e (E - k) ≤ maxMag
    | _ => true
  let e0 := if anyInf then 0xFE else ((List.range 0xFF).find? fits).getD 0xFE
  let e1 := e0 - d
  let one (x : FVal) : Nat × Flags :=
    match x with
    | .nan _ => (0, Fl.nv)
    | .inf n => ((if isDx8 then (if n then 64 else 0) else (if n then 4 else 0)) + maxMag, Fl.of ||| Fl.nx)
    | .fin n m e _ =>
      let r0 := rneAt m e (e0 - k)
      let r1 := rneAt m e (e1 - k)
      let q0 := min r0 maxMag
      let q1 := min r1 maxMag
      let d0 := distAt m e q0 (e0 - k)
      let d1 := distAt m e q1 (e1 - k)
      let s := d1 < d0
      let q := if s then q1 else q0
      let r := if s then r1 else r0
      let dist := if s then d1 else d0
      let code := if q = 0 then 0
        else if isDx8 then (if s then 128 else 0) + (if n then 64 else 0) + q
        else (if s then 8 else 0) + (if n then 4 else 0) + q
      let fl := (if r > maxMag then Fl.of else Fl.none) ||| (if dist ≠ 0 then Fl.nx else Fl.none)
        ||| (if m ≠ 0 && q = 0 then Fl.uf else Fl.none)
      (code, fl)
  let rs := xs.map one
  (rs.map Prod.fst, e0, e1, rs.foldl (fun a r => a ||| r.2) Fl.none)

/-! ### Element encodings (05 R144; 08 R182, R186) -/

/-- Codes 0x10 to 0x3F act as RAW32 (05 R143). -/
def encCode (c : Nat) : Nat := if c ≥ 0x10 then 0 else c

/-- Bytes of an element; a DX element is addressed by its own rule (08 R184). -/
def encBytes (c : Nat) : Nat :=
  match encCode c with
  | 2 | 3 | 0x0A | 0x0B => 2
  | 4 | 5 | 6 | 7 | 8 | 9 => 1
  | _ => 4

def encPacked (c : Nat) : Bool := encCode c = 0x0E || encCode c = 0x0F

/-- The itype of an integer encoding. -/
def encInt (c : Nat) : Option Nat :=
  match encCode c with
  | 8 => some 4
  | 9 => some 5
  | 0x0A => some 2
  | 0x0B => some 3
  | 0x0C => some 0
  | 0x0D => some 1
  | _ => none

/-- The format of a float encoding that is neither RAW32 nor DX; a packed one's is its element's. -/
def encFmt (c : Nat) : Option Fmt :=
  match encCode c with
  | 1 => some f32
  | 2 | 0x0E => some f16
  | 3 | 0x0F => some bf16
  | 4 => some f8e4
  | 5 => some f8e5
  | _ => none

/-- A DX encoding in a register acts as .F32 (08 R182). -/
def regEnc (c : Nat) : Nat := if encCode c = 6 || encCode c = 7 then 1 else encCode c

/-- The value of an element's bits under an encoding, when it is not a bit case: float or exact integer. -/
def encValue (c : Nat) (e : Nat) : FVal :=
  match encInt c with
  | some t => ofIntExp (readT t (wd e)) 0
  | none =>
    match encFmt c with
    | some f => f.decode e
    | none => .fin false 0 0 false

/-- A value into an encoding (08 R186): the element's bits and flags. `isInt`: the value is an exact integer. -/
def encPut (c : Nat) (isInt : Bool) (x : FVal) (mode : Nat) (sat : Bool) : Nat × Flags :=
  match encInt c with
  | some t =>
    if isInt then
      let i : Int := match x with
        | .fin n m e _ => signed n (m * 2 ^ e.toNat)
        | _ => 0
      ((writeT t sat i).toNat, Fl.none)
    else
      let (i, fl) := cvtVI t x mode
      ((wrapT t i).toNat, fl)
  | none =>
    match encFmt c with
    | some f => if x.isNan then (f.nan, snanFlag [x]) else f.round x mode sat
    | none => (0, Fl.none)

/-- The cases in which bits are copied (08 R186). -/
def bitCase (m g : Nat) : Bool :=
  encCode m = encCode g || encCode m = 0 || encCode g = 0 || (encPacked m != encPacked g)

/-- One element from encoding `src` to `dst` (08 R186): packed pairs convert element by element. -/
def convElem (src dst e mode : Nat) (sat : Bool) : Nat × Flags :=
  if bitCase src dst then (e % 2 ^ 32, Fl.none)
  else if encPacked src then
    let (lo, fl) := encPut dst false (encValue src (e % 65536)) mode sat
    let (hi, fh) := encPut dst false (encValue src (e / 65536 % 65536)) mode sat
    (lo + 65536 * hi, fl ||| fh)
  else encPut dst (encInt src).isSome (encValue src e) mode sat

/-! ### The variable-latency functions (06 R159) -/

/-- The integer square root, bit by bit from bit `k`. -/
def isqrtFrom : Nat → Nat → Nat → Nat
  | 0, _, r => r
  | k + 1, n, r =>
    let r' := r + 2 ^ k
    isqrtFrom k n (if r' * r' ≤ n then r' else r)

/-- The integer square root of a number below 2^400. -/
def isqrt (n : Nat) : Nat := isqrtFrom 200 n 0

/-- π/2 × 2^600, rounded down. -/
def halfPi : Nat :=
  0x1921fb54442d18469898cc51701b839a252049c1114cf98e804177d4c76273644a29410f31c6809bbdf2a33679a748636605614dbe4be286e9fc26adadaa3848bc90b6aecc4bcfd8de89885

/-- ln 2 × 2^200, rounded down. -/
def ln2 : Nat := 0xb17217f7d1cf79abc9e3b39803f2f6af40f343267298b62d8a

/-- The sum of y^k / k! for k from `k` up, `n` terms, in units of 2^−200; `t` is the term of k − 1. -/
def expSeries : Nat → Nat → Nat → Nat → Nat
  | 0, _, _, _ => 0
  | n + 1, k, y, t =>
    let t' := t * y / 2 ^ 200 / k
    t' + expSeries n (k + 1) y t'

/-- The sum of z^(2k+1) / (2k+1) in units of 2^−200; `t` is z^(2k+1). -/
def atanhSeries : Nat → Nat → Nat → Nat → Nat
  | 0, _, _, _ => 0
  | n + 1, k, z2, t => t / (2 * k + 1) + atanhSeries n (k + 1) z2 (t * z2 / 2 ^ 200)

/-- The alternating Taylor sum of sine and cosine in units of 2^−600: `t` is the current term, `j` its degree. -/
def trigSeries : Nat → Nat → Nat → Nat → Int
  | 0, _, _, _ => 0
  | n + 1, j, r2, t => (t : Int) - trigSeries n (j + 2) r2 (t * r2 / 2 ^ 600 / ((j + 1) * (j + 2)))

/-- 2^x of a finite value that is not an integer, between −200 and 128. -/
def exp2Val (neg : Bool) (m : Nat) (e : Int) : FVal :=
  let sh := (-e).toNat
  let x := signed neg m
  let i := x / (2 ^ sh : Nat)
  let fr := (x % (2 ^ sh : Nat)).toNat
  let f := if sh ≤ 200 then fr * 2 ^ (200 - sh) else fr / 2 ^ (sh - 200)
  let y := f * ln2 / 2 ^ 200
  .fin false (2 ^ 200 + expSeries 60 1 y (2 ^ 200)) (i - 200) true

/-- log2 of a positive finite value that is not a power of two. -/
def log2Val (m : Nat) (e : Int) : FVal :=
  let l := Nat.log2 m
  let x := m * 2 ^ 200 / 2 ^ l
  let z := (x - 2 ^ 200) * 2 ^ 200 / (x + 2 ^ 200)
  let ln := 2 * atanhSeries 70 0 (z * z / 2 ^ 200) z
  let t : Int := ((l : Int) + e) * 2 ^ 200 + (ln * 2 ^ 200 / ln2 : Nat)
  if t < 0 then .fin true (t.natAbs - 1) (-200) true else .fin false t.toNat (-200) true

/-- sin or cos of a non-zero finite value. -/
def trigVal (isCos neg : Bool) (m : Nat) (e : Int) : FVal :=
  if (Nat.log2 m : Int) + e < -40 then
    if isCos then .fin false (2 ^ 200 - 1) (-200) true
    else .fin neg (m * 2 ^ 100 - 1) (e - 100) true
  else
    let x := m * 2 ^ (e + 600).toNat
    let n := x / halfPi
    let r := x % halfPi
    let r2 := r * r / 2 ^ 600
    let useCos := (n % 2 = 1) != isCos
    let v : Int := if useCos then trigSeries 80 0 r2 (2 ^ 600) else trigSeries 80 1 r2 r
    let flip := if isCos then n % 4 = 1 || n % 4 = 2 else (n % 4 = 2 || n % 4 = 3) != neg
    .fin flip v.natAbs (-600) true

/-- FRCP, FRSQ, FSQRT, FEX2, FLG2, FSIN, FCOS of an F32 code, by op9 (06 R159). -/
def vfuFunc (op9 a mode : Nat) : Nat × Flags :=
  match f32.decode a with
  | .nan s => (f32.nan, if s then Fl.nv else Fl.none)
  | .inf n =>
    match op9 with
    | 0x090 => (f32.signBit n, Fl.none)
    | 0x091 => if n then (f32.nan, Fl.nv) else (0, Fl.none)
    | 0x092 | 0x094 => if n then (f32.nan, Fl.nv) else (a, Fl.none)
    | 0x093 => if n then (0, Fl.none) else (a, Fl.none)
    | _ => (f32.nan, Fl.nv)
  | .fin n m e _ =>
    if m = 0 then
      match op9 with
      | 0x090 | 0x091 => (f32.infCode n false, Fl.dz)
      | 0x092 | 0x095 => (a, Fl.none)
      | 0x094 => (f32.infCode true false, Fl.dz)
      | _ => (0x3F800000, Fl.none)
    else
      match op9 with
      | 0x090 =>
        f32.round (.fin n (2 ^ 200 / m) (-200 - e) (2 ^ 200 % m ≠ 0)) mode false
      | 0x091 =>
        if n then (f32.nan, Fl.nv)
        else
          let m2 := if e % 2 = 0 then m else 2 * m
          let e2 := if e % 2 = 0 then e else e - 1
          let q := isqrt (2 ^ 240 / m2)
          f32.round (.fin false q (-120 - e2 / 2) (q * q * m2 ≠ 2 ^ 240)) mode false
      | 0x092 =>
        if n then (f32.nan, Fl.nv)
        else
          let m2 := if e % 2 = 0 then m else 2 * m
          let e2 := if e % 2 = 0 then e else e - 1
          let q := isqrt (m2 * 2 ^ 200)
          f32.round (.fin false q (e2 / 2 - 100) (q * q ≠ m2 * 2 ^ 200)) mode false
      | 0x093 =>
        if (Nat.log2 m : Int) + e ≥ 8 then
          if n then f32.round (.fin false 1 (-200) false) mode false else f32.round (.fin false 1 200 false) mode false
        else if e ≥ 0 then f32.round (.fin false 1 (signed n (m * 2 ^ e.toNat)) false) mode false
        else if m % 2 ^ (-e).toNat = 0 then f32.round (.fin false 1 (signed n (m / 2 ^ (-e).toNat)) false) mode false
        else f32.round (exp2Val n m e) mode false
      | 0x094 =>
        if n then (f32.nan, Fl.nv)
        else if m = 2 ^ Nat.log2 m then f32.round (ofIntExp ((Nat.log2 m : Int) + e) 0) mode false
        else f32.round (log2Val m e) mode false
      | 0x095 => f32.round (trigVal false n m e) mode false
      | _ => f32.round (trigVal true n m e) mode false

end Sys2Proof.Machine
end

