-- ==== Sys2Proof/Machine/Float.lean ====
section
/-!
DEFINITION. Floating-point and conversion instructions (06 R149 to R166): what each computes in a lane is in Num.lean.
-/

namespace Sys2Proof.Machine

/-- Rounding mode and SAT of a modifier byte (02 R51). -/
def Ctx.rnd (c : Ctx) : Nat := c.x.c.toNat / 16 % 8
def Ctx.fsat (c : Ctx) : Bool := c.x.c.getLsbD 7
def Ctx.ftype (c : Ctx) : Nat := c.x.c.toNat % 16

/-- A one-register result with the flags of each lane, gathered over the active lanes (05 R147). -/
def Ctx.flagged (c : Ctx) (g : Nat → Nat × Flags) : FixedOut :=
  ⟨Lanes.tab fun l => wd (g l).1, none, c.f.em, Flags.gather c.f.em fun l => (g l).2⟩

/-- An operation of two F32 sources. -/
def Ctx.f32Op (c : Ctx) (g : Nat → Nat → Nat × Flags) : FixedOut :=
  let a := c.srcA
  let b := c.srcB
  c.flagged fun l => g (a.at l).toNat (b.at l).toNat

/-- FADD, FSUB, FMUL (R153). -/
def outFadd (c : Ctx) : Chk FixedOut := .ok (c.f32Op fun a b => f32.addOp a b c.rnd false)
def opFadd (v : View) (s : State) : Result := fixedOp 6 v s outFadd
def outFsub (c : Ctx) : Chk FixedOut := .ok (c.f32Op fun a b => f32.subOp a b c.rnd false)
def opFsub (v : View) (s : State) : Result := fixedOp 6 v s outFsub
def outFmul (c : Ctx) : Chk FixedOut := .ok (c.f32Op fun a b => f32.mulOp a b c.rnd false)
def opFmul (v : View) (s : State) : Result := fixedOp 6 v s outFmul

/-- FMAC in a rounding mode (R153). -/
def fmac (mode : Nat) (c : Ctx) : FixedOut :=
  let a := c.srcA
  let b := c.srcB
  let d := c.srcC
  c.flagged fun l => f32.macOp (a.at l).toNat (b.at l).toNat (d.at l).toNat mode false

def outFmacRn (c : Ctx) : Chk FixedOut := .ok (fmac 0 c)
def opFmacRn (v : View) (s : State) : Result := fixedOp 6 v s outFmacRn
def outFmacRz (c : Ctx) : Chk FixedOut := .ok (fmac 1 c)
def opFmacRz (v : View) (s : State) : Result := fixedOp 6 v s outFmacRz
def outFmacRu (c : Ctx) : Chk FixedOut := .ok (fmac 2 c)
def opFmacRu (v : View) (s : State) : Result := fixedOp 6 v s outFmacRu
def outFmacRd (c : Ctx) : Chk FixedOut := .ok (fmac 3 c)
def opFmacRd (v : View) (s : State) : Result := fixedOp 6 v s outFmacRd

/-- FMIN, FMAX (R154). -/
def outFmin (c : Ctx) : Chk FixedOut := .ok (c.f32Op (fminmax false))
def opFmin (v : View) (s : State) : Result := fixedOp 6 v s outFmin
def outFmax (c : Ctx) : Chk FixedOut := .ok (c.f32Op (fminmax true))
def opFmax (v : View) (s : State) : Result := fixedOp 6 v s outFmax

/-- FCMP (R155). -/
def outFcmp (c : Ctx) : Chk (Word × Flags) :=
  let a := c.srcA
  let b := c.srcB
  let r (l : Nat) := fcond c.rnd (a.at l).toNat (b.at l).toNat
  .ok (maskOf fun l => (r l).1, Flags.gather c.f.em fun l => (r l).2)
def opFcmp (v : View) (s : State) : Result := predOp 6 v s outFcmp

/-- FCLASS (R156). -/
def outFclass (c : Ctx) : Chk FixedOut :=
  let a := c.srcA
  .ok (c.flagged fun l => ((fmtOf c.ftype).classOf (a.at l).toNat, Fl.none))
def opFclass (v : View) (s : State) : Result := fixedOp 6 v s outFclass

/-- FRINT (R157). -/
def outFrint (c : Ctx) : Chk FixedOut :=
  let a := c.srcA
  .ok (c.flagged fun l => frint (a.at l).toNat c.rnd)
def opFrint (v : View) (s : State) : Result := fixedOp 6 v s outFrint

/-! ### Packed half (R160) -/

/-- Element `h` of a packed word (05 R133). -/
def elem (w : Word) (h : Nat) : Nat := bits w.toNat (16 * h + 15) (16 * h)

/-- Both elements of a packed result. -/
def packed (g : Nat → Nat × Flags) : Nat × Flags :=
  let r0 := g 0
  let r1 := g 1
  (r1.1 * 65536 + r0.1, r0.2 ||| r1.2)

def outPkadd (c : Ctx) : Chk FixedOut :=
  let a := c.srcA
  let b := c.srcB
  .ok (c.flagged fun l => packed fun h => (fmtOf c.ftype).addOp (elem (a.at l) h) (elem (b.at l) h) c.rnd c.fsat)
def opPkadd (v : View) (s : State) : Result := fixedOp 6 v s outPkadd

def outPkmul (c : Ctx) : Chk FixedOut :=
  let a := c.srcA
  let b := c.srcB
  .ok (c.flagged fun l => packed fun h => (fmtOf c.ftype).mulOp (elem (a.at l) h) (elem (b.at l) h) c.rnd c.fsat)
def opPkmul (v : View) (s : State) : Result := fixedOp 6 v s outPkmul

def pkfma (f : Fmt) (c : Ctx) : FixedOut :=
  let a := c.srcA
  let b := c.srcB
  let d := c.srcC
  c.flagged fun l => packed fun h => f.macOp (elem (a.at l) h) (elem (b.at l) h) (elem (d.at l) h) 0 false

def outPkfmaF16x2 (c : Ctx) : Chk FixedOut := .ok (pkfma f16 c)
def opPkfmaF16x2 (v : View) (s : State) : Result := fixedOp 6 v s outPkfmaF16x2
def outPkfmaBf16x2 (c : Ctx) : Chk FixedOut := .ok (pkfma bf16 c)
def opPkfmaBf16x2 (v : View) (s : State) : Result := fixedOp 6 v s outPkfmaBf16x2

/-! ### Conversion (R161 to R163) -/

/-- The integer value of a source under an itype: its register, or the pair's two. -/
def intOf (t : Nat) (lo hi : Word) : Int := if is64 t then read64 t (pair64 lo hi) else readT t lo

/-- CVT.F. -/
def outCvtF (c : Ctx) : Chk FixedOut :=
  let src := c.x.b.toNat
  let t := c.ftype
  let dst := fmtOf t
  let conv (a : Nat) : Nat × Flags := cvtFF (fmtOf (src % 16)) dst a c.rnd c.fsat
  let a := c.srcA
  let hi := c.srcHi 1 c.x.a
  if src / 16 = 0 then .ok (c.flagged fun l => cvtIF dst (intOf (src % 16) (a.at l) (hi.at l)) c.rnd c.fsat)
  else if f32Pair c.x then .ok (c.flagged fun l => packed fun h => conv (if h = 0 then (a.at l).toNat else (hi.at l).toNat))
  else if packedByte src && t = 0 then
    let r (l h : Nat) := conv (elem (a.at l) h)
    .ok ⟨Lanes.tab fun l => wd (r l 0).1, some (Lanes.tab fun l => wd (r l 1).1), c.f.em,
      Flags.gather c.f.em fun l => (r l 0).2 ||| (r l 1).2⟩
  else if packedByte src then .ok (c.flagged fun l => packed fun h => conv (elem (a.at l) h))
  else .ok (c.flagged fun l => conv (a.at l).toNat)
def opCvtF (v : View) (s : State) : Result := fixedOp 6 v s outCvtF

/-- CVT.I. -/
def outCvtI (c : Ctx) : Chk FixedOut :=
  let src := c.x.b.toNat
  let t := c.itype
  let a := c.srcA
  let hi := c.srcHi 1 c.x.a
  let val (l : Nat) : Int × Flags :=
    if src / 16 = 0 then (let i := intOf (src % 16) (a.at l) (hi.at l); (if c.fsat then satT t i else i, Fl.none))
    else cvtFI (fmtOf (src % 16)) t (a.at l).toNat c.rnd
  let fl := Flags.gather c.f.em fun l => (val l).2
  if is64 t then .ok { c.out64 (fun l => BitVec.ofInt 64 (val l).1) with flags := fl }
  else .ok { c.out32 (fun l => wrapT t (val l).1) with flags := fl }
def opCvtI (v : View) (s : State) : Result := fixedOp 6 v s outCvtI

/-! ### The variable-latency unit (R158, R159, R164 to R166) -/

/-- Enter an instruction in its quadrant's unit: the operands as read at issue. -/
def vfuOp (v : View) (s : State) : Result := varOp v s fun c =>
  let a := c.srcA
  let b := c.srcB
  let op : VfuOp := ⟨c.s.nextKey, c.f.key, c.op9, c.x.c.toNat, c.x.d.toNat, c.f.em, a, b, c.flag, c.f.pc⟩
  .ok ({ c.s with vfu := c.s.vfu ++ [op] }).freshKey

def opFrcp (v : View) (s : State) : Result := vfuOp v s
def opFrsq (v : View) (s : State) : Result := vfuOp v s
def opFsqrt (v : View) (s : State) : Result := vfuOp v s
def opFex2 (v : View) (s : State) : Result := vfuOp v s
def opFlg2 (v : View) (s : State) : Result := vfuOp v s
def opFsin (v : View) (s : State) : Result := vfuOp v s
def opFcos (v : View) (s : State) : Result := vfuOp v s
def opDxpack (v : View) (s : State) : Result := vfuOp v s
def opDxunpk (v : View) (s : State) : Result := vfuOp v s

/-- The lane word of a DX element (R164). -/
def dxWord (code e0 e1 : Nat) : Word := wd (e1 * 2 ^ 24 + e0 * 2 ^ 16 + code)

/-- DXPACK: the active lanes as one block, an inactive lane counting as +0 (R165). -/
def dxpack (isDx8 : Bool) (mask : Word) (a b : Lanes) : Lanes × Flags :=
  let d := bits (b.at (lowestLane mask)).toNat 3 0
  let xs := laneIds.map fun l => if mask.getLsbD l then f32.decode (a.at l).toNat else .fin false 0 0 false
  let (codes, e0, e1, fl) := dxEncode xs isDx8 d
  (Lanes.tab fun l => dxWord (codes.getD l 0) e0 e1, if mask = 0 then Fl.none else fl)

/-- DXUNPK in one lane (R166). -/
def dxunpk (isDx8 : Bool) (a b : Word) : Nat × Flags :=
  let (x, fl) := dxDecode a.toNat (bits b.toNat 23 16) (bits b.toNat 31 24) isDx8
  ((f32.round x 0 false).1, fl)

/-- The result of an instruction of the unit. -/
def VfuOp.result (o : VfuOp) : Lanes × Flags :=
  let dx8 := o.mode % 16 = 7
  if o.op9 = 0x0A2 then dxpack dx8 o.mask o.a o.b
  else
    let g (l : Nat) : Nat × Flags :=
      if o.op9 = 0x0A3 then dxunpk dx8 (o.a.at l) (o.b.at l)
      else vfuFunc o.op9 (o.a.at l).toNat (o.mode / 16 % 8)
    (Lanes.tab fun l => wd (g l).1, Flags.gather o.mask fun l => (g l).2)

/-! ### The constructors -/

/-- FADD (R153). -/
def execFadd (x : XF) (s : State) : Result := opFadd (viewX 0x080 x) s

/-- FADD_W32 (R153), as its X64 form with the cell's fixed modifiers (02 R63). -/
def execFaddW32 (w : WF) (s : State) : Result := opFadd (viewW 0x080 .dab 0x00 w) s

/-- FADD_H16 (R153), as its X64 form in two-address form (02 R35, R36). -/
def execFaddH16 (h : HF) (s : State) : Result := opFadd (viewH 0xB 0x080 0 h) s

/-- FSUB (R153). -/
def execFsub (x : XF) (s : State) : Result := opFsub (viewX 0x081 x) s

/-- FSUB_W32 (R153), as its X64 form with the cell's fixed modifiers (02 R63). -/
def execFsubW32 (w : WF) (s : State) : Result := opFsub (viewW 0x081 .dab 0x00 w) s

/-- FSUB_H16 (R153), as its X64 form in two-address form (02 R35, R36). -/
def execFsubH16 (h : HF) (s : State) : Result := opFsub (viewH 0xC 0x081 0 h) s

/-- FMUL (R153). -/
def execFmul (x : XF) (s : State) : Result := opFmul (viewX 0x082 x) s

/-- FMUL_W32 (R153), as its X64 form with the cell's fixed modifiers (02 R63). -/
def execFmulW32 (w : WF) (s : State) : Result := opFmul (viewW 0x082 .dab 0x00 w) s

/-- FMUL_H16 (R153), as its X64 form in two-address form (02 R35, R36). -/
def execFmulH16 (h : HF) (s : State) : Result := opFmul (viewH 0xD 0x082 0 h) s

/-- FMAC_RN (R153). -/
def execFmacRn (x : XF) (s : State) : Result := opFmacRn (viewX 0x083 x) s

/-- FMAC_RZ (R153). -/
def execFmacRz (x : XF) (s : State) : Result := opFmacRz (viewX 0x084 x) s

/-- FMAC_RU (R153). -/
def execFmacRu (x : XF) (s : State) : Result := opFmacRu (viewX 0x085 x) s

/-- FMAC_RD (R153). -/
def execFmacRd (x : XF) (s : State) : Result := opFmacRd (viewX 0x086 x) s

/-- FMIN (R154). -/
def execFmin (x : XF) (s : State) : Result := opFmin (viewX 0x087 x) s

/-- FMIN_W32 (R154), as its X64 form with the cell's fixed modifiers (02 R63). -/
def execFminW32 (w : WF) (s : State) : Result := opFmin (viewW 0x087 .dab 0x00 w) s

/-- FMIN_H16 (R154), as its X64 form in two-address form (02 R35, R36). -/
def execFminH16 (h : HF) (s : State) : Result := opFmin (viewH 0xE 0x087 0 h) s

/-- FMAX (R154). -/
def execFmax (x : XF) (s : State) : Result := opFmax (viewX 0x088 x) s

/-- FMAX_W32 (R154), as its X64 form with the cell's fixed modifiers (02 R63). -/
def execFmaxW32 (w : WF) (s : State) : Result := opFmax (viewW 0x088 .dab 0x00 w) s

/-- FMAX_H16 (R154), as its X64 form in two-address form (02 R35, R36). -/
def execFmaxH16 (h : HF) (s : State) : Result := opFmax (viewH 0xF 0x088 0 h) s

/-- FCMP (R155). -/
def execFcmp (x : XF) (s : State) : Result := opFcmp (viewX 0x089 x) s

/-- FCLASS (R156). -/
def execFclass (x : XF) (s : State) : Result := opFclass (viewX 0x08A x) s

/-- FRINT (R157). -/
def execFrint (x : XF) (s : State) : Result := opFrint (viewX 0x08B x) s

/-- FRCP (R159). -/
def execFrcp (x : XF) (s : State) : Result := opFrcp (viewX 0x090 x) s

/-- FRSQ (R159). -/
def execFrsq (x : XF) (s : State) : Result := opFrsq (viewX 0x091 x) s

/-- FSQRT (R159). -/
def execFsqrt (x : XF) (s : State) : Result := opFsqrt (viewX 0x092 x) s

/-- FEX2 (R159). -/
def execFex2 (x : XF) (s : State) : Result := opFex2 (viewX 0x093 x) s

/-- FLG2 (R159). -/
def execFlg2 (x : XF) (s : State) : Result := opFlg2 (viewX 0x094 x) s

/-- FSIN (R159). -/
def execFsin (x : XF) (s : State) : Result := opFsin (viewX 0x095 x) s

/-- FCOS (R159). -/
def execFcos (x : XF) (s : State) : Result := opFcos (viewX 0x096 x) s

/-- PKADD (R160). -/
def execPkadd (x : XF) (s : State) : Result := opPkadd (viewX 0x098 x) s

/-- PKADD_F16X2_W32 (R160), as its X64 form with the cell's fixed modifiers (02 R63). -/
def execPkaddF16x2W32 (w : WF) (s : State) : Result := opPkadd (viewW 0x098 .dab 0x05 w) s

/-- PKADD_BF16X2_W32 (R160), as its X64 form with the cell's fixed modifiers (02 R63). -/
def execPkaddBf16x2W32 (w : WF) (s : State) : Result := opPkadd (viewW 0x098 .dab 0x06 w) s

/-- PKMUL (R160). -/
def execPkmul (x : XF) (s : State) : Result := opPkmul (viewX 0x099 x) s

/-- PKMUL_F16X2_W32 (R160), as its X64 form with the cell's fixed modifiers (02 R63). -/
def execPkmulF16x2W32 (w : WF) (s : State) : Result := opPkmul (viewW 0x099 .dab 0x05 w) s

/-- PKMUL_BF16X2_W32 (R160), as its X64 form with the cell's fixed modifiers (02 R63). -/
def execPkmulBf16x2W32 (w : WF) (s : State) : Result := opPkmul (viewW 0x099 .dab 0x06 w) s

/-- PKFMA_F16X2 (R160). -/
def execPkfmaF16x2 (x : XF) (s : State) : Result := opPkfmaF16x2 (viewX 0x09A x) s

/-- PKFMA_BF16X2 (R160). -/
def execPkfmaBf16x2 (x : XF) (s : State) : Result := opPkfmaBf16x2 (viewX 0x09B x) s

/-- CVT_F (R162). -/
def execCvtF (x : XF) (s : State) : Result := opCvtF (viewX 0x0A0 x) s

/-- CVT_I (R163). -/
def execCvtI (x : XF) (s : State) : Result := opCvtI (viewX 0x0A1 x) s

/-- DXPACK (R165). -/
def execDxpack (x : XF) (s : State) : Result := opDxpack (viewX 0x0A2 x) s

/-- DXUNPK (R166). -/
def execDxunpk (x : XF) (s : State) : Result := opDxunpk (viewX 0x0A3 x) s

end Sys2Proof.Machine
end

