-- ==== Sys2Proof/Machine/Context.lean ====
section
/-!
DEFINITION. The context save area (14 R315 to R318): its layout, writing a team or a fault flight out, reading it back, and
the writes that an operation completing for a saved party makes to its saved state (03 R82).
-/

namespace Sys2Proof.Machine

/-! ### Layout -/

/-- The counts that fix a context's layout. -/
structure CtxShape where
  flights : Nat
  u : Nat
  a : Nat
  g : Nat
  sb : Nat
  mx : Bool
  deriving DecidableEq, Repr

def pad128 (n : Nat) : Nat := (n + 127) / 128 * 128

/-- Bytes of FLT, UNI, AFF, GEN, ACC, SEQ, SCR, FEB and BAT (14 R316). -/
def CtxShape.sizes (c : CtxShape) : List Nat :=
  [c.flights * 256, c.flights * c.u * 4, c.flights * c.a * 8, c.flights * c.g * 128, if c.mx then 262144 else 0,
    if c.mx then 1024 else 0, c.sb, c.sb / 64, 256]

/-- Section offsets, each on a 128-byte boundary, and SIZE. -/
def offsetsFrom : Nat → List Nat → List Nat × Nat
  | o, [] => ([], o)
  | o, [n] => ([pad128 o], pad128 o + n)
  | o, n :: ns =>
    let r := offsetsFrom (pad128 o + n) ns
    (pad128 o :: r.1, r.2)

def CtxShape.offsets (c : CtxShape) : List Nat := (offsetsFrom 256 c.sizes).1
def CtxShape.size (c : CtxShape) : Nat := (offsetsFrom 256 c.sizes).2
def CtxShape.off (c : CtxShape) (i : Nat) : Nat := c.offsets.getD i 0

/-- The registers of a class, ascending. -/
def classRegs (m : List ShapeClass) (k : ShapeClass) : List Nat := (List.range 240).filter fun r => m.getD r .absent = k

def shapeOf (m : List ShapeClass) (flights sb : Nat) (mx : Bool) : CtxShape :=
  ⟨flights, (classRegs m .uniform).length, (classRegs m .affine).length, (classRegs m .general).length, sb, mx⟩

/-- Where a saved context lies: at a base, or on a swap frame's pages from an offset (14 R307). -/
inductive Frame where
  | at (base : Nat)
  | pages (ps : List Nat) (start : Nat)
  deriving DecidableEq, Repr

def Frame.addr (f : Frame) (o : Nat) : Nat :=
  match f with
  | .at b => b + o
  | .pages ps st => ps.getD ((st + o) / 4096) 0 + (st + o) % 4096

/-- Write bytes at an offset of a frame, past every cache (14 R315). -/
def State.frameWrite (s : State) (fr : Frame) (o : Nat) (bs : List Byte) : State :=
  s.devWrite ((List.range bs.length).map fun i => (fr.addr (o + i), bs.getD i 0))

/-- Before a range of a frame is read, what is gathered or cached of it is written back and dropped (14 R315). -/
def State.frameDrop (s : State) (fr : Frame) (o n : Nat) : State :=
  (((List.range n).map fun i => fr.addr (o + i) / 128).dedup).foldl (fun s ln => (s.gatherLine ln).flushLine ln) s

def State.frameRead (s : State) (fr : Frame) (o n : Nat) : List Byte :=
  (List.range n).map fun i => let a := fr.addr (o + i); if s.mapped a then s.byte a else 0

def State.frameNat (s : State) (fr : Frame) (o n : Nat) : Nat := leNat (s.frameRead fr o n)

/-! ### Sections -/

def wordBytes (w : Word) : List Byte := leBytes 4 w.toNat

def granCode : Granule → Nat
  | .empty => 0 | .full => 1 | .poisonedError => 2 | .poisonedChecksum => 3

def granOf (n : Nat) : Granule := if n = 1 then .full else if n = 2 then .poisonedError else if n = 3 then .poisonedChecksum else .empty

/-- The state of granule `g`; Empty at placement (08 R197). -/
def Team.gran (t : Team) (g : Nat) : Granule := ((kget Prod.fst g t.granules).map Prod.snd).getD .empty

/-- LDS.WAIT, by its mode. -/
def MemKind.waitMode : MemKind → Nat
  | .lds m => m
  | _ => 0
def MemKind.waits (k : MemKind) : Bool := 1 ≤ k.waitMode

/-- The pending LDS.WAIT of a flight, if any. -/
def State.waiting (s : State) (k : Nat) : Option MemOp := s.memOps.find? fun o => o.flight = k && o.kind.waits

/-- WAIT and WGRAN (08 R201; 14 R317). -/
def State.waitWords (s : State) (f : Flight) : List Byte :=
  match s.waiting f.key with
  | some o =>
    let mode := o.kind.waitMode
    leBytes 8 (o.mask.toNat + 2 ^ 32 * o.dst + 2 ^ 40 * mode + 2 ^ 44 * (o.flag.getD 15) + 2 ^ 48)
      ++ (laneIds.flatMap fun l => leBytes 2 ((((o.lanes.find? fun a => a.lane = l).map fun a => a.addrs.headD 0 / 16)).getD 0))
  | none => List.replicate 72 0

/-- The per-flight block (14 R317). Level n's barrier bits are at [2n−1:2n−2]: pending above, parity below. -/
def State.flightBlock (s : State) (f : Flight) : List Byte :=
  let bar := (List.range 7).foldl (fun v n =>
    let b := f.bars.getD n ⟨none, 0⟩
    v + 2 ^ (2 * n) * ((if b.pending.isSome then 2 else 0) + b.gen % 2)) 0
  let st := (if f.ended then 1 else 0) + (match f.role with
      | .collapsed _ => 2
      | _ => 0) + (match f.block with
      | .land _ => 4
      | _ => 0)
  leBytes 8 f.pc.toNat
    ++ leBytes 8 (f.chain.head.toNat + (if f.chain.isOpen then 1 else 0))
    ++ wordBytes f.em ++ leBytes 4 f.fstat.toNat
    ++ (List.range 7).flatMap (fun n => wordBytes (f.preds.getD n 0))
    ++ leBytes 2 (stepCode f.macroStep).toNat ++ leBytes 2 bar
    ++ (List.range 12).map (fun n => BitVec.ofNat 8 (f.flags.getD n 0))
    ++ leBytes 4 st ++ s.waitWords f
    ++ [f.trap.cause, f.trap.lane.setWidth 8, f.trap.imm, 0] ++ wordBytes f.trap.em
    ++ leBytes 8 f.trap.tepc.toNat ++ leBytes 8 f.trap.tdpc.toNat ++ leBytes 2 f.trap.tstep.toNat
    ++ List.replicate 6 0 ++ List.replicate 80 0

def uniBytes (f : Flight) (rs : List Nat) : List Byte := rs.flatMap fun r => wordBytes ((f.reg r).lanes.at 0)
def affBytes (f : Flight) (rs : List Nat) : List Byte := rs.flatMap fun r => match f.reg r with
  | .affine b st => wordBytes b ++ wordBytes st
  | v => wordBytes (v.lanes.at 0) ++ wordBytes 0
def genBytes (f : Flight) (rs : List Nat) : List Byte := rs.flatMap fun r => (f.reg r).lanes.flatMap wordBytes

/-- The 128 words of accumulator row `r` (12 R269): a row that is not listed is +0. -/
def MxCore.row (m : MxCore) (r : Nat) : List Word := ((kget Prod.fst r m.rows).map Prod.snd).getD (List.replicate 128 0)

def BufRec.zero : BufRec := ⟨0, 0, 0, 0, 0⟩

/-- A record from its 40 bytes. -/
def recOf (bs : List Byte) : BufRec :=
  let q (i : Nat) : DWord := dw (leNat ((bs.drop (8 * i)).take 8))
  ⟨q 0, q 1, q 2, q 3, q 4⟩

def recBytes (r : BufRec) : List Byte := [r.q0, r.q1, r.q2, r.q3, r.q4].flatMap fun q => leBytes 8 q.toNat

/-- A descriptor of a bank (14 R318). -/
def bankBytes (b : Bank) : List Byte :=
  [if b.desc.isL2 then 1 else 0, BitVec.ofNat 8 b.fmt, if b.valid then 1 else 0, b.poison.getD 0] ++ leBytes 4 b.desc.off
    ++ recBytes b.desc.record ++ List.replicate 16 0

/-- A queued command in 32 bytes; the layout within them is the model's (log 11): key, bank, tile, row, rows. -/
def cmdBytes (c : MxCmd) : List Byte :=
  leBytes 8 c.key ++ leBytes 2 c.bank ++ leBytes 2 c.tile ++ leBytes 4 c.row ++ leBytes 4 c.rows ++ List.replicate 12 0

/-- The SEQ section (14 R318). -/
def State.seqBytes (s : State) (m : MxCore) (team : Nat) : List Byte :=
  let q := (s.mxq.filter fun c => c.team = team).take 8
  let cur := q.find? fun c => c.started
  let pz := (List.range 128).map fun i => (List.range 4).foldl (fun v j =>
    let code := match kget Prod.fst (4 * i + j) m.poison with
      | some p => if p.2 = 10 then 3 else 2
      | none => 0
    v + 4 ^ j * code) 0
  let cmds := q.flatMap cmdBytes
  cmds ++ List.replicate (256 - cmds.length) 0 ++ bankBytes m.w0 ++ bankBytes m.w1
    ++ leBytes 2 ((cur.map MxCmd.next).getD 0) ++ [if (cur.map MxCmd.paused).getD false then 1 else 0]
    ++ List.replicate 61 0 ++ pz.map (BitVec.ofNat 8) ++ List.replicate 448 0

/-- The FEB section (14 R316). -/
def febBytes (t : Team) (sb : Nat) : List Byte :=
  (List.range (sb / 64)).map fun i => BitVec.ofNat 8 ((List.range 4).foldl (fun v j => v + 4 ^ j * granCode (t.gran (4 * i + j))) 0)

/-- The BAT section (14 R316). -/
def batBytes (t : Team) : List Byte :=
  (List.range 8).map (fun k => BitVec.ofNat 8 (t.batches.getD k 0)) ++ List.replicate 120 0
    ++ (List.range 8).flatMap (fun i => match t.windows[i]? with
        | some w => leBytes 4 w.num ++ leBytes 4 w.off ++ leBytes 4 w.len ++ leBytes 4 1
        | none => List.replicate 16 0)

/-- The index of a flight among all flights of the grid, level 1 fastest. -/
def Grid.digit (g : Grid) (flightIdx n : Nat) : Nat :=
  if n = 0 || n > g.levels.length then 0
  else flightIdx / (List.range (n - 1)).foldl (fun p m => p * g.ext (m + 1)) 1 % g.ext n

/-- SR.LVL_ID of level n for flight `i` of team `t`. -/
def Grid.lvlId (g : Grid) (team i n : Nat) : Nat := g.digit (team * g.flights + i) n

/-! ### Saving -/

/-- What a context's header names. -/
structure CtxHead where
  variant : Nat
  reason  : Nat
  teamId  : Nat
  launch  : DWord
  lvl     : List Nat
  cycle   : Nat
  deriving DecidableEq, Repr

def headBytes (h : CtxHead) (c : CtxShape) : List Byte :=
  leBytes 2 0xC5A0 ++ leBytes 1 h.variant ++ leBytes 1 c.flights ++ leBytes 1 h.reason ++ [0] ++ leBytes 2 h.teamId
    ++ leBytes 8 h.launch.toNat ++ leBytes 4 c.u ++ leBytes 4 c.a ++ leBytes 4 c.g ++ leBytes 4 c.sb ++ leBytes 8 c.size
    ++ [if c.mx then 1 else 0] ++ List.replicate 7 0 ++ c.offsets.flatMap (leBytes 4) ++ List.replicate 12 0
    ++ h.lvl.flatMap (leBytes 4) ++ leBytes 8 h.cycle ++ List.replicate 120 0

/-- Write a whole context: header, flights, registers, and for a team its matrix state, scratchpad, granules and batches. -/
def State.saveCtx (s : State) (fr : Frame) (h : CtxHead) (c : CtxShape) (fs : List Flight) (cm : List ShapeClass)
    (t : Option Team) : State :=
  let s : State := (s.frameDrop fr 0 c.size).frameWrite fr 0 (headBytes h c)
  let s : State := s.frameWrite fr (c.off 0) (fs.flatMap s.flightBlock)
  let s : State := s.frameWrite fr (c.off 1) (fs.flatMap fun f => uniBytes f (classRegs cm .uniform))
  let s : State := s.frameWrite fr (c.off 2) (fs.flatMap fun f => affBytes f (classRegs cm .affine))
  let s : State := s.frameWrite fr (c.off 3) (fs.flatMap fun f => genBytes f (classRegs cm .general))
  match t with
  | none => s.frameWrite fr (c.off 8) (List.replicate 256 0)
  | some t =>
    let s : State := if c.mx then
        let m := s.mxCore t.core
        (s.frameWrite fr (c.off 4) ((List.range 512).flatMap fun r => (m.row r).flatMap wordBytes)).frameWrite fr (c.off 5)
          (s.seqBytes m t.key)
      else s
    let s : State := s.frameWrite fr (c.off 6) (t.scratch.read 0 c.sb)
    let s : State := s.frameWrite fr (c.off 7) (febBytes t c.sb)
    s.frameWrite fr (c.off 8) (batBytes t)

/-! ### Reading back -/

/-- A flight's state at a barrier level from its two bits: pending above, parity below. -/
def BarState.read (b : BarState) (n : Nat) : BarState :=
  let gen := if b.gen % 2 = n % 2 then b.gen else b.gen + 1
  ⟨if n / 2 % 2 = 1 then some (b.pending.getD (gen - 1)) else none, gen⟩

/-- A flight from its block and registers; what the block does not hold is rebuilt (03 R75, R76), and a wait
goes on (R98). A chain that the context says is open is entered at its head. -/
def State.loadFlight (s : State) (fr : Frame) (c : CtxShape) (cm : List ShapeClass) (i : Nat) (f : Flight) : Flight :=
  let b := c.off 0 + 256 * i
  let n (o k : Nat) : Nat := s.frameNat fr (b + o) k
  let uni := classRegs cm .uniform
  let aff := classRegs cm .affine
  let gen := classRegs cm .general
  let bar := n 0x36 2
  let st := n 0x44 4
  let head := n 0x08 8
  let pc : DWord := dw (if head % 2 = 1 then head - 1 else n 0x00 8) &&& pcMask
  let regs : List (Nat × RegVal) :=
    (List.range uni.length).map (fun j => (uni.getD j 0, RegVal.uniform (wd (s.frameNat fr (c.off 1 + 4 * (i * c.u + j)) 4))))
      ++ (List.range aff.length).map (fun j =>
        let o := c.off 2 + 8 * (i * c.a + j)
        (aff.getD j 0, RegVal.affine (wd (s.frameNat fr o 4)) (wd (s.frameNat fr (o + 4) 4))))
      ++ (List.range gen.length).map (fun j =>
        let o := c.off 3 + 128 * (i * c.g + j)
        (gen.getD j 0, RegVal.general (Lanes.tab fun l => wd (s.frameNat fr (o + 4 * l) 4))))
  let lane := BitVec.ofNat 5 (n 0x91 1)
  { f with
    pc := pc
    em := wd (n 0x10 4)
    fstat := BitVec.ofNat 6 (n 0x14 4)
    preds := (List.range 7).map fun k => wd (n (0x18 + 4 * k) 4)
    macroStep := stepOfCode (BitVec.ofNat 16 (n 0x34 2))
    bars := (List.range 7).map fun k => (f.bars.getD k ⟨none, 0⟩).read (bits bar (2 * k + 1) (2 * k))
    flags := (List.range 12).map fun k => n (0x38 + k) 1 % 64
    ended := st % 2 = 1
    role := if f.role.isService then f.role else if bits st 1 1 = 1 then .collapsed lane.toNat else .lane
    trap := ⟨BitVec.ofNat 8 (n 0x90 1), lane, BitVec.ofNat 8 (n 0x92 1), wd (n 0x94 4), dw (n 0x98 8), dw (n 0xA0 8),
      BitVec.ofNat 16 (n 0xA8 2)⟩
    regs := regs
    chain := Chain.closed
    block := if pc ≠ f.pc || f.block.atIssue then .none else match f.block with
      | .land id => if bits st 2 2 = 1 then .land id else .none
      | b => b
    lastIssue := none
    waitCount := 0
    yielding := none
    pend := [] }

/-- The pending LDS.WAIT re-arms as the context records it: destination, lanes, granules, mode and set flag (08 R201; 14 R317).
The word within a granule, which the context does not record, is as the device has kept it (log 11). -/
def State.rearm (s : State) (fr : Frame) (c : CtxShape) (f : Flight) : State :=
  let b := c.off 0 + 256 * f.index
  let w := s.frameNat fr (b + 0x48) 8
  let old := s.waiting f.key
  let rest := s.memOps.filter fun o => some o.key ≠ old.map MemOp.key
  if bits w 48 48 = 0 then { s with memOps := rest }
  else
    let lane (l : Nat) : LaneAcc :=
      let was := (old.bind fun o => o.lanes.find? fun a => a.lane = l).getD ⟨l, [], [], 0, 0, 0, []⟩
      let at' := 16 * s.frameNat fr (b + 0x50 + 2 * l) 2 + was.addrs.headD 0 % 16
      { was with addrs := (List.range 4).map fun i => at' + i }
    let base : MemOp := old.getD
      { key := s.nextKey, flight := f.key, kind := .lds 1, order := 0, scope := 1, policy := 0, record := BufRec.zero, disp := 0,
        dst := 0, mask := 0, lanes := [], flag := none, pc := f.pc }
    let o : MemOp := { base with
      kind := .lds (bits w 41 40)
      dst := bits w 39 32
      mask := wd (bits w 31 0)
      lanes := (lanesOf (wd (bits w 31 0))).map lane
      flag := if bits w 47 44 < 12 then some (bits w 47 44) else none }
    ({ s with memOps := rest ++ [o] } : State).freshKey

/-- A team's scratchpad, granules, batches and windows read back; windows are open with every line unfilled (08 R204). -/
def State.loadTeam (s : State) (fr : Frame) (c : CtxShape) (t : Team) : Team :=
  let feb := s.frameRead fr (c.off 7) (c.sb / 64)
  let slot (i k : Nat) : Nat := s.frameNat fr (c.off 8 + 0x80 + 16 * i + 4 * k) 4
  { t with
    scratch := (bytesAt 0 (s.frameRead fr (c.off 6) c.sb)).foldl (fun m w => m.set w.1 w.2) []
    granules := ((List.range (c.sb / 16)).map fun g => (g, granOf (bits (feb.getD (g / 4) 0).toNat (2 * (g % 4) + 1) (2 * (g % 4))))).filter
      fun p => p.2 ≠ .empty
    batches := (List.range 8).map fun k => s.frameNat fr (c.off 8 + k) 1
    windows := ((List.range 8).filter fun i => slot i 3 % 2 = 1).filterMap fun i =>
      (t.windows.find? fun w => w.num = slot i 0).map fun (w : Window) =>
        { w with off := slot i 1, len := slot i 2, filled := [], dirty := [] } }

/-- A bank's descriptor read back. What the bank held stands unless the context names another source. -/
def Bank.read (b : Bank) (bs : List Byte) : Bank :=
  let d : BankSrc := ⟨bs.getD 0 0 = 1, recOf (bs.drop 8), leNat ((bs.drop 4).take 4), b.desc.pages⟩
  { b with
    fmt := (bs.getD 1 0).toNat
    valid := bs.getD 2 0 = 1
    poison := if bs.getD 3 0 = 0 then none else some (bs.getD 3 0)
    desc := d
    held := if d = b.desc then b.held else d }

/-- The accumulator rows, row poison and banks read back (14 R316, R318); both banks are to be reloaded (12 R277). -/
def State.loadMx (s : State) (fr : Frame) (c : CtxShape) (m : MxCore) : MxCore :=
  let rows := (List.range 512).map fun r => (r, (List.range 128).map fun i => wd (s.frameNat fr (c.off 4 + 512 * r + 4 * i) 4))
  let pz := (List.range 512).filterMap fun r =>
    let code := bits (s.frameNat fr (c.off 5 + 0x1C0 + r / 4) 1) (2 * (r % 4) + 1) (2 * (r % 4))
    if code = 2 then some (r, (9 : BitVec 8)) else if code = 3 then some (r, (10 : BitVec 8)) else none
  { m with
    rows := rows.filter fun p => p.2.any (· ≠ 0)
    poison := pz
    w0 := m.w0.read (s.frameRead fr (c.off 5 + 0x100) 64)
    w1 := m.w1.read (s.frameRead fr (c.off 5 + 0x140) 64)
    reload := [0, 1] }

/-- The team's queue read back: its commands in the order of the context, the next row and the pause of the one that streams
(14 R318). -/
def State.loadSeq (s : State) (fr : Frame) (c : CtxShape) (team : Nat) : State :=
  let o := c.off 5
  let n (k w : Nat) : Nat := s.frameNat fr (o + k) w
  let cmds := (List.range 8).filterMap fun i => (s.mxCmd (n (32 * i) 8)).bind fun (q : MxCmd) =>
    if q.team ≠ team then none
    else some { q with
      bank := n (32 * i + 8) 2
      tile := n (32 * i + 10) 2
      row := n (32 * i + 12) 4
      rows := n (32 * i + 16) 4
      next := if q.started then n 0x180 2 else q.next
      paused := if q.started then n 0x182 1 = 1 else q.paused }
  { s with mxq := (s.mxq.filter fun q => q.team ≠ team) ++ cmds }

/-! ### Saved parties -/

/-- FRAMESZ and the frames of a launch (14 R307). -/
def Grid.teamShape (g : Grid) (v : Variant) : CtxShape := shapeOf v.classMap g.flights v.scratch v.isMatrix

def State.teamFrame (s : State) (t : Team) : Option Frame :=
  match t.state with
  | .swapped => (s.grid t.grid).map fun g => .pages g.swap (t.index * g.frameSz)
  | .faulted f | .ready f => some (.at ((s.owner t.vd).onPort f))
  | .parked pa _ => some (.at ((s.owner t.vd).onPort pa))
  | _ => none

/-- Fault flight k's handler frame (15 R332). -/
def Owner.hframe (o : Owner) (k : Nat) : Nat := o.vbase.toNat + 0x400 + 0x4000 * k
def Owner.handlerFrame (o : Owner) (k : Nat) : Frame := .at (o.onPort (o.hframe k))

/-- Where a flight's context lies when it is saved: its team's frame, or the handler frame of a suspended fault flight
(15 R332, R348). -/
def State.flightFrame (s : State) (f : Flight) : Option Frame :=
  match f.role with
  | .fault k => if f.block = .suspended then some ((s.owner f.vd).handlerFrame k) else none
  | .walk => none
  | _ => (s.team f.team).bind s.teamFrame

/-- The shape of a flight's context. -/
def State.flightShape (s : State) (f : Flight) : CtxShape :=
  if f.role.isService then shapeOf f.classMap 1 0 false
  else match s.team f.team with
    | some t => match s.grid t.grid, s.variantOf t with
      | some g, some v => g.teamShape v
      | _, _ => shapeOf f.classMap 1 0 false
    | none => shapeOf f.classMap 1 0 false

/-- The flight's block in its context. -/
def Flight.blockIdx (f : Flight) : Nat := if f.role.isService then 0 else f.index

/-- An operation that completed for a saved flight changes the saved state: its flags and FSTAT (03 R82; 05 R146). -/
def State.syncFlags (s : State) (k : Nat) : State :=
  match s.flight k with
  | none => s
  | some f =>
    match s.flightFrame f with
    | none => s
    | some fr =>
      let b := 256 + 256 * f.blockIdx
      (s.frameWrite fr (b + 0x14) (leBytes 4 f.fstat.toNat)).frameWrite fr (b + 0x38)
        ((List.range 12).map fun n => BitVec.ofNat 8 (f.flags.getD n 0))

/-- The slot of a spilt team in its owner's spill area (17 R382). -/
def State.spillFrame (s : State) (t : Team) : Frame :=
  .at ((s.owner t.vd).onPort ((s.owner t.vd).spillBase.toNat + t.handle * (s.owner t.vd).spillStride.toNat))

/-- Where register `r` of a flight lies in a context, and its bytes. -/
def CtxShape.regAt (c : CtxShape) (f : Flight) (r : Nat) : Nat × List Byte :=
  let i := f.blockIdx
  let idx (cls : ShapeClass) : Nat := ((classRegs f.classMap cls).filter (· < r)).length
  match f.reg r with
  | .uniform u => (c.off 1 + 4 * (i * c.u + idx .uniform), wordBytes u)
  | .affine b st => (c.off 2 + 8 * (i * c.a + idx .affine), wordBytes b ++ wordBytes st)
  | .general row => (c.off 3 + 128 * (i * c.g + idx .general), row.flatMap wordBytes)

/-- The frame that holds a register of a flight: its saved context, or its team's spill slot. -/
def State.regFrame (s : State) (f : Flight) (r : Nat) : Option Frame :=
  match s.flightFrame f with
  | some fr => some fr
  | none =>
    if f.role.isService then none
    else match s.team f.team with
      | some t => if t.spills.contains (.reg f.index r) then some (s.spillFrame t) else none
      | none => none

/-- A register written for a saved flight. -/
def State.syncReg (s : State) (k r : Nat) : State :=
  match s.flight k with
  | none => s
  | some f =>
    match s.regFrame f r with
    | none => s
    | some fr =>
      let p := (s.flightShape f).regAt f r
      s.frameWrite fr p.1 p.2

/-- Scratchpad bytes and granule states written for a saved team. -/
def State.syncScratch (s : State) (tk : Nat) (offs : List Nat) : State :=
  match s.team tk with
  | none => s
  | some t =>
    let fr := match s.teamFrame t with
      | some fr => some fr
      | none => if t.spills = [] then none else some (s.spillFrame t)
    match fr, s.grid t.grid, s.variantOf t with
    | some fr, some g, some v =>
      let c := g.teamShape v
      let offs := if t.spills = [] then offs else offs.filter fun o => t.spills.any fun p => match p with
        | .granules a n => a ≤ o / 16 && o / 16 < a + n
        | _ => false
      let s : State := offs.foldl (fun s o => s.frameWrite fr (c.off 6 + o) [t.scratch.get o]) s
      (offs.map (· / 64)).dedup.foldl (fun s i => s.frameWrite fr (c.off 7 + i) [(febBytes t c.sb).getD i 0]) s
    | _, _, _ => s

/-! ### Landing of variable-latency results -/

/-- The results for registers that the flight has: VZ takes none, and after a remap neither does a register that the target
variant lacks (log 86). -/
def Flight.havePuts (f : Flight) (puts : List (Nat × Lanes)) : List (Nat × Lanes) := puts.filter fun p => f.present p.1

/-- A register's value with the masked lanes replaced, under its class; or the lowest active lane that breaks it (04 R111). -/
def Flight.fitPut (f : Flight) (r : Nat) (mask : Word) (vals : Lanes) : Except (Option Nat) RegVal :=
  formShape (f.cls r) (f.reg r).stride mask (mergeLanes mask (f.reg r).lanes vals)

/-- The reported lane where some of these results breaks its register's shape class (04 R112, R113). -/
def Flight.misfit (f : Flight) (mask : Word) (puts : List (Nat × Lanes)) : Option Nat :=
  if mask = 0 then none
  else
    let bad := (f.havePuts puts).foldl (fun (b : Option (Option Nat)) p => match f.fitPut p.1 mask p.2 with
      | .ok _ => b
      | .error l => some (lowerLane (b.getD none) l)) none
    bad.map fun l => l.getD (lowestLane mask)

/-- Some of the results breaks its class. The instruction then has no other effect but that it completes: SHAPE_VIOLATION is
raised before the next issue, as poison is (03 R95; 05 R147; 08 R196; log 12). -/
def State.misfits (s : State) (k : Nat) (mask : Word) (puts : List (Nat × Lanes)) : Bool :=
  match s.flight k with
  | some f => (f.misfit mask puts).isSome
  | none => false

/-- The results of a variable-latency instruction reach their registers together (03 R83), or none does and SHAPE_VIOLATION
waits for the next issue (04 R111). -/
def State.landVar (s : State) (k : Nat) (mask : Word) (puts : List (Nat × Lanes)) (pc : DWord) : State :=
  match s.flight k with
  | none => s
  | some f =>
    match f.misfit mask puts with
    | some lane => s.putFlight { f with poisoned := f.poisoned ++ [⟨BitVec.ofNat 8 Trap.shapeViolation, lane, pc⟩] }
    | none =>
      if mask = 0 then s
      else
        let puts := f.havePuts puts
        let f : Flight := puts.foldl (fun f p => match f.fitPut p.1 mask p.2 with
          | .ok v => f.setReg p.1 v
          | .error _ => f) f
        puts.foldl (fun s p => s.syncReg k p.1) (s.putFlight f)

/-- Completion: the flags of the result, then the set flag (05 R148, 03 R82). -/
def State.complete (s : State) (k : Nat) (flag : Option Nat) (fl : Flags) : State :=
  ((s.orFstat k fl).dropFlag k flag).syncFlags k

/-- Data that arrived poisoned: nothing is written, and the cause is raised before the next issue (08 R196). -/
def State.landPoison (s : State) (k : Nat) (code lane : Nat) (pc : DWord) : State :=
  s.modFlight k fun f => { f with poisoned := f.poisoned ++ [⟨BitVec.ofNat 8 code, lane, pc⟩] }

end Sys2Proof.Machine
end

