-- ==== Sys2Proof/Machine/Memory.lean ====
section
/-!
DEFINITION. Memory instructions at issue (08): buffer records, forming addresses, checks, translation, and the operation
that enters the memory queue. Completion is in MemDone.lean.
-/

namespace Sys2Proof.Machine

/-! ### Buffer records (R181 to R183) -/

def BufRec.bounds (r : BufRec) : Nat := bits r.q0.toNat 61 60
def BufRec.kind (r : BufRec) : Nat := bits r.q0.toNat 59 57
def BufRec.base (r : BufRec) : Nat := bits r.q0.toNat 56 0
def BufRec.pitch (r : BufRec) : Nat := 16 * bits r.q1.toNat 55 40
def BufRec.extent (r : BufRec) : Nat := bits r.q1.toNat 39 0
def BufRec.sat (r : BufRec) : Bool := r.q2.getLsbD 24
def BufRec.srnd (r : BufRec) : Nat := bits r.q2.toNat 23 22
def BufRec.renc (r : BufRec) : Nat := bits r.q2.toNat 21 16
def BufRec.ilp (r : BufRec) : Nat := bits r.q2.toNat 15 10
def BufRec.ilm (r : BufRec) : Nat := bits r.q2.toNat 9 6
def BufRec.menc (r : BufRec) : Nat := bits r.q2.toNat 5 0
def BufRec.dxD (r : BufRec) : Nat := bits r.q3.toNat 60 57
def BufRec.sbase (r : BufRec) : Nat := bits r.q3.toNat 56 0
/-- BASE and SBASE of a kind-3 record: scratchpad offsets, whose upper bits are ignored. -/
def BufRec.padBase (r : BufRec) : Nat := r.base % 2 ^ 19
def BufRec.padSbase (r : BufRec) : Nat := r.sbase % 2 ^ 19
def BufRec.policy (r : BufRec) : Nat := bits r.q4.toNat 5 3
def BufRec.attar (r : BufRec) : Bool := r.q4.getLsbD 2
def BufRec.expand (r : BufRec) : Nat := bits r.q4.toNat 1 0

/-- MENC is a DX encoding. -/
def BufRec.isDx (r : BufRec) : Bool := encCode r.menc = 6 || encCode r.menc = 7
def BufRec.isDx8 (r : BufRec) : Bool := encCode r.menc = 6

/-- The buffer table of a flight, its launch's or OWN.SBUF for a service flight (15 R328), and the number that tells tables
apart in the record cache. -/
def State.tableOf (s : State) (f : Flight) : Nat × Nat :=
  if f.role.isService then ((s.owner f.vd).sbuf.toNat, 2 * f.vd + 1)
  else match (s.team f.team).bind fun t => s.grid t.grid with
    | some g => (g.buftab.toNat, 2 * g.key)
    | none => (0, 0)

/-- A walk flight makes no virtual access (15 R328): the owner stalls with WALK_NONPHYS. -/
def Ctx.virtualOk (c : Ctx) (va : Nat) : Chk Unit :=
  if c.f.role = .walk then .error (.stall 3 va) else .ok ()

/-- Record `n` as the instruction uses it: the cached version or the table's (R183). A read of exposed memory that is the
processor's, or in transfer, holds the instruction (19 R407). -/
def Ctx.record (c : Ctx) (n : Nat) : Chk (BufRec × Ctx) :=
  let (tab, g) := c.s.tableOf c.f
  let va := (tab + 0x28 * n) % vaMod
  match c.virtualOk va with
  | .error e => .error e
  | .ok () =>
    let read : Chk (BufRec × Ctx) :=
      match c.s.translateRange c.f va 40 .record c.low with
      | .error e => .error e
      | .ok ps =>
        let as := ps.map Prod.fst
        if (c.s.devHold as (.op c.f.key)).isSome then .error (.hold as)
        else
          let s : State := (c.s.served (.op c.f.key)).recallLines (as.map (· / 128)).dedup
          let r := recOf (ps.map fun p => s.readByte (if p.2 then 4 else 0) p.1)
          let recs := (s.recs.filter fun e => !(e.core = c.f.core && e.grid = g && e.num = n)) ++ [⟨c.f.core, g, n, r⟩]
          .ok (r, { c with s := { s with recs := recs } })
    match c.s.recs.find? fun e => e.core = c.f.core && e.grid = g && e.num = n with
    | some e => if c.choose 30 n then .ok (e.record, c) else read
    | none => read

/-- The record of a global access (R182). -/
def Ctx.globalRec (c : Ctx) (n : Nat) : Chk (BufRec × Ctx) :=
  match c.record n with
  | .error e => .error e
  | .ok r =>
    let k := r.1.kind
    if k = 0 || 5 ≤ k then .error (.trap Trap.bufferInvalid none)
    else if k = 3 || k = 4 then illegalOperand
    else .ok r

/-! ### Forming an address (R184, R185) -/

/-- Channel interleave. -/
def BufRec.swz (r : BufRec) (o : Nat) : Nat :=
  if r.ilm = 4 && 7 ≤ r.ilp && r.ilp ≤ 26 then o ^^^ (bits o (r.ilp + 9) (r.ilp + 5) * 2 ^ r.ilp) else o

/-- XOR row swizzle. -/
def BufRec.rowPos (r : BufRec) (x y : Nat) : Nat :=
  if r.ilm = 1 then x ^^^ (y % 2 ^ min r.ilp 6 * 16) else x

/-- Locate: the address of an element of `n` bytes at offset `off` (an element number under DX), and whether it lies in the
extent. -/
def BufRec.locate (r : BufRec) (off n : Nat) : Nat × Bool :=
  let off := if r.isDx && !r.isDx8 then off / 2 else off
  let n := if r.isDx then 1 else n
  if r.kind = 2 then
    let y := off / 2 ^ 20
    let row := r.rowPos (off % 2 ^ 20) y
    let o := r.swz (y * r.pitch + row)
    ((r.base + o) % vaMod, row + n ≤ r.pitch && o + n ≤ r.extent)
  else
    let o := r.swz off
    ((r.base + o) % vaMod, o + n ≤ r.extent)

/-- A lane of a global access: its offset, and its address unless it is clamped. -/
structure LaneVa where
  lane : Nat
  off  : Nat
  va   : Option Nat
  deriving DecidableEq, Repr

/-- The displacement of a mem or smem byte (02 R53). -/
def Ctx.disp (c : Ctx) : Nat := 4 * (c.x.c.toNat / 8)

/-- The addresses of the active lanes, extent then alignment checked lane by lane (R184, R192, R207); `skip`: an
out-of-extent lane is dropped whatever BOUNDS says (R215). -/
def Ctx.locateLanes (c : Ctx) (r : BufRec) (n disp align : Nat) (skip : Bool) : Chk (List LaneVa) :=
  let a := c.srcA
  chkAll (fun l =>
    let off := (a.at l).toNat + disp
    let (va, ok) := r.locate off n
    if !ok then
      if skip || r.bounds = 1 then .ok ⟨l, off, none⟩ else .error (.trap Trap.bufferBounds (some l))
    else if va % align ≠ 0 then .error (.trap Trap.misaligned (some l))
    else .ok ⟨l, off, some va⟩) (lanesOf c.f.em)

/-- A lane that accesses nothing. -/
def LaneAcc.none (l : Nat) : LaneAcc := ⟨l, [], [], 0, 0, 0, []⟩

/-- The addresses that a translation found uncached. -/
def uncachedOf (ps : List (Nat × Bool)) : List Nat := (ps.filter fun p => p.2).map Prod.fst

/-- Translate the bytes of every lane (R192). -/
def Ctx.translateLanes (c : Ctx) (r : BufRec) (n : Nat) (kind : AccessKind) (ls : List LaneVa) : Chk (List LaneAcc) :=
  chkAll (fun (p : LaneVa) =>
    match p.va with
    | none => .ok (LaneAcc.none p.lane)
    | some va =>
      match c.s.translateRange c.f va n kind p.lane with
      | .error e => .error e
      | .ok ps =>
        let acc : LaneAcc := { LaneAcc.none p.lane with
          addrs := ps.map Prod.fst, nibble := p.off % 2, uc := uncachedOf ps }
        if !r.isDx || kind = .atomic then .ok acc
        else match c.s.translateRange c.f ((r.sbase + 2 * (p.off / 32)) % vaMod) 2 kind p.lane with
          | .error e => .error e
          | .ok qs => .ok { acc with scale := qs.map Prod.fst, uc := acc.uc ++ uncachedOf qs }) ls

/-! ### Entering the memory queue -/

/-- The operation, as it leaves issue. -/
def Ctx.enter (c : Ctx) (o : MemOp) : State := ({ c.s with memOps := c.s.memOps ++ [{ o with key := c.s.nextKey }] }).freshKey

/-- An operation with what every instruction gives it. -/
def Ctx.memOp (c : Ctx) (kind : MemKind) (order scope : Nat) (lanes : List LaneAcc) : MemOp where
  key := 0
  flight := c.f.key
  kind := kind
  order := order
  scope := scope
  policy := 0
  record := BufRec.zero
  disp := 0
  dst := c.x.d.toNat
  mask := c.f.em
  lanes := lanes
  flag := c.flag
  pc := c.f.pc

def Ctx.scope (c : Ctx) : Nat := c.x.c.toNat % 8

/-- A pair's two registers; VZ is none. -/
def pairRegs (d : Nat) : List Nat := if d < 240 then [d, d + 1] else []

/-! ### LD, ST (R209, R187) -/

/-- Under EM zero an instruction reads no record and makes no access: it enters with no lanes and completes (03 R91). -/
def Ctx.unlessIdle (c : Ctx) (o : MemOp) (act : Chk State) : Chk State := if c.f.em = 0 then .ok (c.enter o) else act

def load (order : Nat) (c : Ctx) : Chk State := c.unlessIdle (c.memOp .ld order c.scope []) <|
  match c.globalRec c.x.b.toNat with
  | .error e => .error e
  | .ok (r, c) =>
    let n := encBytes r.menc
    match c.locateLanes r n c.disp 1 false with
    | .error e => .error e
    | .ok ls =>
      match c.translateLanes r n .load ls with
      | .error e => .error e
      | .ok as => .ok (c.enter { c.memOp .ld order c.scope as with policy := r.policy, record := r })

/-- A DX store: the active lanes name elements of one block, in place (R187); the block's bytes and its two exponents stand
in the first lane. A block with a lane out of extent under BOUNDS 1 is dropped. That the lanes name one block is checked before
the extent: DESIGN CHOICE (log 34), the rules give the two checks no order. -/
def storeDx (order : Nat) (c : Ctx) (r : BufRec) : Chk State :=
  let a := c.srcA
  let d := c.srcD
  let off (l : Nat) : Nat := (a.at l).toNat + c.disp
  let blk := off c.low / 32
  let op (as : List LaneAcc) : State := c.enter { c.memOp .st order c.scope as with policy := r.policy, record := r }
  match (lanesOf c.f.em).find? fun l => off l ≠ 32 * blk + l with
    | some l => .error (.trap Trap.illegalOperand (some l))
    | none =>
      match c.locateLanes r 1 c.disp 1 false with
      | .error e => .error e
      | .ok ls =>
        if ls.any fun p => p.va.isNone then .ok (op [])
        else
          let starts := if r.isDx8 then [32 * blk, 32 * blk + 16] else [32 * blk]
          match chkAll (fun e => c.s.translateRange c.f (r.locate e 1).1 16 .store c.low) starts with
          | .error e => .error e
          | .ok ps =>
            match c.s.translateRange c.f ((r.sbase + 2 * blk) % vaMod) 2 .store c.low with
            | .error e => .error e
            | .ok qs =>
              .ok (op ((lanesOf c.f.em).map fun l => { LaneAcc.none l with
                addrs := if l = c.low then ps.flatten.map Prod.fst else []
                scale := if l = c.low then qs.map Prod.fst else []
                data := (d.at l).setWidth 64
                uc := if l = c.low then uncachedOf (ps.flatten ++ qs) else [] }))

def store (order : Nat) (c : Ctx) : Chk State := c.unlessIdle (c.memOp .st order c.scope []) <|
  match c.globalRec c.x.b.toNat with
  | .error e => .error e
  | .ok (r, c) =>
    if r.isDx then storeDx order c r
    else
      let n := encBytes r.menc
      let d := c.srcD
      match c.locateLanes r n c.disp 1 false with
      | .error e => .error e
      | .ok ls =>
        match c.translateLanes r n .store ls with
        | .error e => .error e
        | .ok as =>
          let as := as.map fun (a : LaneAcc) => { a with data := (d.at a.lane).setWidth 64 }
          .ok (c.enter { c.memOp .st order c.scope as with policy := r.policy, record := r })

def opLd (v : View) (s : State) : Result := varOp v s (load 0)
def opLdAcq (v : View) (s : State) : Result := varOp v s (load 1)
def opLdSc (v : View) (s : State) : Result := varOp v s (load 4)
def opSt (v : View) (s : State) : Result := varOp v s (store 0)
def opStRel (v : View) (s : State) : Result := varOp v s (store 2)
def opStSc (v : View) (s : State) : Result := varOp v s (store 4)

/-! ### Atomics (R206, R207, R214) -/

/-- The ma operation, its size, and the registers that it writes. -/
def Ctx.aop (c : Ctx) : Nat := c.x.c.toNat / 8 % 16
def aopSize (op : Nat) : Nat := if op = 11 || op = 12 then 8 else 4
def aopRegs (op d : Nat) : List Nat := if op = 11 || op = 12 then pairRegs d else [d]

/-- Each lane's D, and D′ or the high half of D. -/
def Ctx.aopData (c : Ctx) (as : List LaneAcc) : List LaneAcc :=
  let d := c.srcD
  let d' := c.srcHi 0 c.x.d
  as.map fun (a : LaneAcc) => { a with
    data := if aopSize c.aop = 8 then pair64 (d.at a.lane) (d'.at a.lane) else (d.at a.lane).setWidth 64
    data2 := d'.at a.lane }

def atomic (order : Nat) (c : Ctx) : Chk State := c.unlessIdle (c.memOp (.atom c.aop) order c.scope []) <|
  match c.globalRec c.x.b.toNat with
  | .error e => .error e
  | .ok (r, c) =>
    let op := c.aop
    let n := aopSize op
    let r0 : BufRec := { r with q2 := r.q2 &&& ~~~(0x3F : DWord) }
    match c.locateLanes r0 n 0 n false with
    | .error e => .error e
    | .ok ls =>
      match c.translateLanes r0 n .atomic ls with
      | .error e => .error e
      | .ok as =>
        .ok (c.enter { c.memOp (.atom op) order c.scope (c.aopData as) with policy := r.policy, record := r })

def opAtomRlx (v : View) (s : State) : Result := varOp v s (atomic 0)
def opAtomAcq (v : View) (s : State) : Result := varOp v s (atomic 1)
def opAtomRel (v : View) (s : State) : Result := varOp v s (atomic 2)
def opAtomAr (v : View) (s : State) : Result := varOp v s (atomic 3)
def opAtomSc (v : View) (s : State) : Result := varOp v s (atomic 4)

/-! ### Scratchpad (R180, R198, R202, R203) -/

/-- Bytes of the flight's allocation; a service flight has none (15 R331). -/
def Ctx.allocation (c : Ctx) : Nat := if c.f.role.isService then 0 else (c.variant.map Variant.scratch).getD 0

/-- The open window that holds a scratchpad offset, and the line's index. -/
def Team.windowAt (t : Team) (o : Nat) : Option (Window × Nat) :=
  (t.windows.find? fun w => w.off ≤ o && o < w.off + w.len).map fun w => (w, (o - w.off) / 128)

/-- The window lines that a scratchpad access touches, each as its scratchpad offset and its physical line; an unfilled one
is translated (R192, R203). A page marked uncached is filled all the same: DESIGN CHOICE (log 85), R191 and R203 pull apart. -/
def Ctx.touch (c : Ctx) (lane : Nat) (offs : List Nat) : Chk (List Nat) :=
  match c.team with
  | none => .ok []
  | some t =>
    let touched := (offs.filterMap t.windowAt).dedup
    match chkAll (fun (p : Window × Nat) =>
        match kget Prod.fst p.2 p.1.filled with
        | some q => Except.ok [p.1.off + 128 * p.2, q.2]
        | none =>
          match c.s.translate c.f (p.1.base + 128 * p.2) .stashFill lane with
          | .error e => .error e
          | .ok (pa, _) => .ok [p.1.off + 128 * p.2, pa / 128]) touched with
    | .error e => .error e
    | .ok ls => .ok ls.flatten

/-- The scratchpad accesses of the active lanes: `n` bytes at an offset whose bits below `mask` are ignored. -/
def Ctx.scratchLanes (c : Ctx) (n disp mask align : Nat) : Chk (List LaneAcc) :=
  let a := c.srcA
  chkAll (fun l =>
    let o := ((a.at l).toNat + disp) / mask * mask
    if c.allocation ≤ o then .error (.trap Trap.bufferBounds (some l))
    else if o % align ≠ 0 then .error (.trap Trap.misaligned (some l))
    else
      let offs := (List.range n).map fun i => o + i
      match c.touch l offs with
      | .error e => .error e
      | .ok ls => .ok { LaneAcc.none l with addrs := offs, scale := ls }) (lanesOf c.f.em)

/-- An operation on the scratchpad. -/
def scratchOp (v : View) (s : State) (kind : Ctx → MemKind) (order : Ctx → Nat) (lanes : Ctx → Chk (List LaneAcc)) :
    Result := varOp v s fun c =>
  match lanes c with
  | .error e => .error e
  | .ok as => .ok (c.enter (c.memOp (kind c) (order c) 1 as))

def opAtoms (v : View) (s : State) : Result :=
  scratchOp v s (fun c => .atoms c.aop) (fun c => c.x.c.toNat % 8)
    (fun c => match c.scratchLanes (aopSize c.aop) 0 1 (aopSize c.aop) with
      | .error e => .error e
      | .ok as => .ok (c.aopData as))

def opLds (v : View) (s : State) : Result :=
  scratchOp v s (fun c => .lds (c.x.c.toNat % 8)) (fun _ => 0) (fun c => c.scratchLanes 4 c.disp 4 1)

def opSts (v : View) (s : State) : Result :=
  scratchOp v s (fun _ => .sts) (fun _ => 0) (fun c =>
    let d := c.srcD
    match c.scratchLanes 4 c.disp 4 1 with
    | .error e => .error e
    | .ok as => .ok (as.map fun (a : LaneAcc) => { a with data := (d.at a.lane).setWidth 64 }))

/-- FESET, FECLR name granules and touch no data (R211): no window line is filled. -/
def Ctx.granuleLanes (c : Ctx) : Chk (List LaneAcc) :=
  let a := c.srcA
  chkAll (fun l =>
    let o := (a.at l).toNat + c.disp
    if c.allocation ≤ o then .error (.trap Trap.bufferBounds (some l))
    else .ok { LaneAcc.none l with addrs := [o] }) (lanesOf c.f.em)

def opFeset (v : View) (s : State) : Result := scratchOp v s (fun _ => .feset) (fun _ => 0) Ctx.granuleLanes
def opFeclr (v : View) (s : State) : Result := scratchOp v s (fun _ => .feclr) (fun _ => 0) Ctx.granuleLanes

/-! ### LDFRAG (R205, R212) -/

/-- The placement of R205. -/
def fragPhys (swizzled is16 : Bool) (o r : Nat) : Nat :=
  if swizzled then o ^^^ (8 * (if is16 then r % 8 * 8 else r % 16 * 4)) else o

/-- The bytes that a lane takes of a tile, row by row. -/
def fragBytes (swz is16 : Bool) (org pitch lane : Nat) : List Nat :=
  (List.range (if is16 then 16 else 32)).flatMap fun r =>
    if is16 then
      let o := fragPhys swz is16 (org + r * pitch + 2 * lane) r
      [o, o + 1]
    else [fragPhys swz is16 (org + r * pitch + lane) r]

def opLdfrag (v : View) (s : State) : Result :=
  scratchOp v s (fun _ => .ldfrag) (fun _ => 0) (fun c =>
    if c.f.em = 0 then .ok []
    else
      let w := ((c.srcA).at c.low).toNat
      let pitch := 8 * bits w 31 21
      let swz := bits w 20 20 = 1
      let is16 := bits w 19 19 = 1
      let org := bits w 18 0 + c.disp
      if org % 8 ≠ 0 then .error (.trap Trap.misaligned none)
      else if pitch < (if is16 then 64 else 32) then illegalOperand
      else
        let all := laneIds.map fun l => fragBytes swz is16 org pitch l
        if all.any fun bs => bs.any fun o => c.allocation ≤ o then .error (.trap Trap.bufferBounds none)
        else chkAll (fun l =>
          let bs := all.getD l []
          match c.touch l bs with
          | .error e => .error e
          | .ok ls => .ok { LaneAcc.none l with addrs := bs, scale := ls, nibble := if is16 then 1 else 0 }) (lanesOf c.f.em))

/-! ### Stash windows (R202, R204, R213) -/

/-- The record of a stash instruction (R182). -/
def Ctx.stashRec (c : Ctx) (n : Nat) : Chk (BufRec × Ctx) :=
  match c.record n with
  | .error e => .error e
  | .ok r =>
    let k := r.1.kind
    if k = 0 || 5 ≤ k then .error (.trap Trap.bufferInvalid none) else if k ≠ 4 then illegalOperand else .ok r

/-- STASHMAP's refusals. -/
def windowOk (t : Team) (alloc num off : Nat) (r : BufRec) : Bool :=
  off % 128 = 0 && r.base % 128 = 0 && r.extent % 128 = 0 && r.extent ≠ 0 && off + r.extent ≤ alloc
    && t.windows.length < 8
    && t.windows.all fun w => w.num ≠ num && (off + r.extent ≤ w.off || w.off + w.len ≤ off)

/-- The window is recorded as the instruction leaves issue. -/
def opStashmap (v : View) (s : State) : Result := varOp v s fun c =>
  let num := c.x.b.toNat
  let op := c.memOp .stashmap 0 1 []
  c.unlessIdle op <|
  match c.stashRec num with
  | .error e => .error e
  | .ok (r, c) =>
    match c.team with
    | none => illegalOperand
    | some t =>
      let off := ((c.srcA).at c.low).toNat
      if !windowOk t c.allocation num off r then illegalOperand
      else
        let t' : Team := { t with windows := t.windows ++ [⟨num, off, r.extent, r.base, [], []⟩] }
        .ok ({ c with s := c.s.putTeam t' }.enter op)

/-- An operation of the team that will end the window is outstanding. -/
def State.ending (s : State) (team num : Nat) : Bool := s.memOps.any fun o =>
  o.disp = num && (o.kind = .stashflush || o.kind = .stashdrop) && o.mask ≠ 0
    && (match s.flight o.flight with
      | some f => f.team = team
      | none => false)

def stashEnd (kind : MemKind) (c : Ctx) : Chk State :=
  let num := c.x.b.toNat
  let op : MemOp := { c.memOp kind 0 1 [] with disp := num }
  c.unlessIdle op <|
  match c.stashRec num with
  | .error e => .error e
  | .ok (_, c) =>
    let open' : Bool := match c.team with
      | some t => t.windows.any (fun w => w.num = num) && !c.s.ending t.key num
      | none => false
    if !open' then illegalOperand else .ok (c.enter op)

def opStashflush (v : View) (s : State) : Result := varOp v s (stashEnd .stashflush)
def opStashdrop (v : View) (s : State) : Result := varOp v s (stashEnd .stashdrop)

/-! ### Cache control (R215) -/

/-- A prefetch lane that no TLB translates is dropped (log 36). -/
def opPref (v : View) (s : State) : Result := varOp v s fun c => c.unlessIdle (c.memOp .pref 0 c.scope []) <|
  match c.globalRec c.x.b.toNat with
  | .error e => .error e
  | .ok (r, c) =>
    match c.locateLanes r (encBytes r.menc) c.disp 1 true with
    | .error e => .error e
    | .ok ls =>
      let as := ls.filterMap fun (p : LaneVa) => p.va.bind fun va =>
        (c.s.entryFor c.f.core c.f.vd (c.s.asidOf c.f) (va % vaMod)).map fun e =>
          let pa := e.phys (va % vaMod)
          { LaneAcc.none p.lane with addrs := [pa], uc := if e.uc || c.s.uncachedAt c.f.vd pa then [pa] else [] }
      .ok (c.enter { c.memOp .pref 0 c.scope as with policy := r.policy, record := r })

/-- The extent test takes an element of MENC; the line named is that of its first byte. -/
def cacheOp (kind : MemKind) (c : Ctx) : Chk State := c.unlessIdle (c.memOp kind 0 c.scope []) <|
  match c.globalRec c.x.b.toNat with
  | .error e => .error e
  | .ok (r, c) =>
    match c.locateLanes r (encBytes r.menc) c.disp 1 true with
    | .error e => .error e
    | .ok ls =>
      match c.translateLanes { r with q2 := 0 } 1 .load ls with
      | .error e => .error e
      | .ok as => .ok (c.enter { c.memOp kind 0 c.scope as with policy := r.policy, record := r })

def opCclean (v : View) (s : State) : Result := varOp v s (cacheOp .cclean)
def opCinv (v : View) (s : State) : Result := varOp v s (cacheOp .cinv)

/-! ### LDP, STP (R180, R216; 15 R328, R338) -/

/-- The physical range a flight of owner mode may access: the walk flight inside the vestibule, others inside the
balustrade; UC of the entry. -/
def Ctx.physical (c : Ctx) (a n : Nat) : Chk Bool :=
  let o := c.s.owner c.f.vd
  if c.f.role = .walk && !o.inVestibule a n then .error (.stall 3 a)
  else match o.balustrade a n with
    | some uc => .ok (uc || c.s.uncachedAt c.f.vd a)
    | none => .error (.stall 2 a)

/-- A displacement past 2^64 wraps: DESIGN CHOICE (log 84), R216 forms p in 64 bits and says no more. -/
def Ctx.physLanes (c : Ctx) : Chk (List LaneAcc) :=
  let a := c.pairs 1 c.x.a
  chkAll (fun l =>
    let p := (a.getD l 0 + dw c.disp).toNat
    if p % 8 ≠ 0 then .error (.trap Trap.misaligned (some l))
    else if 2 ^ 52 ≤ p then .error (.trap Trap.illegalOperand (some l))
    else match c.physical p 8 with
      | .error e => .error e
      | .ok uc =>
        let as := (List.range 8).map fun i => (c.s.owner c.f.vd).onPort p + i
        .ok { LaneAcc.none l with addrs := as, uc := if uc then as else [] }) (lanesOf c.f.em)

def opLdp (v : View) (s : State) : Result := varOp v s fun c =>
  match c.physLanes with
  | .error e => .error e
  | .ok as => .ok (c.enter (c.memOp .ldp 0 c.scope as))

def opStp (v : View) (s : State) : Result := varOp v s fun c =>
  let d := c.pairs 0 c.x.d
  match c.physLanes with
  | .error e => .error e
  | .ok as => .ok (c.enter (c.memOp .stp 0 c.scope (as.map fun (a : LaneAcc) => { a with data := d.getD a.lane 0 })))

/-! ### LEA (04 R128) -/

/-- LEA checks the first byte alone, and writes a clamped lane's address too. The byte's position after interleave and pitch is
tested, as 08 R184 and R185 have it: DEDUCED (log 84), R128's own code tests the offset before them. Under EM zero it reads no
record and writes nothing. -/
def opLea (v : View) (s : State) : Result := issue v s fun c =>
  if c.f.em = 0 then
    let z : Lanes := Lanes.tab fun _ => 0
    let o : FixedOut := ⟨z, some z, 0, Fl.none⟩
    .ok (c.finish (c.postFixed 4 o []) .seq (c.writer 4 o))
  else
  match c.globalRec c.x.b.toNat with
  | .error e => .error e
  | .ok (r, c) =>
    match c.locateLanes r 1 c.disp 1 false with
    | .error e => .error e
    | .ok _ =>
      let a := c.srcA
      let va (l : Nat) : DWord := dw (r.locate ((a.at l).toNat + c.disp) 1).1
      let o : FixedOut := ⟨Lanes.tab fun l => loWord (va l), some (Lanes.tab fun l => hiWord (va l)), c.f.em, Fl.none⟩
      match c.putDst (c.now + 4) o.mask o.lo o.hi with
      | .error e => .error e
      | .ok puts => .ok (c.finish (c.postFixed 4 o puts) .seq (c.writer 4 o))

/-! ### The constructors -/

/-- LEA (R128). -/
def execLea (x : XF) (s : State) : Result := opLea (viewX 0x065 x) s

/-- LD (R209). -/
def execLd (x : XF) (s : State) : Result := opLd (viewX 0x0E0 x) s

/-- LD_ACQ (R209). -/
def execLdAcq (x : XF) (s : State) : Result := opLdAcq (viewX 0x0E1 x) s

/-- LD_SC (R209). -/
def execLdSc (x : XF) (s : State) : Result := opLdSc (viewX 0x0E2 x) s

/-- ST (R209). -/
def execSt (x : XF) (s : State) : Result := opSt (viewX 0x0E4 x) s

/-- ST_REL (R209). -/
def execStRel (x : XF) (s : State) : Result := opStRel (viewX 0x0E5 x) s

/-- ST_SC (R209). -/
def execStSc (x : XF) (s : State) : Result := opStSc (viewX 0x0E6 x) s

/-- ATOM_RLX (R214). -/
def execAtomRlx (x : XF) (s : State) : Result := opAtomRlx (viewX 0x0E8 x) s

/-- ATOM_ACQ (R214). -/
def execAtomAcq (x : XF) (s : State) : Result := opAtomAcq (viewX 0x0E9 x) s

/-- ATOM_REL (R214). -/
def execAtomRel (x : XF) (s : State) : Result := opAtomRel (viewX 0x0EA x) s

/-- ATOM_AR (R214). -/
def execAtomAr (x : XF) (s : State) : Result := opAtomAr (viewX 0x0EB x) s

/-- ATOM_SC (R214). -/
def execAtomSc (x : XF) (s : State) : Result := opAtomSc (viewX 0x0EC x) s

/-- ATOMS (R214). -/
def execAtoms (x : XF) (s : State) : Result := opAtoms (viewX 0x0F0 x) s

/-- LDS (R210). -/
def execLds (x : XF) (s : State) : Result := opLds (viewX 0x0F1 x) s

/-- STS (R210). -/
def execSts (x : XF) (s : State) : Result := opSts (viewX 0x0F2 x) s

/-- FESET (R211). -/
def execFeset (x : XF) (s : State) : Result := opFeset (viewX 0x0F3 x) s

/-- FECLR (R211). -/
def execFeclr (x : XF) (s : State) : Result := opFeclr (viewX 0x0F4 x) s

/-- LDFRAG (R212). -/
def execLdfrag (x : XF) (s : State) : Result := opLdfrag (viewX 0x0F5 x) s

/-- STASHMAP (R202). -/
def execStashmap (x : XF) (s : State) : Result := opStashmap (viewX 0x0F8 x) s

/-- STASHFLUSH (R204). -/
def execStashflush (x : XF) (s : State) : Result := opStashflush (viewX 0x0F9 x) s

/-- STASHDROP (R204). -/
def execStashdrop (x : XF) (s : State) : Result := opStashdrop (viewX 0x0FA x) s

/-- PREF (R215). -/
def execPref (x : XF) (s : State) : Result := opPref (viewX 0x100 x) s

/-- CCLEAN (R215). -/
def execCclean (x : XF) (s : State) : Result := opCclean (viewX 0x101 x) s

/-- CINV (R215). -/
def execCinv (x : XF) (s : State) : Result := opCinv (viewX 0x102 x) s

/-- LDP (R216). -/
def execLdp (x : XF) (s : State) : Result := opLdp (viewX 0x108 x) s

/-- STP (R216). -/
def execStp (x : XF) (s : State) : Result := opStp (viewX 0x109 x) s

end Sys2Proof.Machine
end

