-- ==== Sys2Proof/Machine/Ordering.lean ====
section
/-!
DEFINITION. FENCE and the barriers BAR, ARRIVE and WAITB (03 R108, R109; 09 R227, R229, R233).
-/

namespace Sys2Proof.Machine

/-! ### FENCE (09 R227) -/

/-- Loads and atomics, for which an acquire waits. SIGNAL is a launch instruction, for which no fence waits. -/
def MemKind.reads : MemKind → Bool
  | .ld | .atom _ | .lds _ | .atoms _ | .ldfrag | .ldp => true
  | _ => false

/-- The accesses for which a release waits. -/
def MemKind.accesses (k : MemKind) : Bool :=
  k.reads || match k with
    | .st | .sts | .feset | .feclr | .stp => true
    | _ => false

/-- A fence's conditions hold: order 1 acquire, 2 release, 3 both, 4 SC. The operations of the model leave the flight's list
when they are performed at their points of coherence, and memory is coherent beyond them (log 7); a gathered store that a pin holds
(12 R280) holds a release. -/
def State.fenceDone (s : State) (f : Flight) (order _scope : Nat) : Bool :=
  let mine := s.memOps.filter fun o => o.flight = f.key
  (order = 1 || !((mine.any fun o => o.kind.accesses) || s.wcStuck f.key))
    && (order = 2 || !((mine.any fun o => o.kind.reads) || f.early.any EarlyResult.reads))

def opFence (v : View) (s : State) : Result := issue v s fun c =>
  let order := c.x.c.toNat / 8
  let scope := c.x.c.toNat % 8
  let s : State := if 2 ≤ order then c.s.drainWc c.f.key else c.s
  if s.fenceDone c.f order scope then .ok (c.finish s .seq none)
  else .ok (s.blockFlight c.f (.fence order scope))

/-! ### Barriers (03 R108; 09 R229) -/

/-- The number of flights in a unit of level k. -/
def Grid.unitSize (g : Grid) (k : Nat) : Nat := (List.range k).foldl (fun p n => p * g.ext (n + 1)) 1

/-- The unit of level k that contains flight `i` of team `t`. -/
def Grid.unitOf (g : Grid) (team i k : Nat) : Nat := (team * g.flights + i) / g.unitSize k

def State.barrier (s : State) (grid level unit : Nat) : Barrier :=
  (s.barriers.find? fun b => b.grid = grid && b.level = level && b.unit = unit).getD ⟨grid, level, unit, 0, []⟩

def State.putBarrier (s : State) (b : Barrier) : State :=
  { s with barriers := (s.barriers.filter fun a => !(a.grid = b.grid && a.level = b.level && a.unit = b.unit)) ++ [b] }

/-- The grid and unit of a flight at a level. -/
def State.unitOf (s : State) (f : Flight) (level : Nat) : Option (Grid × Nat) :=
  (s.team f.team).bind fun t => (s.grid t.grid).map fun g => (g, g.unitOf t.index f.index level)

def State.flightBarrier (s : State) (f : Flight) (level : Nat) : Option Barrier :=
  (s.unitOf f level).map fun p => s.barrier p.1.key level p.2

/-- The generation of a level has completed for the flight. -/
def State.barrierDone (s : State) (f : Flight) (level gen : Nat) : Bool :=
  match s.flightBarrier f level with
  | some b => gen < b.gen
  | none => true

/-- An operation is still outstanding. -/
def State.outstanding (s : State) (k : Nat) : Bool :=
  (s.memOps.any fun o => o.key = k) || (s.copies.any fun c => c.key = k && c.state ≠ .done)

/-- A member's arrival counts, or it has ended (03 R106): it has nothing outstanding, nor a gathered store that a pin holds (12
R280). Members of teams that are not placed have not arrived. -/
def State.memberArrived (s : State) (g : Grid) (b : Barrier) (m : Nat) : Bool :=
  match s.teams.find? fun t => t.grid = g.key && t.index = m / g.flights with
  | none => false
  | some t =>
    t.state = .retired || (s.flights.any fun f => f.team = t.key && !f.role.isService && f.index = m % g.flights &&
      (f.ended || b.arrived.any fun a => a.1 = f.key && !(a.2.any s.outstanding) && !s.wcStuck f.key))

/-- The generation completes when every member has arrived or ended. -/
def State.completeGen (s : State) (g : Grid) (level unit : Nat) : State :=
  let b := s.barrier g.key level unit
  let n := g.unitSize level
  if (List.range n).all fun i => s.memberArrived g b (unit * n + i) then
    let s : State := b.arrived.foldl (fun s a => s.drainWc a.1) s
    s.putBarrier { b with gen := b.gen + 1, arrived := [] }
  else s

/-- BARRIER_GENERATION_COMPLETE (R108). -/
def execBarrierGenerationComplete (grid level unit : Nat) (s : State) : Result :=
  match s.grid grid with
  | some g => .next (s.completeGen g level unit)
  | none => .next s

/-- The levels at which the flight's end may complete a generation. -/
def State.afterEnd (s : State) (f : Flight) : State :=
  (List.range 7).foldl (fun s n =>
    match s.unitOf f (n + 1) with
    | some (g, u) => if n < g.levels.length && (s.barrier g.key (n + 1) u).arrived ≠ [] then s.completeGen g (n + 1) u else s
    | none => s) s

/-- The level of a barrier instruction: declared by the launch, not in owner mode (03 R99; 02 R60). -/
def Ctx.barLevel (c : Ctx) : Chk (Nat × Grid × Nat) :=
  let k := c.x.c.toNat
  if c.owner || k = 0 || 8 ≤ k then illegalOperand
  else match c.s.unitOf c.f k with
    | some (g, u) => if k ≤ g.levels.length then .ok (k, g, u) else illegalOperand
    | none => illegalOperand

def Flight.bar (f : Flight) (k : Nat) : BarState := f.bars.getD (k - 1) ⟨none, 0⟩
def Flight.setBar (f : Flight) (k : Nat) (b : BarState) : Flight := { f with bars := listSet f.bars (k - 1) b }

/-- What the flight has outstanding at its arrival: its accesses, and the copies of its sealed batches (09 R229, R233). -/
def State.beforeArrival (s : State) (f : Flight) : List Nat :=
  ((s.memOps.filter fun o => o.flight = f.key).map MemOp.key)
    ++ (s.copies.filter fun c => c.flight = f.key && c.batch.isSome && c.state ≠ .done).map Copy.key

/-- Arrive at the current generation; it is a release (R109). The generation joined, and the state. -/
def State.arrive (s : State) (f : Flight) (k : Nat) (g : Grid) (u : Nat) : State × Nat :=
  let s : State := s.drainWc f.key
  let b := s.barrier g.key k u
  let s : State := s.putBarrier { b with arrived := b.arrived ++ [(f.key, s.beforeArrival f)] }
  let s : State := s.modFlight f.key fun f => f.setBar k ⟨some b.gen, b.gen + 1⟩
  (s.completeGen g k u, b.gen)

/-- A pending arrival of an earlier generation. -/
def Ctx.heldArrival (c : Ctx) (k : Nat) : Option Nat :=
  (c.f.bar k).pending.bind fun g => if c.s.barrierDone c.f k g then none else some g

def opArrive (v : View) (s : State) : Result := issue v s fun c =>
  match c.barLevel with
  | .error e => .error e
  | .ok (k, g, u) =>
    match c.heldArrival k with
    | some gen => .error (.block (.arrive k gen))
    | none => .ok (c.finish (c.s.arrive c.f k g u).1 .seq none)

/-- The wait for a generation: its pending arrival ends with it. -/
def Ctx.waitGen (c : Ctx) (s : State) (k gen : Nat) : State :=
  if s.barrierDone c.f k gen then
    c.finish (s.modFlight c.f.key fun f => f.setBar k { f.bar k with pending := none }) .seq none
  else match s.flight c.f.key with
    | some f => s.blockFlight f (.barrier k gen)
    | none => s

def opWaitb (v : View) (s : State) : Result := issue v s fun c =>
  match c.barLevel with
  | .error e => .error e
  | .ok (k, _, _) =>
    match (c.f.bar k).pending with
    | some gen => .ok (c.waitGen c.s k gen)
    | none => .ok (c.finish c.s .seq none)

/-- BAR: ARRIVE, then WAITB. A flight that is blocked at its wait has arrived already. -/
def opBar (v : View) (s : State) : Result := issue v s fun c =>
  match c.barLevel with
  | .error e => .error e
  | .ok (k, g, u) =>
    match c.f.block with
    | .barrier _ gen => .ok (c.waitGen c.s k gen)
    | _ =>
      match c.heldArrival k with
      | some gen => .error (.block (.arrive k gen))
      | none =>
        let r := c.s.arrive c.f k g u
        .ok (c.waitGen r.1 k r.2)

/-! ### The constructors -/

/-- FENCE (R227). -/
def execFence (x : XF) (s : State) : Result := opFence (viewX 0x120 x) s

/-- BAR (R108). -/
def execBar (x : XF) (s : State) : Result := opBar (viewX 0x121 x) s

/-- ARRIVE (R108). -/
def execArrive (x : XF) (s : State) : Result := opArrive (viewX 0x122 x) s

/-- WAITB (R108). -/
def execWaitb (x : XF) (s : State) : Result := opWaitb (viewX 0x123 x) s

end Sys2Proof.Machine
end

