-- ==== Sys2Proof/Machine/MemDone.lean ====
section
/-!
DEFINITION. Completion of memory instructions (08 R193 to R204): what each does when it is performed, in the order that R194,
R200 and R228 allow, and the events of the memory system.
-/

namespace Sys2Proof.Machine

/-! ### Order (R194, R200, R204, R228) -/

/-- Operations on the scratchpad. -/
def MemKind.isScratch : MemKind → Bool
  | .lds _ | .sts | .atoms _ | .feset | .feclr | .ldfrag => true
  | _ => false

def MemKind.isStash : MemKind → Bool
  | .stashmap | .stashflush | .stashdrop => true
  | _ => false

def MemOp.bytes (o : MemOp) : List Nat := o.lanes.flatMap fun a => a.addrs ++ (if o.kind.isScratch then [] else a.scale)

/-- The granules of a scratchpad operation. -/
def MemOp.granules (o : MemOp) : List Nat := (o.bytes.map (· / 16)).dedup

/-- FESET and FECLR change whole granules; an LDS.WAIT acquires those it names (R200, R234). -/
def MemKind.byGranule (k : MemKind) : Bool := k = .feset || k = .feclr || k.waits

/-- The earlier operation must be performed before the later one: it touches a common byte of one space, a common granule where
one of them acts on granules, or ends or opens a window. -/
def MemOp.before (a b : MemOp) : Bool :=
  if a.kind.isStash || b.kind.isStash then a.kind.isScratch || b.kind.isScratch || (a.kind.isStash && b.kind.isStash)
  else if a.kind.isScratch != b.kind.isScratch then false
  else if a.kind.byGranule || b.kind.byGranule then a.granules.any b.granules.contains
  else a.bytes.any b.bytes.contains

/-- The lines that the lanes name. -/
def MemOp.lines (o : MemOp) : List Nat := (o.bytes.map (· / 128)).dedup

/-- The policy under which a lane accesses an address. -/
def LaneAcc.policyAt (a : LaneAcc) (policy x : Nat) : Nat := policyOf policy (a.uc.contains x)

/-- The global addresses that are accessed through the caches, or past them. -/
def MemOp.addrsBy (o : MemOp) (cached : Bool) : List Nat :=
  o.lanes.flatMap fun a => (a.addrs ++ a.scale).filter fun x => (a.policyAt o.policy x ≠ 4) = cached

/-- The flight's operations that issued before this one and are outstanding. -/
def State.earlier (s : State) (o : MemOp) : List MemOp := s.memOps.filter fun a => a.flight = o.flight && a.key < o.key

/-- The operation may be performed: nothing earlier must come first; a release comes after every earlier access. -/
def State.inOrder (s : State) (o : MemOp) : Bool :=
  let es := s.earlier o
  !(es.any fun a => a.before o) && (o.order < 2 || !(es.any fun a => a.kind.accesses))

/-! ### Common parts -/

/-- Bytes moved by a walk or fault flight (15 R353). -/
def State.charge (s : State) (f : Flight) (n : Nat) : State :=
  match f.role with
  | .walk => s.count f.vd 0x11 n
  | .fault _ => s.count f.vd 0x13 n
  | _ => s

/-- The operation leaves the queue: its flags of the result, then its set flag. -/
def State.memDone (s : State) (o : MemOp) (fl : Flags) : State :=
  let s : State := { s with memOps := s.memOps.filter fun a => a.key ≠ o.key }
  (s.complete o.flight o.flag fl).served (.op o.key)

/-- A value of up to eight bytes of one lane. -/
def laneNat (bs : List Byte) : DWord := dw (leNat bs)

/-- Before an operation reads global memory: the flight's gathered stores to its lines are written out (R194), window lines are
recalled (R203), and the caches allocate (R191). -/
def State.toRead (s : State) (f : Flight) (o : MemOp) : State :=
  let s : State := (s.drainLines f.key o.lines).recallLines o.lines
  let s : State := (s.load f.vd f.core (policyOf o.policy false) o.record.attar o.record.expand (o.addrsBy true)).1
  s.noteUnmapped (o.addrsBy false)

/-- Each lane's bytes and its two exponents. -/
def State.laneData (s : State) (o : MemOp) : List (LaneAcc × List Byte × List Byte) :=
  o.lanes.map fun a =>
    let read (x : Nat) : Byte := s.readByte (a.policyAt o.policy x) x
    (a, a.addrs.map read, a.scale.map read)

/-- Lanes whose data arrive poisoned, ascending (R196). -/
def State.badLanes (s : State) (o : MemOp) : List Nat :=
  (o.lanes.filter fun a => (a.addrs ++ a.scale).any fun x => s.readBad (a.policyAt o.policy x) x).map LaneAcc.lane

/-- The operation completes with poison in a lane: it writes nothing (R196). -/
def State.endPoisoned (s : State) (f : Flight) (o : MemOp) (code lane : Nat) : State :=
  (s.landPoison f.key code lane o.pc).memDone o Fl.none

/-- The operation completes with results and the flags of them; results that break a class set none (04 R111; 05 R147). -/
def State.endRead (s : State) (f : Flight) (o : MemOp) (puts : List (Nat × Lanes)) (fl : Flags) : State :=
  let fl : Flags := if s.misfits f.key o.mask puts then Fl.none else fl
  (s.landVar f.key o.mask puts o.pc).memDone o fl

/-- Writes under a policy (R191): write-combined stores are gathered by line; a store under another cached policy comes after
the flight's gathered stores to its lines (R194; 09 R241). -/
def State.storeBytes (s : State) (f : Flight) (scope policy : Nat) (ws : List (Nat × Byte)) : State :=
  if policy = 3 then
    (linesOf ws).foldl (fun s ln =>
      let mine := ws.filter fun w => w.1 / 128 = ln
      match s.wc.find? fun w => w.flight = f.key && w.core = f.core && w.line = ln with
      | some w => { s with wc := s.wc.map fun (x : WcLine) => if x = w then { x with bytes := x.bytes ++ mine } else x }
      | none => { s with wc := s.wc ++ [⟨f.core, f.key, f.vd, ln, mine⟩] }) s
  else (s.drainLines f.key (linesOf ws)).write f.vd f.core scope policy ws

/-- The writes of an operation by lane, the higher lane later (R226), split by policy. -/
def State.writeLanes (s : State) (f : Flight) (o : MemOp) (ws : List (LaneAcc × List (Nat × Byte))) : State :=
  let of (u : Bool) : List (Nat × Byte) := ws.flatMap fun p => p.2.filter fun w => p.1.uc.contains w.1 = u
  let s : State := if of false = [] then s else s.storeBytes f o.scope (policyOf o.policy false) (of false)
  if of true = [] then s else s.storeBytes f o.scope 4 (of true)

/-- Lane values as a register's 32 lanes; a lane that is not listed gives zero. -/
def laneTab (vs : List (Nat × Word)) : Lanes := Lanes.tab fun l => ((kget Prod.fst l vs).map Prod.snd).getD 0

/-! ### Global accesses -/

/-- LoadConvert (R186): DX elements through their block's exponents. -/
def loadConvert (r : BufRec) (nibble : Nat) (e sc : List Byte) : Nat × Flags :=
  let bitsOf := leNat e
  let m := encCode r.menc
  let g := regEnc r.renc
  if r.isDx then
    let code := if m = 7 then bitsOf / 16 ^ nibble % 16 else bitsOf
    if g = 0 || encPacked g then (code, Fl.none)
    else
      let (x, fl) := dxDecode code (sc.getD 0 0).toNat (sc.getD 1 0).toNat (m = 6)
      let (w, fl') := convElem 1 g (f32.round x 0 false).1 0 r.sat
      (w, fl ||| fl')
  else convElem r.menc g bitsOf 0 r.sat

/-- LD, LD.ACQ and LD.SC, which drains the flight's gathered stores first (R228). -/
def State.doLoad (s : State) (f : Flight) (o : MemOp) : State :=
  let s : State := (if o.order = 4 then s.drainWc f.key else s).toRead f o
  match s.badLanes o with
  | l :: _ => s.endPoisoned f o Trap.dataPoison l
  | [] =>
    let vs := (s.laneData o).map fun (a, e, sc) =>
      (a.lane, if a.addrs = [] then (0, Fl.none) else loadConvert o.record a.nibble e sc)
    let fl : Flags := vs.foldl (fun x v => x ||| v.2.2) Fl.none
    let s : State := s.charge f (encBytes o.record.menc * (o.lanes.filter fun a => a.addrs ≠ []).length)
    s.endRead f o [(o.dst, laneTab (vs.map fun v => (v.1, wd v.2.1)))] fl

/-- A store's element bytes and flags (R186). -/
def storeConvert (r : BufRec) (v : Word) : List Byte × Flags :=
  let (e, fl) := convElem (regEnc r.renc) r.menc v.toNat r.srnd r.sat
  (leBytes (encBytes r.menc) e, fl)

/-- A lane's value as an F32 code for a DX store (R187). -/
def dxSource (r : BufRec) (v : Word) : Nat × Flags :=
  let g := regEnc r.renc
  if g = 0 || g = 1 || encPacked g then (v.toNat, Fl.none) else convElem g 1 v.toNat 4 false

/-- The writes of a DX block store: data and exponents, and the flags of both steps. -/
def dxStore (o : MemOp) : List (LaneAcc × List (Nat × Byte)) × Flags :=
  match o.lanes with
  | [] => ([], Fl.none)
  | a :: _ =>
    let r := o.record
    let src := o.lanes.map fun x => (x.lane, dxSource r (loWord x.data))
    let code (l : Nat) : Nat := ((kget Prod.fst l src).map fun p => p.2.1).getD 0
    let (codes, e0, e1, fl) := dxEncode (laneIds.map fun l => f32.decode (code l)) r.isDx8 r.dxD
    let data : List Byte := if r.isDx8 then codes.map (BitVec.ofNat 8)
      else (List.range 16).map fun i => BitVec.ofNat 8 (codes.getD (2 * i) 0 + 16 * codes.getD (2 * i + 1) 0)
    let ws := (a.addrs.zip data) ++ (a.scale.zip [BitVec.ofNat 8 e0, BitVec.ofNat 8 e1])
    ([(a, ws)], src.foldl (fun x p => x ||| p.2.2) fl)

/-- ST, ST.REL and ST.SC: a release drains the flight's gathered stores first, and an SC store takes its place in the order at
its point of coherence (R228). -/
def State.doStore (s : State) (f : Flight) (o : MemOp) : State :=
  let s : State := if 2 ≤ o.order then s.drainWc f.key else s
  let (ws, fl) := if o.record.isDx then dxStore o
    else
      let live := o.lanes.filter fun a => a.addrs ≠ []
      let ps := live.map fun a => (a, storeConvert o.record (loWord a.data))
      (ps.map fun p => (p.1, p.1.addrs.zip p.2.1), ps.foldl (fun x p => x ||| p.2.2) Fl.none)
  let s : State := s.writeLanes f o ws
  let s : State := if o.order = 4 then s.drainWc f.key else s
  (s.charge f ((ws.flatMap Prod.snd).length)).memDone o fl

/-- The new value of an atomic and its flags (R206). -/
def atomNew (op : Nat) (m d d2 : Nat) : Nat × Flags :=
  let i32 (x : Nat) : Int := (wd x).toInt
  match op with
  | 0 => ((m + d) % 2 ^ 32, Fl.none)
  | 1 => (if i32 m ≤ i32 d then m else d, Fl.none)
  | 2 => (min m d, Fl.none)
  | 3 => (if i32 m ≤ i32 d then d else m, Fl.none)
  | 4 => (max m d, Fl.none)
  | 5 => (m &&& d, Fl.none)
  | 6 => (m ||| d, Fl.none)
  | 7 => (m ^^^ d, Fl.none)
  | 8 => (d, Fl.none)
  | 9 => (if m = d then d2 else m, Fl.none)
  | 10 => f32.addOp m d 0 false
  | 11 => ((m + d) % 2 ^ 64, Fl.none)
  | _ => (d, Fl.none)

/-- Active lanes in ascending order, each seeing the last (R207): old values by lane, the bytes written, flags. -/
def atomLanes (op : Nat) (read : Nat → Byte) : List LaneAcc → List (Nat × Byte) → List (Nat × Nat) × List (Nat × Byte) × Flags
  | [], ws => ([], ws, Fl.none)
  | a :: as, ws =>
    if a.addrs = [] then
      let r := atomLanes op read as ws
      ((a.lane, 0) :: r.1, r.2)
    else
      let byte (x : Nat) : Byte := ((ws.reverse.find? fun w => w.1 = x).map Prod.snd).getD (read x)
      let m := leNat (a.addrs.map byte)
      let (n, fl) := atomNew op m a.data.toNat a.data2.toNat
      let r := atomLanes op read as (ws ++ a.addrs.zip (leBytes a.addrs.length n))
      ((a.lane, m) :: r.1, r.2.1, fl ||| r.2.2)

/-- The registers and values that an atomic writes. -/
def atomPuts (op dst : Nat) (old : List (Nat × Nat)) : List (Nat × Lanes) :=
  let lo := laneTab (old.map fun p => (p.1, wd p.2))
  if aopSize op = 8 then [(dst, lo), (dst + 1, laneTab (old.map fun p => (p.1, wd (p.2 / 2 ^ 32))))]
  else [(dst, lo)]

/-- ATOM and SIGNAL: read and written at the point of coherence of the scope in one step (R206); an atomic whose data are
poisoned, or whose old values break the class of its register, updates nothing (R196; 03 R95). -/
def State.doAtom (s : State) (f : Flight) (o : MemOp) (op : Nat) : State :=
  let s : State := (if 2 ≤ o.order then s.drainWc f.key else s.drainLines f.key o.lines).recallLines o.lines
  match s.badLanes o with
  | l :: _ => s.endPoisoned f o Trap.dataPoison l
  | [] =>
    let past := o.addrsBy false
    let (old, ws, fl) := atomLanes op (fun a => s.readByte (if past.contains a then 4 else 0) a) o.lanes []
    let puts := atomPuts op o.dst old
    if s.misfits f.key o.mask puts then s.endRead f o puts Fl.none
    else
      let s : State := s.noteUnmapped (ws.map Prod.fst)
      let unc := ws.filter fun w => past.contains w.1
      let cac := ws.filter fun w => !past.contains w.1
      let s : State := if cac = [] then s else s.cohPut f.vd (pocOf f.core o.scope 0) (o.policy = 1) cac
      let s : State := if unc = [] then s else s.memPut unc
      s.endRead f o puts fl

/-! ### Cache control (R215) -/

/-- PREF of one line into L1, L2 or the LLC. -/
def State.prefetchLine (s : State) (f : Flight) (o : MemOp) (ln : Nat) : State :=
  if !s.mapped (128 * ln) then s
  else
    let s : State := s.recallLine ln
    if o.scope ≤ 1 then s.fillLine f.vd f.core 0 o.record.attar o.record.expand ln
    else if o.scope = 2 then s.fillL2 f.vd (hallOfCore f.core) ln (o.record.attar && 1 ≤ o.record.expand) false
    else s.fetchLlc f.vd ln false

/-- PREF; nothing is filled for an uncached access. -/
def State.prefetch (s : State) (f : Flight) (o : MemOp) : State :=
  ((o.addrsBy true).map (· / 128)).dedup.foldl (fun s ln => s.prefetchLine f o ln) s

/-! ### Scratchpad accesses (R199, R210 to R212) -/

def State.scratchTeam (s : State) (o : MemOp) : Option Team := (s.flight o.flight).bind fun f => s.team f.team

/-- Every window line that the operation touches is filled (R203). -/
def Team.filledFor (t : Team) (o : MemOp) : Bool :=
  o.lanes.all fun a => a.scale = [] || a.addrs.all fun b => match t.windowAt b with
    | some (w, i) => (kget Prod.fst i w.filled).isSome
    | none => true

/-- The lowest active lane that reads a poisoned granule, and its cause (R196, R199). -/
def Team.badGranule (t : Team) (o : MemOp) : Option (Nat × Nat) :=
  o.lanes.findSome? fun a => a.addrs.findSome? fun b => match t.gran (b / 16) with
    | .poisonedError => some (a.lane, Trap.dataPoison)
    | .poisonedChecksum => some (a.lane, Trap.checksumMismatch)
    | _ => none

def Team.setGran (t : Team) (g : Nat) (st : Granule) : Team :=
  { t with granules := if st = .empty then kdel Prod.fst g t.granules else kset Prod.fst (g, st) t.granules }

/-- Store scratchpad bytes; filled window lines become dirty (R203). -/
def Team.putBytes (t : Team) (ws : List (Nat × Byte)) : Team :=
  let touched := (ws.filterMap fun w => t.windowAt w.1).map fun p => (p.1.num, p.2)
  { t with
    scratch := t.scratch.puts ws
    windows := t.windows.map fun (w : Window) =>
      { w with dirty := (w.dirty ++ (touched.filter fun p => p.1 = w.num && !w.dirty.contains p.2).map Prod.snd).dedup } }

/-- A read of the scratchpad lands, or its poison does. -/
def State.scratchRead (s : State) (t : Team) (f : Flight) (o : MemOp) (puts : List (Nat × Lanes)) : State :=
  match t.badGranule o with
  | some (l, code) => s.endPoisoned f o code l
  | none => s.endRead f o puts Fl.none

/-- Word `j` of lane accesses of LDFRAG: bytes 4j to 4j+3. -/
def fragWord (t : Team) (a : LaneAcc) (j : Nat) : Word :=
  wd (leNat (((a.addrs.drop (4 * j)).take 4).map t.scratch.get))

/-! ### Windows (R203, R204) -/

/-- The team's window lines of one physical line go to the hall's L2. -/
def Team.windowLines (w : Window) : List (Nat × Nat) := w.filled.filter fun p => w.dirty.contains p.1

/-- Write the dirty lines of a window to L2. -/
def State.flushWindow (s : State) (t : Team) (w : Window) : State :=
  (Team.windowLines w).foldl (fun s p => s.windowOut t (w.off + 128 * p.1) p.2) s

/-- At a swap or migration: dirty lines are written, the windows stay open and unfilled (R204). -/
def State.closeWindows (s : State) (tk : Nat) : State :=
  match s.team tk with
  | none => s
  | some t =>
    let s : State := t.windows.foldl (fun s w => s.flushWindow t w) s
    s.putTeam { t with windows := t.windows.map fun (w : Window) => { w with filled := [], dirty := [] } }

def State.endWindow (s : State) (t : Team) (num : Nat) (flush : Bool) : State :=
  let s : State := if flush then (t.windows.filter fun w => w.num = num).foldl (fun s w => s.flushWindow t w) s else s
  s.putTeam { t with windows := t.windows.filter fun w => w.num ≠ num }

/-- The team's stores to its scratchpad and its saved state; a saved team keeps no window line filled (R204). -/
def State.padStore (s : State) (t : Team) (ws : List (Nat × Byte)) : State :=
  let s : State := (s.putTeam (t.putBytes ws)).syncScratch t.key (ws.map Prod.fst)
  if (s.teamFrame t).isSome then s.closeWindows t.key else s

/-- The states of an operation's granules become `st`. -/
def State.setGrans (s : State) (t : Team) (o : MemOp) (st : Granule) : State :=
  (s.putTeam (o.granules.foldl (fun t g => t.setGran g st) t)).syncScratch t.key o.bytes

/-- Operations on the scratchpad. -/
def State.doScratch (s : State) (f : Flight) (t : Team) (o : MemOp) : State :=
  match o.kind with
  | .lds mode =>
    let puts := [(o.dst, laneTab (o.lanes.map fun a => (a.lane, wd (leNat (a.addrs.map t.scratch.get)))))]
    let takes := mode = 2 && (t.badGranule o).isNone && !s.misfits f.key o.mask puts
    (if takes then s.setGrans t o .empty else s).scratchRead t f o puts
  | .ldfrag =>
    s.scratchRead t f o ((List.range 8).map fun j => (o.dst + j, laneTab (o.lanes.map fun a => (a.lane, fragWord t a j))))
  | .sts => (s.padStore t (o.lanes.flatMap fun a => a.addrs.zip (leBytes 4 a.data.toNat))).memDone o Fl.none
  | .atoms op =>
    let s : State := if 2 ≤ o.order then s.drainWc f.key else s
    let (old, ws, fl) := atomLanes op t.scratch.get o.lanes []
    let puts := atomPuts op o.dst old
    match t.badGranule o with
    | some (l, code) => s.endPoisoned f o code l
    | none => (if s.misfits f.key o.mask puts then s else s.padStore t ws).endRead f o puts fl
  | .feset => (s.setGrans t o .full).memDone o Fl.none
  | .feclr => (s.setGrans t o .empty).memDone o Fl.none
  | _ => s

/-- Fill one window line: taken in L2 in state E, written to the scratchpad, its 8 granules Full, or Poisoned
where the source is poisoned (R199, R203). -/
def State.fillWindow (s : State) (f : Flight) (tk off ln : Nat) : State :=
  let s : State := s.recallLine ln
  match s.team tk with
  | none => s
  | some t =>
    match t.windowAt off with
    | none => s
    | some (w, i) =>
      if (kget Prod.fst i w.filled).isSome then s
      else
        let s : State := s.fetchLlc f.vd ln false
        let d := s.line ln
        let bad := s.badLine ln
        let s : State := (s.dropUpper ln).putLine ⟨.l2 (hallOfCore f.core), ln, .E, f.vd, 5, d, 0, bad, false⟩
        let t : Team := { t with
          scratch := t.scratch.puts (bytesAt off d)
          windows := t.windows.map fun (x : Window) => if x.num = w.num then { x with filled := x.filled ++ [(i, ln)] } else x }
        let badGran (g : Nat) : Bool := (List.range 16).any fun j => bad.getLsbD (16 * g + j)
        let t : Team := (List.range 8).foldl (fun t g => t.setGran (off / 16 + g) (if badGran g then .poisonedError else .full)) t
        (s.putTeam t).syncScratch tk ((List.range 128).map fun j => off + j)

/-- Pairs of a flat list. -/
def pairsOf : List Nat → List (Nat × Nat)
  | a :: b :: r => (a, b) :: pairsOf r
  | _ => []

/-- STASH_FILL (R203); a pinned line stays in its L2 until its pin is released (12 R280). -/
def execStashFill (op : Nat) (s : State) : Result :=
  match s.memOp op with
  | none => .next s
  | some o =>
    match s.flight o.flight with
    | none => .next s
    | some f =>
      let touched := (o.lanes.flatMap fun a => pairsOf a.scale).dedup
      let addrs := touched.flatMap fun p => (List.range 128).map fun i => 128 * p.2 + i
      if !o.kind.isScratch || touched.any fun p => s.pinned p.2 then .next s
      else match s.devHold addrs (.op o.key) with
        | some s' => .next s'
        | none => .next (touched.foldl (fun s p => s.fillWindow f f.team p.1 p.2) s)

/-! ### The events -/

/-- The granules of a waiting LDS have all left Empty (R199). -/
def Team.granulesReady (t : Team) (o : MemOp) : Bool := o.granules.all fun g => t.gran g ≠ .empty

/-- A record enters a launch queue (14 R299). -/
def State.enqueue (s : State) (vd q : Nat) (va : Nat) (pa : Nat) (isI : Bool) (src : Source) : State :=
  let k := s.nextKey
  (s.modOwner vd fun o => { o with launchQ := o.launchQ ++ [⟨k, q, dw va, pa, isI, src⟩] }).freshKey

/-- LAUNCH, LAUNCHI (14 R320): the record enters its queue, and the flag waits for its admission. The queue is in `disp`, with
8 added for LAUNCHI. -/
def State.doLaunch (s : State) (f : Flight) (o : MemOp) : State :=
  match o.lanes with
  | [] => s.memDone o Fl.none
  | a :: _ =>
    let s : State := s.drainWc f.key
    let k := s.nextKey
    let op : SysOp := ⟨o.key, f.key, .launch k, 248, o.mask, o.flag, o.pc⟩
    let s : State := s.enqueue f.vd (o.disp % 8) a.data.toNat (a.addrs.headD 0) (8 ≤ o.disp) .flight
    { s with memOps := s.memOps.filter fun x => x.key ≠ o.key, sysOps := s.sysOps ++ [op] }

/-- Perform an operation whose turn has come. -/
def State.performOp (s : State) (o : MemOp) : State :=
  match s.flight o.flight with
  | none => { s with memOps := s.memOps.filter fun a => a.key ≠ o.key }
  | some f =>
    if o.mask = 0 then s.memDone o Fl.none
    else match o.kind with
      | .ld => s.doLoad f o
      | .st => s.doStore f o
      | .atom op => s.doAtom f o op
      | .pref => (s.prefetch f o).memDone o Fl.none
      | .cclean => (o.lines.foldl (fun s ln => (s.gatherLine ln).cleanLine f.vd f.core o.scope ln) s).memDone o Fl.none
      | .cinv => (o.lines.foldl (fun s ln => (s.gatherLine ln).invalLine f.vd f.core o.scope ln) s).memDone o Fl.none
      | .ldp =>
        let s : State := s.toRead f o
        match s.badLanes o with
        | l :: _ => s.endPoisoned f o Trap.dataPoison l
        | [] =>
          let ds := s.laneData o
          let v (hi : Bool) : Lanes := laneTab (ds.map fun (a, e, _) =>
            (a.lane, if hi then hiWord (laneNat e) else loWord (laneNat e)))
          (s.charge f (8 * o.lanes.length)).endRead f o [(o.dst, v false), (o.dst + 1, v true)] Fl.none
      | .stp =>
        let s : State := s.writeLanes f o (o.lanes.map fun a => (a, a.addrs.zip (leBytes 8 a.data.toNat)))
        (s.charge f (8 * o.lanes.length)).memDone o Fl.none
      | .signal => s.doAtom f o 0
      | .launch => s.doLaunch f o
      | .stashmap => s.memDone o Fl.none
      | .stashflush | .stashdrop =>
        match s.team f.team with
        | some t => (s.endWindow t o.disp (o.kind = .stashflush)).memDone o Fl.none
        | none => s.memDone o Fl.none
      | _ =>
        match s.team f.team with
        | some t => s.doScratch f t o
        | none => s.memDone o Fl.none

/-- A scratchpad operation can be performed: its window lines are filled, and a waiting LDS finds no granule Empty, its team
being in place (R201). -/
def State.scratchReady (s : State) (o : MemOp) : Bool :=
  if !o.kind.isScratch || o.mask = 0 then true
  else match s.scratchTeam o with
    | none => true
    | some t =>
      (match o.kind with
        | .feset | .feclr => true
        | _ => t.filledFor o)
        && (match o.kind with
        | .lds m => m = 0 || (t.granulesReady o && (s.teamFrame t).isNone)
        | _ => true)

/-- The operation waits for a pin (12 R280): it writes or drops a pinned line, or needs a gathered store to one written out. -/
def State.pinHolds (s : State) (o : MemOp) : Bool :=
  let writes := match o.kind with
    | .st | .stp | .atom _ | .cinv | .signal => true
    | _ => false
  let cleans := o.kind = .cclean || o.kind = .cinv
  (writes && o.lines.any s.pinned) || (2 ≤ o.order && s.wcStuck o.flight)
    || (!o.kind.isScratch && s.wc.any fun w => (cleans || w.flight = o.flight) && s.pinned w.line && o.lines.contains w.line)

/-- Complete an operation, or leave it: it is not its turn, a pin holds it, or an ownership transfer does (19 R407). -/
def State.tryOp (s : State) (o : MemOp) : State :=
  if !s.inOrder o || !s.scratchReady o || s.pinHolds o then s
  else
    let addrs := if o.kind.isScratch || o.kind.isStash || o.kind = .launch then [] else o.bytes
    match s.devHold addrs (.op o.key) with
    | some s' => s'
    | none => s.performOp o

/-- LDS_WAIT_WAKE (R199): a waiting LDS reads, and .TAKE empties, in one step. -/
def execLdsWaitWake (op : Nat) (s : State) : Result :=
  match s.memOp op with
  | some o =>
    match o.kind with
    | .lds m => .next (if m = 0 then s else s.tryOp o)
    | _ => .next s
  | none => .next s

/-- WC_BUFFER_WRITEOUT (R191). -/
def execWcBufferWriteout (core line : Nat) (s : State) : Result :=
  .next ((s.wc.filter fun w => w.core = core && w.line = line).foldl State.writeOut s)

/-- RESULT_WRITEBACK (R79): the results of the flight that are due by its partition's cycle land. -/
def execResultWriteback (flight : Nat) (s : State) : Result :=
  match s.flight flight with
  | some f => .next (s.land flight (some (s.now f.vd)))
  | none => .next s

/-- FLOAT_UNIT_COMPLETE (06 R158): the oldest instruction of the flight in its quadrant's unit. -/
def execFloatUnitComplete (flight : Nat) (s : State) : Result :=
  match s.vfu.find? fun o => o.flight = flight with
  | none => .next s
  | some o =>
    let (vals, fl) := o.result
    let puts := [(o.dst, vals)]
    let fl : Flags := if s.misfits flight o.mask puts then Fl.none else fl
    let s : State := { s with vfu := s.vfu.filter fun x => x.key ≠ o.key }
    .next ((s.landVar flight o.mask puts o.pc).complete flight o.flag fl)

end Sys2Proof.Machine
end

