-- ==== Sys2Proof/Machine/Array.lean ====
section
/-!
DEFINITION. The matrix array and its sequencer (12 R269 to R280, R284 to R289): operands, exact accumulation, the drain
converter, and performing a command. Issue and the sequencer's events are in Matrix.lean.
-/

namespace Sys2Proof.Machine

/-! ### Formats (R271, R290) -/

/-- MSTAT's code of a weight MENC; 0 for any other. -/
def mxFmt (menc : Nat) : Nat :=
  match encCode menc with
  | 3 => 1 | 2 => 2 | 4 => 3 | 5 => 4 | 6 => 5 | 7 => 6 | 8 => 7 | _ => 0

/-- K of a weight format. -/
def mxDepth (fmt : Nat) : Nat := if fmt ≤ 2 then 128 else if fmt = 6 then 512 else 256

/-- Formats of one width class: a bank of one accepts activations of another. -/
def mxClass (fmt : Nat) : Nat := if fmt = 0 then 0 else if fmt ≤ 2 then 1 else if fmt ≤ 5 then 2 else fmt

def mxAccepts (bank act : Nat) : Bool := bank ≠ 0 && mxClass bank = mxClass act

/-! ### Operands (R272) -/

/-- A matrix operand: its map, offset, half-bytes of an element, elements of a row, and whether it has scale bytes. -/
structure MxOpnd where
  map  : BufRec
  off  : Nat
  nib  : Nat
  cols : Nat
  dx   : Bool
  deriving DecidableEq, Repr

/-- An operand in its map's encoding, and one of raw words (R289). -/
def MxOpnd.of (r : BufRec) (off cols : Nat) : MxOpnd :=
  ⟨r, off, if encCode r.menc = 7 then 1 else 2 * encBytes r.menc, cols, r.isDx⟩
def MxOpnd.raw (r : BufRec) (off : Nat) : MxOpnd := ⟨r, off, 8, 128, false⟩

def MxOpnd.scratch (o : MxOpnd) : Bool := o.map.kind = 3

/-- Bytes of a row, a multiple of 16. -/
def MxOpnd.width (o : MxOpnd) : Nat := o.cols * o.nib / 2

/-- The position in the map of byte `x` of a row. -/
def MxOpnd.posAt (o : MxOpnd) (row x : Nat) : Nat :=
  let r := o.map
  match r.kind with
  | 1 => r.swz (o.off + row * o.width + x)
  | 2 => r.swz (o.off + row * r.pitch + r.rowPos x row)
  | _ =>
    let place := if r.ilm = 2 then fragPhys true false x row else if r.ilm = 3 then fragPhys true true x row else r.rowPos x row
    o.off + row * r.pitch + place

/-- The positions of a row's bytes, in element order. -/
def MxOpnd.positions (o : MxOpnd) (row : Nat) : List Nat := (List.range o.width).map (o.posAt row)

def MxOpnd.addrOf (o : MxOpnd) (p : Nat) : Nat := if o.scratch then o.map.padBase + p else (o.map.base + p) % vaMod

/-- The addresses of a row's bytes, and of its scale bytes. -/
def MxOpnd.rowAddrs (o : MxOpnd) (row : Nat) : List Nat :=
  (o.positions row).map o.addrOf
def MxOpnd.scaleAddrs (o : MxOpnd) (row : Nat) : List Nat :=
  if !o.dx then []
  else (List.range (o.cols / 16)).map fun i =>
    let a := row * (o.cols / 16) + i
    if o.scratch then o.map.padSbase + a else (o.map.sbase + a) % vaMod

/-- The limits of R272, over the rows given. -/
def MxOpnd.check (o : MxOpnd) (alloc rows : Nat) : Chk Unit :=
  let rs := List.range rows
  let past (p : Nat) : Bool := o.map.extent < p + 1 || (o.scratch && alloc < o.map.padBase + p + 1)
  if (o.map.kind = 2 || o.map.kind = 3) && o.map.pitch < o.width then illegalOperand
  else if (o.map.base + o.off) % 16 ≠ 0 then .error (.trap Trap.misaligned none)
  else if rs.any (fun r => (o.positions r).any past) || (o.scratch && rs.any fun r => (o.scaleAddrs r).any fun a => alloc ≤ a) then
    .error (.trap Trap.bufferBounds none)
  else .ok ()

/-- The pages of a global operand. -/
def MxOpnd.pages (o : MxOpnd) (rows : Nat) : List Nat :=
  ((List.range rows).flatMap fun r =>
    ((o.positions r).map fun p => o.addrOf p / 4096) ++ (o.scaleAddrs r).map (· / 4096)).dedup

/-- The physical address of a global byte under the pages translated, and whether it is uncached. -/
def pagePhys (pages : List (Nat × Nat × Bool)) (va : Nat) : Nat × Bool :=
  match kget Prod.fst (va / 4096) pages with
  | some p => (p.2.1 + va % 4096, p.2.2)
  | none => (0, false)

/-! ### Commands -/

/-- The operand of a command, by the depth of its bank; none for MMA.BYP and MZERO. -/
def MxCmd.opnd (c : MxCmd) (depth : Nat) : Option MxOpnd :=
  match c.kind with
  | .mwld | .mwldL2 => some (MxOpnd.of c.record c.off (mxDepth (mxFmt c.record.menc)))
  | .mma => some (MxOpnd.of c.record c.off depth)
  | .mdrain => some (MxOpnd.of c.record c.off 128)
  | .maccld | .maccst => some (MxOpnd.raw c.record c.off)
  | .mmaByp | .mzero => none

/-- Accumulator rows: the first of the destination, and of MMA.BYP's source. -/
def MxCmd.firstRow (c : MxCmd) : Nat := 128 * c.tile + c.row
def MxCmd.firstSrc (c : MxCmd) : Nat := 128 * c.srcTile + c.srow

def MxKind.streams : MxKind → Bool
  | .mma | .mmaByp => true
  | _ => false

/-- The units that a command occupies: 0 load, 1 stream, 2 drain (R273). -/
def MxKind.units : MxKind → List Nat
  | .mwld | .mwldL2 | .maccld => [0]
  | .mma => [1]
  | .mmaByp => [1, 2]
  | .mdrain | .maccst | .mzero => [2]

/-- Tiles 0 to 3 of a range of rows; banks are 8 and 9. -/
def tilesOf (first rows : Nat) : List Nat := (List.range 4).filter fun t => first < 128 * (t + 1) && 128 * t < first + rows

def MxCmd.reads (c : MxCmd) : List Nat :=
  match c.kind with
  | .mma => [8 + c.bank]
  | .mmaByp => (8 + c.bank) :: tilesOf c.firstSrc c.rows
  | .mdrain | .maccst => tilesOf c.firstRow c.rows
  | _ => []

def MxCmd.writes (c : MxCmd) : List Nat :=
  match c.kind with
  | .mwld | .mwldL2 => [8 + c.bank]
  | .mdrain | .maccst => []
  | _ => tilesOf c.firstRow c.rows

def MxCmd.conflicts (a b : MxCmd) : Bool :=
  a.writes.any (fun r => b.reads.contains r || b.writes.contains r) || b.writes.any fun r => a.reads.contains r

/-! ### Rows and banks -/

/-- Write an accumulator row; one of +0 is not listed. -/
def MxCore.setRow (m : MxCore) (r : Nat) (ws : List Word) : MxCore :=
  { m with rows := if ws.all (· = 0) then kdel Prod.fst r m.rows else kset Prod.fst (r, ws) m.rows }

def MxCore.setPoison (m : MxCore) (r : Nat) (cause : Option (BitVec 8)) : MxCore :=
  { m with poison := match cause with
      | some c => kset Prod.fst (r, c) m.poison
      | none => kdel Prod.fst r m.poison }

def MxCore.rowPoison (m : MxCore) (r : Nat) : Option (BitVec 8) := (kget Prod.fst r m.poison).map Prod.snd

def MxCore.bank (m : MxCore) (b : Nat) : Bank := if b = 0 then m.w0 else m.w1
def MxCore.setBank (m : MxCore) (b : Nat) (w : Bank) : MxCore := if b = 0 then { m with w0 := w } else { m with w1 := w }

/-! ### Element values -/

/-- Element codes of a row's bytes; a DX4 element is a nibble, the even one low (05 R135). -/
def codesOf (nib : Nat) : List Byte → List Nat
  | [] => []
  | b :: bs =>
    if nib = 1 then b.toNat % 16 :: b.toNat / 16 :: codesOf nib bs
    else if nib = 2 then b.toNat :: codesOf nib bs
    else match bs with
      | [] => []
      | b1 :: bs =>
        if nib = 4 then (b.toNat + 256 * b1.toNat) :: codesOf nib bs
        else match bs with
          | b2 :: b3 :: bs => leNat [b, b1, b2, b3] :: codesOf nib bs
          | _ => []

/-- Bytes of element codes. -/
def packCodes (nib : Nat) : List Nat → List Byte
  | [] => []
  | [c] => if nib = 1 then [BitVec.ofNat 8 c] else leBytes (nib / 2) c
  | c :: d :: cs =>
    if nib = 1 then BitVec.ofNat 8 (c % 16 + 16 * (d % 16)) :: packCodes nib cs
    else leBytes (nib / 2) c ++ leBytes (nib / 2) d ++ packCodes nib cs

/-- Values of DX codes, 32 to a pair of scale bytes (05 R136). -/
def dxVals (isDx8 : Bool) : List Nat → List Nat → List FVal × Flags
  | codes, e0 :: e1 :: es =>
    let vs := (codes.take 32).map fun c => dxDecode c e0 e1 isDx8
    let r := dxVals isDx8 (codes.drop 32) es
    (vs.map Prod.fst ++ r.1, vs.foldl (fun a v => a ||| v.2) r.2)
  | _, _ => ([], Fl.none)

/-- Values of elements in a format. -/
def mxVals (fmt : Nat) (codes scales : List Nat) : List FVal × Flags :=
  match fmt with
  | 1 => (codes.map bf16.decode, Fl.none)
  | 2 => (codes.map f16.decode, Fl.none)
  | 3 => (codes.map f8e4.decode, Fl.none)
  | 4 => (codes.map f8e5.decode, Fl.none)
  | 5 => dxVals true codes scales
  | 6 => dxVals false codes scales
  | _ => ([], Fl.none)

/-! ### Accumulation (R275) -/

/-- The sum of a cell; none where 0 × ∞ or ∞ − ∞ stands in it. -/
def cellSum : List (FVal × FVal) → Option FVal
  | [] => some (.fin false 0 0 false)
  | [p] => p.1.mul p.2
  | p :: ps => (p.1.mul p.2).bind fun x => (cellSum ps).bind fun y => x.add y 0

/-- One cell's addition into s. Every invalid case raises NV, whatever NaN stands beside it. -/
def cellAdd (s : Nat) (ps : List (FVal × FVal)) : Nat × Flags :=
  let ops := ps.flatMap fun p => [p.1, p.2]
  let x := f32.decode s
  let nums := ps.filter fun p => !p.1.isNan && !p.2.isNan
  let bad := (cellSum nums).isNone
  let fl : Flags := if bad || ops.any FVal.isSnan || x.isSnan then Fl.nv else Fl.none
  if bad || ops.any FVal.isNan || x.isNan then (f32.nan, fl)
  else match (cellSum ps).bind fun c => x.add c 0 with
    | none => (f32.nan, Fl.nv)
    | some v => f32.round v 0 false

/-- A column: cells of `p` products in K order; `n` cells. -/
def mxColumn (p : Nat) : Nat → Nat → List (FVal × FVal) → Nat × Flags
  | 0, s, _ => (s, Fl.none)
  | n + 1, s, ps =>
    let a := cellAdd s (ps.take p)
    let r := mxColumn p n a.1 (ps.drop p)
    (r.1, a.2 ||| r.2)

def i8 (c : Nat) : Int := (BitVec.ofNat 8 c).toInt

/-- An accumulator row after one activation row, through a bank of a format: `act` and `ascale` are the activation's format,
codes and scale bytes. -/
def mxRow (fmt : Nat) (b : Bank) (afmt : Nat) (act ascale : List Nat) (acc : List Word) : List Word × Flags :=
  let k := mxDepth fmt
  if fmt = 7 then
    ((List.range 128).map fun n =>
      let w := (b.codes.drop (n * k)).take k
      BitVec.ofInt 32 ((acc.getD n 0).toInt + (act.zip w).foldl (fun t p => t + i8 p.1 * i8 p.2) 0), Fl.none)
  else
    let (av, fa) := mxVals afmt act ascale
    let av := av ++ List.replicate (k - av.length) (FVal.fin false 0 0 false)
    let rs := (List.range 128).map fun n =>
      let (wv, fw) := mxVals fmt ((b.codes.drop (n * k)).take k) ((b.scales.drop (n * (k / 16))).take (k / 16))
      let r := mxColumn (k / 128) 128 (acc.getD n 0).toNat (av.zip wv)
      (wd r.1, fw ||| r.2)
    (rs.map Prod.fst, rs.foldl (fun a r => a ||| r.2) fa)

/-! ### The drain converter (R287) -/

/-- x × scale into a float format. -/
def scaled (f : Fmt) (mode : Nat) (sat : Bool) (scale x : Word) : Nat × Flags :=
  let a := f32.decode x.toNat
  let b := f32.decode (if scale = 0 then 0x3F800000 else scale.toNat)
  f.finish [a, b] (a.mul b) mode sat

/-- Blocks of 32 through DXEncode, `n` of them: codes and scale bytes. -/
def dxBlocks (isDx8 : Bool) (d : Nat) : Nat → List Nat → List Nat × List Nat × Flags
  | 0, _ => ([], [], Fl.none)
  | n + 1, xs =>
    let (cs, e0, e1, fl) := dxEncode ((xs.take 32).map f32.decode) isDx8 d
    let r := dxBlocks isDx8 d n (xs.drop 32)
    (cs ++ r.1, e0 :: e1 :: r.2.1, fl ||| r.2.2)

/-- One row of 128 words converted: codes, scale bytes and flags. -/
def drainRow (r : BufRec) (scale : Word) (ws : List Word) : List Nat × List Nat × Flags :=
  let gather (rs : List (Nat × Flags)) : Flags := rs.foldl (fun a x => a ||| x.2) Fl.none
  if r.isDx then
    let fs := ws.map (scaled f32 4 false scale)
    let b := dxBlocks r.isDx8 r.dxD 4 (fs.map Prod.fst)
    (b.1, b.2.1, gather fs ||| b.2.2)
  else
    let rs := ws.map fun x => match encFmt r.menc with
      | some f => scaled f r.srnd r.sat scale x
      | none => convElem 0x0C r.menc x.toNat 0 r.sat
    (rs.map Prod.fst, [], gather rs)

/-! ### Reading and writing operands -/

/-- The cause of the first poisoned granule among scratchpad bytes. -/
def Team.gransCause (t : Team) (as : List Nat) : Option (BitVec 8) :=
  as.findSome? fun a => match t.gran (a / 16) with
    | .poisonedError => some 9
    | .poisonedChecksum => some 10
    | _ => none

def granPoison (cause : BitVec 8) : Granule := if cause = 10 then .poisonedChecksum else .poisonedError

/-- Bytes of an operand: from the scratchpad, or memory through the pages translated at issue, with the cause of poison. -/
def State.mxRead (s : State) (f : Flight) (t : Team) (c : MxCmd) (o : MxOpnd) (as : List Nat) : State × List Byte × Option (BitVec 8) :=
  if o.scratch then (s, as.map t.scratch.get, t.gransCause as)
  else
    let ps := as.map (pagePhys c.pages)
    let pol := policyOf o.map.policy (ps.any fun p => p.2)
    let pas := ps.map Prod.fst
    let s : State := s.drainLines f.key (pas.map (· / 128))
    let r := s.load f.vd f.core (if c.kind = .mwldL2 && pol = 0 then 1 else pol) o.map.attar o.map.expand pas
    (r.1, r.2, if pas.any (r.1.readBad pol) then some 9 else none)

/-- The 64-byte blocks of an engine's writes, each performed and encoded at once (17 R372), after the flight's gathered stores
to their lines (09 R230). -/
def State.engineWrite (s : State) (f : Flight) (core policy : Nat) (ws : List (Nat × Byte)) : State :=
  ((ws.map fun w => w.1 / 64).dedup).foldl (fun s b => s.write f.vd core 5 policy (ws.filter fun w => w.1 / 64 = b))
    (s.drainLines f.key (linesOf ws))

/-- An engine writes bytes with poison: at the LLC, or past the caches. -/
def State.enginePoison (s : State) (f : Flight) (policy : Nat) (as : List Nat) : State :=
  let s : State := s.drainLines f.key ((as.map (· / 128)).dedup)
  if policy = 4 then s.memPoison as else s.cohPoison f.vd as

/-- An engine's write to a team's scratchpad: its granules take a state (08 R199). -/
def State.scratchEngine (s : State) (tk : Nat) (ws : List (Nat × Byte)) (g : Granule) (grans : List Nat) : State :=
  match s.team tk with
  | none => s
  | some t =>
    let t : Team := { t with scratch := t.scratch.puts ws }
    (s.putTeam (grans.foldl (fun t n => t.setGran n g) t)).syncScratch tk ((ws.map Prod.fst) ++ grans.map (16 * ·))

/-- The granules of scratchpad bytes. -/
def gransOf (as : List Nat) : List Nat := (as.map (· / 16)).dedup

/-! ### Performing a command -/

/-- A bank takes its weights from its source (R284, R279). -/
def State.loadBank (s : State) (f : Flight) (t : Team) (c : MxCmd) : State × Option (BitVec 8) :=
  match c.opnd 0 with
  | none => (s, none)
  | some o =>
    let rows := List.range 128
    let r := s.mxRead f t c o (rows.flatMap o.rowAddrs)
    let q := r.1.mxRead f t c o (rows.flatMap o.scaleAddrs)
    let cause := match r.2.2 with
      | some p => some p
      | none => q.2.2
    let m := q.1.mxCore t.core
    let b : Bank := { m.bank c.bank with
      valid := true
      poison := cause
      held := ⟨c.kind = .mwldL2, c.record, c.off, c.pages⟩
      codes := if cause.isNone then codesOf o.nib r.2.1 else []
      scales := if cause.isNone then q.2.1.map BitVec.toNat else [] }
    (q.1.putMx (m.setBank c.bank b), cause)

/-- Poison anywhere in what an MMA still reads: its bank, its activation rows, or its source rows. -/
def State.mxPoison (s : State) (t : Team) (c : MxCmd) : Option (BitVec 8) :=
  let m := s.mxCore t.core
  let b := m.bank c.bank
  let rows := (List.range c.rows).drop c.next
  match b.poison with
  | some p => some p
  | none =>
    if c.kind = .mmaByp then rows.findSome? fun r => m.rowPoison (c.firstSrc + r)
    else match c.opnd (mxDepth (mxFmt b.held.record.menc)) with
      | some o => t.gransCause (rows.flatMap fun r => o.rowAddrs r ++ o.scaleAddrs r)
      | none => none

/-- One activation row through the array. -/
def State.streamRow (s : State) (t : Team) (c : MxCmd) (row : Nat) : State × Flags :=
  let m := s.mxCore t.core
  let b := m.bank c.bank
  let fmt := mxFmt b.held.record.menc
  let (act, sc, fl) := if c.kind = .mmaByp then drainRow c.record c.scale (m.row (c.firstSrc + row))
    else match c.opnd (mxDepth fmt) with
      | some o => (codesOf o.nib ((o.rowAddrs row).map t.scratch.get), ((o.scaleAddrs row).map t.scratch.get).map BitVec.toNat, Fl.none)
      | none => ([], [], Fl.none)
  let g := c.firstRow + row
  let r := mxRow fmt b (mxFmt c.record.menc) act sc (m.row g)
  (s.putMx (m.setRow g r.1), fl ||| r.2)

/-- Rows of an MMA or MMA.BYP, from its next row up to `upTo`; a poisoned one writes no sums and marks every row it would
have written (R279). -/
def State.streamRows (s : State) (t : Team) (c : MxCmd) (upTo : Nat) : State :=
  let cause := match c.poison with
    | some p => some p
    | none => s.mxPoison t c
  match cause with
  | some p =>
    let m := (List.range c.rows).foldl (fun (m : MxCore) r => m.setPoison (c.firstRow + r) (some p)) (s.mxCore t.core)
    (s.putMx m).putMxCmd { c with poison := some p, next := upTo }
  | none =>
    let rows := (List.range upTo).drop c.next
    let r := rows.foldl (fun (x : State × Flags) row => let y := x.1.streamRow t c row; (y.1, x.2 ||| y.2)) (s, Fl.none)
    r.1.putMxCmd { c with next := upTo, fstat := c.fstat ||| r.2 }

/-- MDRAIN: good rows first, then the marks of poisoned ones, whose scale granules may be shared (R287, R279). -/
def State.drainTile (s : State) (t : Team) (c : MxCmd) : State × Flags :=
  match c.opnd 0 with
  | none => (s, Fl.none)
  | some o =>
    let m := s.mxCore t.core
    let rows := List.range c.rows
    let bad (r : Nat) : Option (BitVec 8) := m.rowPoison (c.firstRow + r)
    let good := (rows.filter fun r => (bad r).isNone).map fun r =>
      let (cs, sc, fl) := drainRow c.record c.scale (m.row (c.firstRow + r))
      ((o.rowAddrs r).zip (packCodes o.nib cs) ++ (o.scaleAddrs r).zip (sc.map (BitVec.ofNat 8)), fl)
    let ws := good.flatMap Prod.fst
    let s : State := s.scratchEngine t.key ws .full (gransOf (ws.map Prod.fst))
    let s : State := rows.foldl (fun s r => match bad r with
      | some p => s.scratchEngine t.key [] (granPoison p) (gransOf (o.rowAddrs r ++ o.scaleAddrs r))
      | none => s) s
    (s, good.foldl (fun a g => a ||| g.2) Fl.none)

/-- MACCLD: rows read poisoned are marked, the others are loaded and cleared (R279, R289). -/
def State.loadTile (s : State) (f : Flight) (t : Team) (c : MxCmd) (o : MxOpnd) : State × Option (BitVec 8) :=
  (List.range 128).foldl (fun (x : State × Option (BitVec 8)) r =>
    let q := x.1.mxRead f t c o (o.rowAddrs r)
    let m := q.1.mxCore t.core
    let g := 128 * c.tile + r
    match q.2.2 with
    | some p => (q.1.putMx (m.setPoison g (some p)), some (x.2.getD p))
    | none => (q.1.putMx ((m.setRow g ((codesOf 8 q.2.1).map wd)).setPoison g none), x.2)) (s, none)

/-- MACCST. -/
def State.storeTile (s : State) (f : Flight) (t : Team) (c : MxCmd) (o : MxOpnd) : State :=
  let m := s.mxCore t.core
  (List.range 128).foldl (fun s r =>
    let g := 128 * c.tile + r
    let as := o.rowAddrs r
    let data := as.zip ((m.row g).flatMap wordBytes)
    match o.scratch, m.rowPoison g with
    | true, some p => s.scratchEngine t.key [] (granPoison p) (gransOf as)
    | true, none => s.scratchEngine t.key data .full (gransOf as)
    | false, p =>
      let ps := data.map fun w => ((pagePhys c.pages w.1).1, w.2)
      let pol := policyOf o.map.policy (as.any fun a => (pagePhys c.pages a).2)
      if p.isSome then s.enginePoison f pol (ps.map Prod.fst) else s.engineWrite f f.core pol ps) s

/-- A command leaves the queue: its flags, its set flag, its cause before the flight's next issue, its pins (R274, R279,
R280). -/
def State.mxFinish (s : State) (c : MxCmd) (fl : Flags) (cause : Option (BitVec 8)) : State :=
  let s : State := { s with
    mxq := s.mxq.filter fun x => x.key ≠ c.key
    pins := s.pins.filter fun p => p.cmd ≠ c.key }
  let s : State := (s.complete c.flight c.flag fl).served (.op c.key)
  match cause with
  | some p => s.modFlight c.flight fun f => { f with poisoned := f.poisoned ++ [⟨p, c.lane, c.pc⟩] }
  | none => s

/-- Perform a started command to its end. -/
def State.performMx (s : State) (f : Flight) (t : Team) (c : MxCmd) : State :=
  match c.kind with
  | .mwld | .mwldL2 =>
    let r := s.loadBank f t c
    r.1.mxFinish c Fl.none r.2
  | .mma | .mmaByp =>
    let s : State := s.streamRows t c c.rows
    match s.mxCmd c.key with
    | some c => s.mxFinish c c.fstat c.poison
    | none => s
  | .mdrain =>
    let r := s.drainTile t c
    r.1.mxFinish c r.2 none
  | .mzero =>
    let m := (List.range 128).foldl (fun (m : MxCore) r => (m.setRow (128 * c.tile + r) []).setPoison (128 * c.tile + r) none)
      (s.mxCore t.core)
    (s.putMx m).mxFinish c Fl.none none
  | .maccld =>
    match c.opnd 0 with
    | some o =>
      let r := s.loadTile f t c o
      r.1.mxFinish c Fl.none r.2
    | none => s
  | .maccst =>
    match c.opnd 0 with
    | some o => (s.storeTile f t c o).mxFinish c Fl.none none
    | none => s

/-- The flight and the team of a command. -/
def State.mxParty (s : State) (c : MxCmd) : Option (Flight × Team) :=
  match s.flight c.flight, s.team c.team with
  | some f, some t => some (f, t)
  | _, _ => none

/-- A command's turn to its end. -/
def State.endMx (s : State) (c : MxCmd) : State :=
  match s.mxParty c with
  | some p => s.performMx p.1 p.2 c
  | none => { s with mxq := s.mxq.filter fun x => x.key ≠ c.key, pins := s.pins.filter fun p => p.cmd ≠ c.key }

/-- The sequencer stops for a save or a migration (R277): started commands complete, but one that streams rows stops where
its rows stand. -/
def State.stopMatrix (s : State) (tk : Nat) : State :=
  let s : State := (s.mxq.filter fun c => c.team = tk && c.started && !c.kind.streams).foldl State.endMx s
  { s with mxq := s.mxq.map fun c => if c.team = tk && c.started then { c with paused := true } else c }

end Sys2Proof.Machine
end

