-- ==== Sys2Proof/Machine/Teams.lean ====
section
/-!
DEFINITION. What a core has free and whether a variant fits (14 R306 to R309; 03 R92), placing a team, saving it whole and
restoring it (14 R307, R315; 15 R344, R362), the frame pool (15 R346), and ending a team's stay.
-/

namespace Sys2Proof.Machine

/-! ### Free resources of a core -/

/-- What a core has free: flight slots, rows and scalar bytes by quadrant, the scratchpad ranges taken, the macro images
held, and whether the array is taken. -/
structure Room where
  slots   : List Nat
  rows    : List Nat
  bytes   : List Nat
  scratch : List (Nat × Nat)
  images  : List (List (Nat × List DWord))
  array   : Bool
  deriving DecidableEq, Repr

def Room.empty : Room where
  slots := List.replicate 4 Config.slotsPerQuadrant
  rows := List.replicate 4 Config.rowsPerQuadrant
  bytes := List.replicate 4 Config.unifBytes
  scratch := []
  images := []
  array := false

/-- Uniform and affine bytes of a flight (01 R15). -/
def scalarBytes (m : List ShapeClass) : Nat := 4 * (classRegs m .uniform).length + 8 * (classRegs m .affine).length

/-- Place `i` of a list of counts lowered. -/
def lower (l : List Nat) (i n : Nat) : List Nat := listSet l i (l.getD i 0 - n)
def raise (l : List Nat) (i n : Nat) : List Nat := listSet l i (l.getD i 0 + n)

/-- A flight's slot, rows and bytes taken in a quadrant. -/
def Room.flight (r : Room) (v : Variant) (q : Nat) : Room :=
  { r with slots := lower r.slots q 1, rows := lower r.rows q v.rows, bytes := lower r.bytes q (scalarBytes v.classMap) }

/-- The quadrant for the next flight: of those that can hold it, the one with the most free rows, ties to the lower
(R306). -/
def Room.quadFor (r : Room) (v : Variant) : Option Nat :=
  let ok := (List.range 4).filter fun q => 1 ≤ r.slots.getD q 0 && v.rows ≤ r.rows.getD q 0 && scalarBytes v.classMap ≤ r.bytes.getD q 0
  match ok with
  | [] => none
  | q :: qs => some (qs.foldl (fun b q => if r.rows.getD b 0 < r.rows.getD q 0 then q else b) q)

/-- Quadrants for `n` flights in index order. -/
def Room.assign (v : Variant) : Nat → Room → Option (List Nat × Room)
  | 0, r => some ([], r)
  | n + 1, r =>
    match r.quadFor v with
    | none => none
    | some q => (Room.assign v n (r.flight v q)).map fun p => (q :: p.1, p.2)

/-- The lowest base of a free contiguous range. -/
def Room.rangeFor (r : Room) (n : Nat) : Option Nat :=
  let free (b : Nat) : Bool := b + n ≤ Config.scratchBytes && r.scratch.all fun t => b + n ≤ t.1 || t.1 + t.2 ≤ b
  ((0 :: r.scratch.map fun t => t.1 + t.2).filter free).foldl (fun m b => match m with
    | none => some b
    | some m => some (min m b)) none

/-- Control-store slots that the distinct images take. -/
def Room.macroSlots (r : Room) : Nat := r.images.foldl (fun n i => n + i.length) 0

/-- An image is loaded unless it is already resident; images are told apart by their bodies (03 R92; log 88). -/
def Room.withImage (r : Room) (image : List (Nat × List DWord)) : Room :=
  if image = [] || r.images.contains image then r else { r with images := image :: r.images }

/-- Where a team stands on a core. -/
structure Place where
  quads : List Nat
  base  : Nat
  deriving DecidableEq, Repr

/-- A team of `n` flights placed in a variant, or none where it does not fit (R306). -/
def Room.place (r : Room) (v : Variant) (n : Nat) : Option (Place × Room) :=
  let r' := r.withImage v.bodies
  if Config.macroSlots < r'.macroSlots || (v.isMatrix && r.array) then none
  else
    match r.rangeFor v.scratch, Room.assign v n r' with
    | some b, some (qs, r'') =>
      some (⟨qs, b⟩, { r'' with
        scratch := if v.scratch = 0 then r''.scratch else (b, v.scratch) :: r''.scratch
        array := r''.array || v.isMatrix })
    | _, _ => none

/-- `m` teams placed together. -/
def Room.placeAll (v : Variant) (n : Nat) : Nat → Room → Option (List Place × Room)
  | 0, r => some ([], r)
  | m + 1, r =>
    match r.place v n with
    | none => none
    | some (p, r) => (Room.placeAll v n m r).map fun q => (p :: q.1, q.2)

/-- Units of `m` teams placed beside each other while they fit, at most `fuel`. -/
def Room.units (v : Variant) (n m : Nat) : Nat → Room → List Place
  | 0, _ => []
  | fuel + 1, r =>
    match Room.placeAll v n m r with
    | none => []
    | some (ps, r) => ps ++ Room.units v n m fuel r

/-- A reserved place taken (14 R301). -/
def Room.seat (r : Room) (v : Variant) (p : Seat) : Room :=
  let r := p.quads.foldl (fun (r : Room) q => r.flight v q) (r.withImage v.bodies)
  { r with
    scratch := if v.scratch = 0 then r.scratch else (p.base, v.scratch) :: r.scratch
    array := r.array || v.isMatrix }

/-! ### Who holds what -/

/-- The team holds resources of its core. -/
def Team.holds (t : Team) : Bool := t.state = .resident || t.state = .held || t.state = .spilt

/-- Granule `g` of the team's allocation has been spilt. -/
def Team.spiltGranule (t : Team) (g : Nat) : Bool := t.spills.any fun p => match p with
  | .granules a n => a ≤ g && g < a + n
  | _ => false

/-- The scratchpad ranges that a team holds, base and bytes (17 R382). -/
def Team.ranges (t : Team) (bytes : Nat) : List (Nat × Nat) :=
  if bytes = 0 then []
  else if t.spills = [] then [(t.base, bytes)]
  else ((List.range (bytes / 16)).filter fun g => !t.spiltGranule g).map fun g => (t.base + 16 * g, 16)

/-- The team holds its ranges of its core's scratchpad, with these data (08 R197). -/
def State.occupy (s : State) (t : Team) (data : Memory) : State :=
  let bytes := ((s.variantOf t).map Variant.scratch).getD 0
  let own (r : Nat × Nat) : List (Nat × Byte) := (data.map fun c => (t.base + c.1, c.2)).filter fun c => r.1 ≤ c.1 && c.1 < r.1 + r.2
  let inside (x : Residue) (r : Nat × Nat) : Bool := x.core = t.core && r.1 ≤ x.base && x.base + x.size ≤ r.1 + r.2
  { s with residue := (t.ranges bytes).foldl (fun l r => ⟨t.core, r.1, r.2, t.vd, own r⟩ :: l.filter fun x => !inside x r) s.residue }

/-- The byte that an earlier team of the owner left at an offset of a core's scratchpad; zero where the last team there was
another owner's. -/
def State.leftAt (s : State) (vd core a : Nat) : Byte :=
  match s.residue.find? fun r => r.core = core && r.base ≤ a && a < r.base + r.size with
  | some r => if r.vd = vd then ((kget Prod.fst a r.data).map Prod.snd).getD 0 else 0
  | none => 0

/-- What a team finds in its allocation: each byte zero, or as an earlier team of the owner left it, by free choice. -/
def State.found (s : State) (vd core base n : Nat) : Memory :=
  let as := (s.residue.filter fun r => r.core = core && r.vd = vd).flatMap fun r => r.data.map Prod.fst
  Memory.puts [] ((as.filter fun a => base ≤ a && a < base + n && Config.freeBit s.free (64 + a)).map fun a => (a - base, s.leftAt vd core a))

/-- What one register of a class takes, returned to a quadrant. -/
def Room.freeReg (r : Room) (q : Nat) (k : ShapeClass) : Room :=
  match k with
  | .general => { r with rows := raise r.rows q 1 }
  | .uniform => { r with bytes := raise r.bytes q 4 }
  | .affine => { r with bytes := raise r.bytes q 8 }
  | .absent => r

/-- Where a team stands on its core. -/
def State.seatOf (s : State) (t : Team) : Seat :=
  let fs := s.teamFlights t.key
  ⟨t.core, (List.range fs.length).map fun i => ((fs.find? fun f => f.index = i).map fun f => f.quad % 4).getD 0, t.base⟩

def State.isReserved (s : State) (t : Team) : Bool := (s.grid t.grid).any fun g => g.cls = 1

/-- Take what a team on the core holds, without its spilt parts (17 R382). A flight that has ended keeps its slot alone
(03 R106), and what its grid reserves (R301). -/
def State.takeTeam (s : State) (r : Room) (t : Team) : Room :=
  match s.variantOf t with
  | none => r
  | some v =>
    if s.isReserved t then (r.seat v (s.seatOf t)).withImage t.bodies
    else
      let fs := s.teamFlights t.key
      let r := fs.foldl (fun (r : Room) f =>
        if f.ended then { r with slots := lower r.slots (f.quad % 4) 1 } else r.flight v (f.quad % 4)) (r.withImage t.bodies)
      let r : Room := { r with
        scratch := t.ranges v.scratch ++ r.scratch
        array := r.array || (v.isMatrix && !t.spills.contains .array) }
      t.spills.foldl (fun (r : Room) p => match p with
        | .reg i n =>
          match fs.find? fun f => f.index = i && !f.ended with
          | some f => r.freeReg (f.quad % 4) (v.classMap.getD n .absent)
          | none => r
        | _ => r) r

/-- The places on a core that a class-1 grid has reserved and that none of its teams holds (R301). -/
def State.freeSeats (s : State) (g : Grid) (core : Nat) : List Seat :=
  (s.teams.filter fun t => t.grid = g.key && t.core = core && t.holds).foldl (fun l t => l.erase (s.seatOf t))
    (g.reserved.filter fun p => p.core = core)

/-- What is free on a core: what no placed team holds and no accepted class-1 grid reserves (R300, R301). -/
def State.roomOn (s : State) (core : Nat) : Room :=
  let r := (s.teams.filter fun t => t.core = core && t.holds).foldl s.takeTeam Room.empty
  (s.grids.filter fun g => g.cls = 1 && g.state ≠ .retired).foldl (fun r g =>
    match g.vstar.bind fun v => kget Variant.num v g.variants with
    | none => r
    | some v => (s.freeSeats g core).foldl (fun r p => r.seat v p) r) r

/-- The cores on which the dispatcher places teams: those of the partition but its service cores (R300; 15 R330). -/
def Partition.teamCores (p : Partition) : List Nat :=
  (p.halls.flatMap fun h => (List.range Config.coresPerHall).map fun c => Config.coresPerHall * h + c).filter
    fun c => !p.svc.contains c

/-- The core lies in the hall or gallery that holds the unit's first placed team, at every level bound to one (R308). -/
def State.instanceOk (s : State) (g : Grid) (index core : Nat) : Bool :=
  (List.range g.levels.length).all fun n =>
    let k := n + 1
    let dom := (g.levels.getD n (9, 1)).1
    if k ≤ g.teamTop || (dom ≠ 2 && dom ≠ 3) then true
    else
      let size := (List.range (k - g.teamTop)).foldl (fun p m => p * g.ext (g.teamTop + m + 1)) 1
      match s.teams.find? fun t => t.grid = g.key && t.index / size = index / size with
      | none => true
      | some t =>
        if dom = 2 then hallOfCore t.core = hallOfCore core else galleryOfCore t.core = galleryOfCore core

/-! ### Placing -/

/-- A team of the owner that has not retired holds the handle (15 R345). -/
def State.handleUsed (s : State) (vd h : Nat) : Bool := s.teams.any fun t => t.vd = vd && t.state ≠ .retired && t.handle = h

/-- The lowest free handle. -/
def State.freeHandle (s : State) (vd : Nat) : Option Nat := (List.range 4096).find? fun h => !s.handleUsed vd h

/-- Flights enter their quadrants, the last the youngest (03 R77). -/
def State.enterQuads (s : State) (fs : List Flight) : State := fs.foldl (fun s f => (s.putFlight f).makeYoungest f) s

/-- A team never started is placed (R307; 03 R75; 08 R197). -/
def State.startTeam (s : State) (g : Grid) (v : Variant) (index core : Nat) (p : Place) : State :=
  match s.freeHandle g.vd with
  | none => s
  | some h =>
    let tk := s.nextKey
    let s : State := { s with nextKey := tk + 1 + g.flights }
    let t : Team := { Team.fresh tk g.key index g.vd core v.num with
      handle := h
      base := p.base
      bodies := v.bodies
      scratch := s.found g.vd core p.base v.scratch }
    let s : State := ((s.putTeam t).occupy t []).drawn
    let s : State := if v.isMatrix then s.putMx { MxCore.reset core with team := some tk } else s
    s.enterQuads ((List.range g.flights).map fun i =>
      Flight.fresh (tk + 1 + i) tk i g.vd core (4 * core + p.quads.getD i 0) .lane (v.code &&& pcMask) v.classMap v.waitTab)

/-! ### Saving (R315, R316) -/

/-- Time that a save or restore takes, which the manual does not give: a free value (log 9). -/
def State.chargeTime (s : State) (vd k : Nat) : State := (s.count vd k (Config.freeWord s.free 40).toNat).drawn

/-- The team leaves its core: its flights leave their quadrants, its array is free. -/
def State.leaveCore (s : State) (t : Team) : State :=
  let ks := (s.teamFlights t.key).map Flight.key
  let s : State := { s with quads := s.quads.map fun q => { q with order := q.order.filter fun k => !ks.contains k } }
  match s.mx.find? fun m => m.team = some t.key with
  | none => s
  | some m => (s.modTeam t.key fun t => { t with mx := some m }).putMx (MxCore.reset m.core)

/-- The team's accesses that are still to be performed, but for a pending LDS.WAIT, which moves with it (08 R201). -/
def State.teamAccesses (s : State) (tk : Nat) : List MemOp :=
  let ks := (s.teamFlights tk).map Flight.key
  s.memOps.filter fun o => ks.contains o.flight && !o.kind.waits

/-- The release of a move (09 R239): the team's accesses are performed, in the order in which they may be. -/
def State.release (s : State) (tk : Nat) : State :=
  (s.teamAccesses tk).foldl (fun s _ => (s.teamAccesses tk).foldl State.tryOp s) s

/-- No access to global memory is left that only a pin or a transfer holds, and no gathered store (12 R280; 19 R407). -/
def State.released (s : State) (tk : Nat) : Bool := ((s.teamAccesses tk).all fun o => o.kind.isScratch || !s.inOrder o)
  && (s.teamFlights tk).all fun f => !s.wcStuck f.key

/-- What every halt of a whole team brings about: flights halted, results landed, accesses performed and stores drained, the
sequencer stopped, dirty window lines written (03 R98; 08 R204; 09 R239). -/
def State.quiesce (s : State) (tk : Nat) : State :=
  let s : State := s.haltAll fun f => !f.role.isService && f.team = tk
  let fs := s.teamFlights tk
  let s : State := fs.foldl (fun s f => (s.land f.key none).drainWc f.key) (s.release tk)
  (s.stopMatrix tk).closeWindows tk

def State.teamHead (s : State) (t : Team) (g : Grid) (reason : Nat) : CtxHead where
  variant := t.variant
  reason := reason
  teamId := t.handle
  launch := g.va
  lvl := 0 :: (List.range 7).map fun n => if n < g.levels.length then g.lvlId t.index 0 (n + 1) else 0
  cycle := s.now t.vd

/-- Bytes of a team's context. -/
def State.ctxSize (s : State) (t : Team) : Nat :=
  match s.grid t.grid, s.variantOf t with
  | some g, some v => (g.teamShape v).size
  | _, _ => 0

/-- Save a halted team whole into a frame, and free its place. Saved teams stand in the order of their saves (R313). -/
def State.saveTeam (s : State) (tk : Nat) (fr : Frame) (reason : Nat) (st : TeamState) : State :=
  let s : State := s.quiesce tk
  match s.team tk with
  | none => s
  | some t =>
    match s.grid t.grid, s.variantOf t with
    | some g, some v =>
      let s : State := s.saveCtx fr (s.teamHead t g reason) (g.teamShape v) (s.teamFlights tk) v.classMap (some t)
      let s : State := (s.occupy t t.scratch).leaveCore t
      match s.team tk with
      | some t =>
        let t : Team := { t with
          state := st
          reason := reason
          request := none }
        { s with teams := kdel Team.key tk s.teams ++ [t] }
      | none => s
    | _, _ => s

/-! ### Restoring -/

/-- A page of a team's frame that lies outside the balustrade (R307; 15 R338; 19 R404). -/
def State.frameBad (s : State) (t : Team) : Option Nat :=
  (s.teamFrame t).bind fun fr =>
    ((List.range ((s.ctxSize t + 4095) / 4096)).map fun i => fr.addr (4096 * i)).find? fun a => ((s.owner t.vd).balustrade a 4096).isNone

/-- A saved team is placed again and read back from its frame; its flights go on from their saved points, and its banks are
reloaded (12 R277). -/
def State.restoreTeam (s : State) (tk core : Nat) (p : Place) (image : List (Nat × List DWord)) : State :=
  match s.team tk with
  | none => s
  | some t =>
    match s.teamFrame t, s.grid t.grid, s.variantOf t with
    | some fr, some g, some v =>
      let c := g.teamShape v
      let s : State := s.frameDrop fr 0 c.size
      let fs := (s.teamFlights tk).map fun (f : Flight) =>
        { s.loadFlight fr c v.classMap f.index f with
          core := core
          quad := 4 * core + p.quads.getD f.index 0
          halted := true }
      let s : State := fs.foldl (fun s f => s.rearm fr c f) s
      let s : State := if c.mx then s.loadSeq fr c tk else s
      let t' : Team := { s.loadTeam fr c t with
        core := core
        base := p.base
        state := .resident
        mx := none
        blockedFor := 0
        bodies := image }
      let mx : List MxCore := match t.mx with
        | some m => [{ s.loadMx fr c m with core := core }]
        | none => []
      let s : State := (s.putTeam t').occupy t' []
      let s : State := mx.foldl State.putMx s
      (s.enterQuads fs).resumeAll fun f => !f.role.isService && (s.groupOf t').any fun u => u.key = f.team
    | _, _, _ => s

/-! ### The frame pool (15 R346) -/

def Owner.poolBase (o : Owner) : Nat := bits o.fpool.toNat 51 12 * 4096
def Owner.logSz (o : Owner) : Nat := bits o.fpool.toNat 4 0
def Owner.frameAt (o : Owner) (i : Nat) : Nat := o.poolBase + 0x1000 + i * 2 ^ o.logSz

/-- FREE and BITMAP as the device keeps them. -/
def State.writePool (s : State) (vd : Nat) : State :=
  let o := s.owner vd
  let used := o.frames.foldl (fun n i => n ||| 2 ^ i) 0
  let b := o.onPort o.poolBase
  (s.heldPost vd (b + 4) (leBytes 4 (o.nframes - o.frames.length))).heldPost vd (b + 0x200) (leBytes 512 used)

/-- The lowest free frame that holds `size` bytes. -/
def Owner.freeFrame (o : Owner) (size : Nat) : Option Nat :=
  if size ≤ 2 ^ o.logSz then (List.range o.nframes).find? fun i => !o.frames.contains i else none

def State.takeFrame (s : State) (vd i : Nat) : State :=
  (s.modOwner vd fun o => { o with frames := o.frames ++ [i] }).writePool vd

/-- Free the frame at a physical address. -/
def State.freeFrame (s : State) (vd pa : Nat) : State :=
  let o := s.owner vd
  (s.putOwner { o with frames := o.frames.filter fun i => o.frameAt i ≠ pa }).writePool vd

/-! ### Service flights (15 R331, R332, R348) -/

/-- The header of the vestibule. -/
def State.vestByte (s : State) (vd o : Nat) : Byte := let a := (s.owner vd).onPort ((s.owner vd).vbase.toNat + o); if s.mapped a then s.byte a else 0
def State.vestNat (s : State) (vd o n : Nat) : Nat := leNat ((List.range n).map fun i => s.vestByte vd (o + i))

/-- SMAP as a class map (14 R304). -/
def classOfCode (n : Nat) : ShapeClass := if n = 1 then .uniform else if n = 2 then .affine else if n = 3 then .general else .absent

def classesOf (bs : List Byte) : List ShapeClass :=
  (List.range 240).map fun r => classOfCode (bits (bs.getD (r / 4) 0).toNat (2 * (r % 4) + 1) (2 * (r % 4)))

/-- A service flight of an owner. -/
def State.serviceFlight (s : State) (vd : Nat) (r : Role) : Option Flight := s.flights.find? fun f => f.vd = vd && f.role = r

/-- Save a fault flight as a one-flight context, and suspend it (R348). -/
def State.suspend (s : State) (f : Flight) (k : Nat) : State :=
  let s : State := (s.land f.key none).drainWc f.key
  let o := s.owner f.vd
  let c := shapeOf f.classMap 1 0 false
  match s.flight f.key with
  | none => s
  | some f =>
    let f := f.rewind
    let h : CtxHead := ⟨0, 3, 0, 0, List.replicate 8 0, s.now f.vd⟩
    let s : State := s.putFlight { f with block := .suspended }
    let s : State := s.saveCtx (o.handlerFrame k) h c [f] f.classMap none
    (s.count f.vd 0x13 c.size).chargeTime f.vd 0x12

/-- Restore fault flight k, which runs its instruction again (R362). -/
def State.unsuspend (s : State) (f : Flight) (k : Nat) : State :=
  let o := s.owner f.vd
  let c := shapeOf f.classMap 1 0 false
  let s : State := s.frameDrop (o.handlerFrame k) 0 c.size
  let s : State := s.putFlight { s.loadFlight (o.handlerFrame k) c f.classMap 0 f with block := .none }
  (s.count f.vd 0x13 c.size).chargeTime f.vd 0x12

/-! ### Retirement of a team (R298) -/

/-- Every flight has ended and every copy and matrix command of the team has completed. -/
def State.teamDone (s : State) (t : Team) : Bool :=
  t.onCore && t.state ≠ .retired && (s.teamFlights t.key).all Flight.ended
    && s.copies.all (fun c => c.team ≠ t.key || c.state = .done) && s.mxq.all (fun c => c.team ≠ t.key)

/-- The team's dirty window lines are written, its windows end, and its place is freed. It stays listed until its grid
retires, since the barriers of its units ask for it (03 R108). -/
def State.retireTeam (s : State) (t : Team) : State :=
  let s : State := s.closeWindows t.key
  let s : State := (s.occupy t t.scratch).leaveCore t
  let s : State := { s with
    flights := s.flights.filter fun f => f.role.isService || f.team ≠ t.key
    copies := s.copies.filter fun c => c.team ≠ t.key
    forwards := s.forwards }
  s.modTeam t.key fun (t : Team) => { t with
    state := .retired, scratch := [], granules := [], windows := [], mx := none, request := none }

end Sys2Proof.Machine
end

