-- ==== Sys2Proof/Machine/Walks.lean ====
section
/-!
DEFINITION. Translation below the L1 TLB, walk requests, faults of teams, copies and fault flights, and fault records
(15 R339, R340, R344 to R348; 08 R192): event TRANSLATION_RESOLVED.
-/

namespace Sys2Proof.Machine

/-! ### The TLBs (R339) -/

def sameEntry (unit : Nat) (e : TlbEntry) (p : Nat × TlbEntry) : Bool :=
  p.1 = unit && p.2.vd = e.vd && p.2.asid = e.asid && p.2.va = e.va

/-- An entry enters a TLB of `cap` entries, in the place of one with the same owner, ASID and base; a full TLB drops one
of those that `first` prefers if there are any, else one of all: which one is the free number `pick` (log 23). -/
def tlbAdd (cap pick : Nat) (first : TlbEntry → Bool) (tlb : List (Nat × TlbEntry)) (unit : Nat) (e : TlbEntry) : List (Nat × TlbEntry) :=
  let rest := tlb.filter fun p => !sameEntry unit e p
  let mine := rest.filter fun p => p.1 = unit
  if mine.length < cap then rest ++ [(unit, e)]
  else
    let preferred := mine.filter fun p => first p.2
    let pool := if preferred = [] then mine else preferred
    match pool[pick % pool.length]? with
    | some v => rest.erase v ++ [(unit, e)]
    | none => rest ++ [(unit, e)]

/-- Install in a bank: owners above their share of it give way first. -/
def State.l3Install (s : State) (bank : Nat) (e : TlbEntry) : State :=
  let n := (s.ownersOf (s.owner e.vd).part).length
  let share := Config.l3TlbEntries / max n 1
  let count (vd : Nat) : Nat := (s.l3tlb.filter fun p => p.1 = bank && p.2.vd = vd).length
  { s with l3tlb := tlbAdd Config.l3TlbEntries (Config.tlbVictim (s.now e.vd) (e.va / 4096)) (fun x => share < count x.vd) s.l3tlb bank e }

/-- What a lookup finds. -/
inductive Look where
  | hit (e : TlbEntry)
  /-- An entry that lacks the attribute its KIND needs. -/
  | lacks
  | miss
  deriving DecidableEq, Repr

def AccessKind.judge (k : AccessKind) (e : TlbEntry) : Look := if k.allowed e then .hit e else .lacks

/-- A lookup in the L3 bank. -/
def State.lookL3 (s : State) (vd asid va : Nat) (k : AccessKind) : Look :=
  match tlbFind s.l3tlb (s.bankOf vd va) vd asid va with
  | some e => k.judge e
  | none => .miss

/-- A lookup from a core: its L1 TLB, its hall's L2, the L3 bank; a hit fills the levels above. -/
def State.lookup (s : State) (core vd asid va : Nat) (k : AccessKind) : State × Look :=
  let hall := hallOfCore core
  let never : TlbEntry → Bool := fun _ => false
  let up1 (s : State) (e : TlbEntry) : State := { s with l1tlb := tlbAdd Config.l1TlbEntries (Config.tlbVictim (s.now e.vd) (e.va / 4096)) never s.l1tlb core e }
  let up2 (s : State) (e : TlbEntry) : State := { s with l2tlb := tlbAdd Config.l2TlbEntries (Config.tlbVictim (s.now e.vd) (e.va / 4096)) never s.l2tlb hall e }
  match tlbFind s.l1tlb core vd asid va with
  | some e => (s, k.judge e)
  | none =>
    match tlbFind s.l2tlb hall vd asid va with
    | some e => (up1 s e, k.judge e)
    | none =>
      match tlbFind s.l3tlb (s.bankOf vd va) vd asid va with
      | some e => (up1 (up2 s e) e, k.judge e)
      | none => (s, .miss)

/-! ### Walk requests (R340) -/

def Owner.ringBase (r : DWord) : Nat := bits r.toNat 51 12 * 4096
def Owner.ringCap (r : DWord) : Nat := 2 ^ bits r.toNat 3 0

/-- A device write of a record in the owner's vestibule, at .PA (R340, R344): held while the host has it (19 R407). Outside
the balustrade the owner stalls (R338; 19 R404). -/
def State.postBytes (s : State) (vd a : Nat) (bs : List Byte) : State :=
  if ((s.owner vd).balustrade a bs.length).isNone then s.stallOwner vd 2 0 0xFF 0 0 a else s.heldPost vd ((s.owner vd).onPort a) bs

def Owner.walkAddr (o : Owner) (slot : Nat) : Nat := Owner.ringBase o.wq + 64 * slot

def WalkReq.handle (r : WalkReq) : Nat := r.slot + 4096 * (r.seq % 2 ^ 20)

def walkBytes (r : WalkReq) (now : Nat) : List Byte :=
  leBytes 8 r.va ++ leBytes 2 r.asid ++ leBytes 1 r.kind.code ++ leBytes 1 (min 255 r.waiters.length) ++ leBytes 4 r.handle
    ++ leBytes 1 r.bank ++ List.replicate 7 0 ++ leBytes 8 now ++ List.replicate 32 0

def pageOf (va : Nat) : Nat := va / 4096 * 4096

/-- A miss joins the outstanding request of its page, or posts one, or waits: the ring's next slot is reserved or 4,096
requests are outstanding. -/
def State.miss (s : State) (vd asid va : Nat) (k : AccessKind) (w : Waiter) : State :=
  let o := s.owner vd
  match o.walks.find? fun r => r.asid = asid && r.va = pageOf va with
  | some r =>
    let r' : WalkReq := { r with waiters := r.waiters ++ [(w, k, va)] }
    let s : State := s.putOwner { o with walks := o.walks.map fun (q : WalkReq) => if q.slot = r.slot then r' else q }
    s.postBytes vd (o.walkAddr r.slot + 0x0B) [BitVec.ofNat 8 (min 255 r'.waiters.length)]
  | none =>
    let slot := o.walkTail % Owner.ringCap o.wq
    if 4096 ≤ o.walks.length || (o.walks.any fun r => r.slot = slot) then
      s.putOwner { o with misses := o.misses ++ [(va, asid, k, w)] }
    else
      let r : WalkReq := ⟨slot, o.walkSeq + 1, pageOf va, asid, k, s.bankOf vd va, [(w, k, va)], false, false⟩
      let s : State := s.putOwner { o with walks := o.walks ++ [r], walkTail := o.walkTail + 1, walkSeq := o.walkSeq + 1 }
      (s.postBytes vd (o.walkAddr slot) (walkBytes r (s.now vd))).count vd 0x11 64

/-- A request's slot is free: the misses that wait are posted, in order. -/
def State.endWalk (s : State) (vd slot : Nat) : State :=
  let o := s.owner vd
  let s : State := s.putOwner { o with walks := o.walks.filter fun r => r.slot ≠ slot, misses := [] }
  o.misses.foldl (fun s m => s.miss vd m.2.1 m.1 m.2.2.1 m.2.2.2) s

/-! ### Fault records (R344, R345) -/

def faultBytes (r : FaultRec) : List Byte :=
  leBytes 8 r.va ++ leBytes 1 r.kind.code ++ leBytes 1 r.level ++ leBytes 1 r.state ++ leBytes 1 r.cause ++ leBytes 4 r.token
    ++ leBytes 8 r.frame ++ leBytes 8 r.pc.toNat ++ leBytes 2 r.asid ++ leBytes 1 r.lane ++ List.replicate 5 0
    ++ leBytes 8 r.seq ++ List.replicate 16 0

/-- A token: handle, kind, sequence. -/
def tokenOf (handle kind seq : Nat) : Nat := handle + 4096 * kind + 2 ^ 14 * (seq % 2 ^ 18)

/-- The lowest copy number that no paused copy of the owner holds. -/
def State.freeCopyNum (s : State) (vd : Nat) : Option Nat :=
  let held := s.copies.filterMap fun c => match c.state with
    | .paused t => if (s.team c.team).map Team.vd = some vd || (s.flight c.flight).map Flight.vd = some vd then some (t % 4096) else none
    | _ => none
  (List.range 4096).find? fun n => !held.contains n

/-- The record with its token, SEQ and place written; a team's and a copy's token is kept for TRESUME. -/
def State.writeFault (s : State) (vd addr : Nat) (copy : Option Nat) (r : FaultRec) : State × FaultRec :=
  let o := s.owner vd
  let seq := o.faultSeq + 1
  let handle := match copy with
    | some _ => (s.freeCopyNum vd).getD 0
    | none => r.token
  let kind := if r.state = 3 then 2 else if copy.isSome then 1 else 0
  let r : FaultRec := { r with token := tokenOf handle kind seq, seq := seq }
  let s : State := s.putOwner { o with faultSeq := seq }
  let s : State := match copy with
    | some k => match s.copy k with
      | some c => s.putCopy { c with state := .paused r.token }
      | none => s
    | none => s
  let s : State := if kind = 0 then
      { s with teams := s.teams.map fun (t : Team) => if t.vd = vd && t.handle = handle && t.state ≠ .retired then { t with tokenSeq := seq } else t }
    else s
  (((s.postBytes vd addr (faultBytes r)).count vd 0x13 64), r)

/-- The level-0 ring holds as many untaken records as it can. -/
def Owner.faultFull (o : Owner) : Bool := Owner.ringCap o.fq ≤ o.faultRing.length

/-- Post the record at level 0 if the ring has a slot and, for a copy, a number is free; else it waits. -/
def State.postFault (s : State) (vd : Nat) (copy : Option Nat) (r : FaultRec) : State :=
  let o := s.owner vd
  if o.faultFull || o.faultWait ≠ [] || (copy.isSome && (s.freeCopyNum vd).isNone) then
    s.putOwner { o with faultWait := o.faultWait ++ [(copy, r)] }
  else
    let slot := o.faultTail % Owner.ringCap o.fq
    let p := s.writeFault vd (Owner.ringBase o.fq + 64 * slot) copy r
    p.1.modOwner vd fun o => { o with faultRing := o.faultRing ++ [p.2], faultTail := o.faultTail + 1 }

/-- A slot or a copy number is free: records that wait are posted, in order. -/
def State.postWaiting (s : State) (vd : Nat) : State :=
  let ws := (s.owner vd).faultWait
  ws.foldl (fun s w => s.postFault vd w.1 w.2) (s.modOwner vd fun o => { o with faultWait := [] })

/-! ### Faults (R344, R348) -/

/-- The record of a fault, before it is posted: `handle` in the token's place. -/
def faultRec (va : Nat) (k : AccessKind) (level state cause handle frame : Nat) (pc : DWord) (asid lane : Nat) : FaultRec :=
  ⟨va % vaMod, k, level, state, cause, handle, frame, pc, asid, lane, 0⟩

/-- A flight of a team faults: the team's accesses are performed, and it is saved to a frame, or held. Where one must still
wait, or the team is held or off its core already, the flight runs its instruction again, and meets the fault then. -/
def State.faultTeam (s : State) (f : Flight) (va : Nat) (k : AccessKind) (cause lane : Nat) : State :=
  let s : State := s.modFlight f.key fun g => { g with block := .none }
  match s.team f.team with
  | none => s
  | some t =>
    let s : State := if t.state = .resident then s.release t.key else s
    if t.state ≠ .resident || !s.released t.key then s
    else
      let asid := s.asidOf f
      let s : State := (s.modTeam t.key fun t => { t with tokenSeq := 0 }).quiesce t.key
      let pc := ((s.flight f.key).map Flight.pc).getD f.pc
      let size := s.ctxSize t
      let o := s.owner f.vd
      let others (s : State) : State := s.haltAll fun g => !g.role.isService && g.team ≠ t.key && (s.groupOf t).any fun u => u.key = g.team
      match (if o.faultFull || o.faultWait ≠ [] then none else o.freeFrame size) with
      | some i =>
        let pa := o.frameAt i
        if (o.balustrade pa size).isNone then s.stallOwner f.vd 2 0 0xFF 0 0 pa
        else
          let s : State := (s.takeFrame f.vd i).saveTeam t.key (.at (o.onPort pa)) 3 (.faulted pa)
          let s : State := ((others s).count f.vd 0x13 size).chargeTime f.vd 0x12
          s.postFault f.vd none (faultRec va k 0 0 cause t.handle pa pc asid lane)
      | none =>
        let s : State := s.modTeam t.key fun t => { t with state := .held }
        let s : State := s.modOwner f.vd fun o => { o with held := o.held + 1 }
        s.postFault f.vd none (faultRec va k 0 1 cause t.handle 0 pc asid lane)

/-- A copy pauses (11 R257). -/
def State.faultCopy (s : State) (c : Copy) (vd asid va : Nat) (k : AccessKind) (cause : Nat) : State :=
  (s.putCopy { c with state := .faulted }).postFault vd (some c.key) (faultRec va k 0 2 cause 0 0 c.pc asid 0)

/-- Fault flight k faults: its record goes to the slot of level k + 1. -/
def State.faultHandler (s : State) (f : Flight) (n va : Nat) (k : AccessKind) (cause : Nat) : State :=
  if 2 ≤ n then s.stallOwner f.vd 4 0 f.role.code 0 f.pc 0
  else
    let asid := s.asidOf f
    let s : State := s.suspend f n
    let o := s.owner f.vd
    let pc := ((s.flight f.key).map Flight.pc).getD f.pc
    let r := faultRec va k (n + 1) 3 cause n (o.hframe n) pc asid 0
    let p := s.writeFault f.vd (o.vbase.toNat + 0x100 + 0x40 * (n + 1)) none r
    p.1.modOwner f.vd fun o =>
      let o : Owner := { o with suspTokens := listSet o.suspTokens n p.2.token }
      if n = 0 then { o with level1 := some p.2 } else { o with level2 := some p.2 }

/-- A flight's access faults, by its role. The walk flight makes no virtual access (R328). -/
def State.faultFlight (s : State) (f : Flight) (va : Nat) (k : AccessKind) (cause lane : Nat) : State :=
  match f.role with
  | .fault n => s.faultHandler f n va k cause
  | .walk => s
  | _ => s.faultTeam f va k cause lane

/-! ### Ends of waits -/

/-- The wait of one waiter ends: `cause` none to look up again, else it faults (R360, R344). -/
def State.endWait (s : State) (vd asid : Nat) (w : Waiter) (k : AccessKind) (va : Nat) (cause : Option Nat) : State :=
  match w with
  | .flight key =>
    match s.flight key with
    | none => s
    | some f =>
      match f.block with
      | .walk va' k' lane =>
        if va' = va && k' = k then
          match cause with
          | none => s.putFlight { f with block := .lookup va k lane }
          | some c => s.faultFlight { f with block := .none } va k c lane
        else s
      | _ => s
  | .copy key =>
    match s.copy key with
    | none => s
    | some c =>
      match cause, c.state with
      | none, .walking => s.putCopy { c with state := .active }
      | some n, .walking => s.faultCopy c vd asid va k n
      | _, _ => s
  | w =>
    match cause with
    | none => s
    | some _ => s.modOwner vd fun o => { o with missed := (w, va / 4096) :: o.missed }

/-- TRANSLATION_RESOLVED (08 R192): the lookup of an instruction held at issue returns. A hit lets it leave issue; an entry
that lacks the attribute is a fault; a miss is a walk request. -/
def execTranslationResolved (flight : Nat) (s : State) : Result :=
  match s.flight flight with
  | none => .next s
  | some f =>
    match f.block with
    | .lookup va k lane =>
      let asid := s.asidOf f
      let r := s.lookup f.core f.vd asid va k
      match r.2 with
      | .hit _ => .next (r.1.putFlight { f with block := .none })
      | .lacks => .next (r.1.faultFlight { f with block := .none } va k 1 lane)
      | .miss => .next ((r.1.putFlight { f with block := .walk va k lane }).miss f.vd asid va k (.flight f.key))
    | _ => .next s

/-! ### System accesses to an owner's virtual memory -/

/-- Where a page of the owner lies for a system access, or the page that misses, or a failure. -/
inductive SysLook where
  | at (pa : Nat) (uc : Bool)
  | waits
  | fails
  deriving DecidableEq, Repr

/-- Translate for admission, retirement, a host packet or a peer (14 R295, R298; 19 R400, R411): under an ASID in the
owner's L3 bank, with the attribute that `need` needs. A miss posts a walk request of KIND `post`, and a walk that ended in a
fault fails. -/
def State.sysLookAs (s : State) (vd asid va : Nat) (need post : AccessKind) (w : Waiter) : State × SysLook :=
  let va := va % vaMod
  match s.lookL3 vd asid va need with
  | .hit e => (s, .at (e.phys va) (e.uc || s.uncachedAt vd (e.phys va)))
  | .lacks => (s, .fails)
  | .miss =>
    let o := s.owner vd
    if o.missed.contains (w, va / 4096) then (s, .fails)
    else if (o.walks.any fun r => r.asid = asid && r.va = pageOf va && r.waiters.any fun x => x.1 = w)
        || (o.misses.any fun m => m.1 / 4096 = va / 4096 && m.2.1 = asid && m.2.2.2 = w) then (s, .waits)
    else (s.miss vd asid va post w, .waits)

def State.sysLook (s : State) (vd asid va : Nat) (k : AccessKind) (w : Waiter) : State × SysLook := s.sysLookAs vd asid va k k w

/-! ### The device's own accesses to memory (19 R400) -/

/-- A .SY write by the owner at a physical address. -/
def State.sysWrite (s : State) (vd : Nat) (ws : List (Nat × Byte)) : State :=
  if ws.any fun w => s.uncachedAt vd w.1 then s.memPut ws else s.cohWrite vd .llc ws

/-- Bytes that the device reads for an owner, at the LLC. -/
def State.sysBytes (s : State) (vd a n : Nat) : State × List Byte :=
  s.load vd 288 (if s.uncachedAt vd a then 4 else 2) false 0 ((List.range n).map fun i => a + i)

/-- ATOM.ADD.REL.SY of 0xFFFF_FFFF on a COUNT (14 R298, R321). -/
def State.countDown (s : State) (vd a : Nat) : State :=
  let r := s.sysBytes vd a 4
  r.1.sysWrite vd (bytesAt a (leBytes 4 (leNat r.2 + 0xFFFFFFFF)))

/-- What a waiter has been refused is forgotten when its work ends. -/
def State.forget (s : State) (vd : Nat) (w : Waiter) : State :=
  s.modOwner vd fun o => { o with missed := o.missed.filter fun m => m.1 ≠ w }

end Sys2Proof.Machine
end

