-- ==== Sys2Proof/Machine/Queue.lean ====
section
/-!
DEFINITION. Host launch queues (19 R397 to R401): doorbells, packets and completion entries.
-/

namespace Sys2Proof.Machine

def Owner.queue (o : Owner) (q : Nat) : HostQueue := o.queues.getD q HostQueue.reset
def State.putQueue (s : State) (vd q : Nat) (h : HostQueue) : State :=
  s.modOwner vd fun o => { o with queues := listSet o.queues q h }

/-- VDEVT.QERR, and EN clears (R399). -/
def State.queueError (s : State) (vd q : Nat) : State :=
  (s.putQueue vd q { (s.owner vd).queue q with en := false }).raiseEvent vd 2

/-- The entry of a packet (R400): written at the completion write index. A ring outside the balustrade takes no entry, and
sets QERR (log 15). -/
def State.completePacket (s : State) (vd q tag status : Nat) (signal : Bool) : State :=
  let h := (s.owner vd).queue q
  let n := 2 ^ h.elogn
  let a := (s.owner vd).onPort (h.cring + 16 * h.cqwrite)
  let entry := leBytes 4 tag ++ leBytes 4 status ++ leBytes 4 (if h.phase then 1 else 0) ++ leBytes 4 0
  let ok := ((s.owner vd).balustrade a 16).isSome
  let s : State := if ok then s.sysWrite vd (bytesAt a entry) else s.queueError vd q
  let h := (s.owner vd).queue q
  let s : State := s.putQueue vd q { h with
    cqwrite := (h.cqwrite + 1) % n
    phase := if h.cqwrite + 1 = n then !h.phase else h.phase
    entries := h.entries + 1
    pending := h.pending - 1 }
  if signal && ok then s.signalVector vd (1 + q) else s

/-- The bytes that a completion entry will take. -/
def State.ringBytes (s : State) (vd q : Nat) : List Nat :=
  let h := (s.owner vd).queue q
  (List.range 16).map fun i => (s.owner vd).onPort (h.cring + 16 * h.cqwrite) + i

/-- Read packets up to the doorbell while there is room for their entries, at most `fuel` (R399). -/
def State.pullPackets (s : State) (vd q : Nat) : Nat → State
  | 0 => s
  | fuel + 1 =>
    let o := s.owner vd
    let h := o.queue q
    let a := o.onPort (h.ring + 64 * h.qhead)
    let as := (List.range 64).map fun i => a + i
    if !h.en || o.state ≠ 1 || h.qhead = h.qtail || 2 ^ h.elogn ≤ h.entries + h.pending then s
    else if (o.balustrade a 64).isNone || s.poisoned as then s.queueError vd q
    else match s.devHold as (.sys (.packet q)) with
      | some s => s
      | none =>
        let r := s.sysBytes vd a 64
        let s : State := r.1.served (.sys (.packet q))
        (s.putQueue vd q { h with
          qhead := (h.qhead + 1) % 2 ^ h.elogn, packets := h.packets ++ [r.2], pending := h.pending + 1 }).pullPackets vd q fuel

def State.pull (s : State) (vd q : Nat) : State := s.pullPackets vd q 4096

/-- Every queue of an owner goes on reading. -/
def State.pullAll (s : State) (vd : Nat) : State := (List.range 8).foldl (fun s q => s.pull vd q) s

/-- A write of QTAIL (R399). -/
def State.writeQtail (s : State) (vd queue value : Nat) : State :=
  let o := s.owner vd
  let h := o.queue queue
  if !h.en || o.state ≠ 1 || 8 ≤ queue then s
  else if 2 ^ h.elogn ≤ value then s.queueError vd queue
  else (s.putQueue vd queue { h with qtail := value }).pull vd queue

/-- QTAIL_DOORBELL (R399). -/
def execQtailDoorbell (vd queue value : Nat) (s : State) : Result := .next (s.writeQtail vd queue value)

/-! ### Acting on a packet (R398, R400) -/

structure Packet where
  op     : Nat
  signal : Bool
  tag    : Nat
  addr   : Nat
  deriving DecidableEq, Repr

def packetOf (bs : List Byte) : Packet :=
  ⟨leNat (bs.take 1), ((bs.drop 1).headD 0).getLsbD 0, leNat ((bs.drop 4).take 4), leNat ((bs.drop 8).take 8)⟩

/-- The next packet of a queue of a running owner. -/
def State.packet (s : State) (vd q : Nat) : Option Packet :=
  let o := s.owner vd
  if o.state = 1 then ((o.queue q).packets.head?).map packetOf else none

/-- Act on the next packet of a queue, once the bytes of its entry are the device's. -/
def State.onPacket (s : State) (vd q : Nat) (act : Packet → State) : State :=
  match s.packet vd q with
  | none => s
  | some p =>
    match s.devHold (s.ringBytes vd q) (.sys (.packet q)) with
    | some s => s
    | none => act p

/-- The packet has been acted on. -/
def State.dropPacket (s : State) (vd q : Nat) : State :=
  let h := (s.owner vd).queue q
  (s.putQueue vd q { h with packets := h.packets.tail }).forget vd (.packet q)

/-- The packet is complete, with its entry. -/
def State.endPacket (s : State) (vd q : Nat) (p : Packet) (status : Nat) : State :=
  ((s.dropPacket vd q).completePacket vd q p.tag status p.signal).served (.sys (.packet q))

/-- A packet's address, translated under OWN.ASID; it is acted on at the physical address. -/
def State.packetAt (s : State) (vd q : Nat) (p : Packet) (align : Nat) (need : AccessKind) (act : State → Nat → State) : State :=
  if p.addr % align ≠ 0 then s.endPacket vd q p 0x23
  else if vaMod ≤ p.addr then s.endPacket vd q p 0x21
  else
    let r := s.sysLookAs vd ((s.owner vd).asid.toNat % 65536) p.addr need .record (.packet q)
    match r.2 with
    | .waits => r.1
    | .fails => r.1.endPacket vd q p 0x21
    | .at pa _ => act r.1 pa

def launchPacket (vd q : Nat) (op : Nat) (s : State) : Result :=
  .next (s.onPacket vd q fun p =>
    if p.op ≠ op then s
    else s.packetAt vd q p 64 .store fun s pa =>
      ((s.dropPacket vd q).enqueue vd q p.addr pa (op = 2) (.host q p.tag p.signal)).served (.sys (.packet q)))

/-- HOST_PACKET_LAUNCH (R400). -/
def execHostPacketLaunch (vd queue : Nat) (s : State) : Result := launchPacket vd queue 1 s

/-- HOST_PACKET_LAUNCHI (R400). -/
def execHostPacketLaunchi (vd queue : Nat) (s : State) : Result := launchPacket vd queue 2 s

/-- HOST_PACKET_SIGNAL (R400). -/
def execHostPacketSignal (vd queue : Nat) (s : State) : Result :=
  .next (s.onPacket vd queue fun p =>
    if p.op ≠ 3 then s
    else s.packetAt vd queue p 8 .atomic fun s pa =>
      match s.devHold ((List.range 4).map fun i => pa + i) (.sys (.packet queue)) with
      | some s => s
      | none => (s.countDown vd pa).endPacket vd queue p 0x10)

/-- HOST_PACKET_BAD_OP (R398). -/
def execHostPacketBadOp (vd queue : Nat) (s : State) : Result :=
  .next (s.onPacket vd queue fun p => if 1 ≤ p.op && p.op ≤ 3 then s else s.endPacket vd queue p 0x20)

/-- A write of QCTL (R397, R401). -/
def State.writeQctl (s : State) (vd queue : Nat) (value : Word) : State :=
  let h := (s.owner vd).queue queue
  let logn := bits value.toNat 3 0
  let en := value.getLsbD 8
  if 8 ≤ queue || (h.en && en) then s
  else if !en then s.putQueue vd queue { h with en := false, logn := logn }
  else if h.pending ≠ 0 then s
  else if logn < 4 || 12 < logn then (s.putQueue vd queue { h with logn := logn }).raiseEvent vd 2
  else s.putQueue vd queue { h with
    logn := logn, elogn := logn, en := true, qhead := 0, qtail := 0, cqhead := 0, cqwrite := 0, phase := true, entries := 0
    ring := h.qbase.toNat / 64 * 64, cring := h.cqbase.toNat / 16 * 16, packets := [] }

/-- QCTL_WRITE (R397, R401). -/
def execQctlWrite (vd queue : Nat) (value : BitVec 32) (s : State) : Result := .next (s.writeQctl vd queue value)

/-- A write of CQHEAD: the host has consumed entries up to it. -/
def State.writeCqhead (s : State) (vd q v : Nat) : State :=
  let h := (s.owner vd).queue q
  let n := 2 ^ h.elogn
  let used := (v % n + n - h.cqhead % n) % n
  (s.putQueue vd q { h with cqhead := v, entries := h.entries - used }).pull vd q

/-- A write of VDEVT (R397). -/
def State.writeVdevt (s : State) (vd : Nat) (value : Word) : State :=
  s.modOwner vd fun o => { o with vdevt := o.vdevt &&& ~~~(value.setWidth 4) }

/-- VDEVT_CLEAR (R397). -/
def execVdevtClear (vd : Nat) (value : BitVec 32) (s : State) : Result := .next (s.writeVdevt vd value)

end Sys2Proof.Machine
end

