-- ==== Sys2Proof/Machine/Spill.lean ====
section
/-!
DEFINITION. Spills and restores of halted teams' parts (17 R382), and placing a team with claims on them (17 R381).
-/

namespace Sys2Proof.Machine

/-! ### Spilling and restoring -/

/-- The bytes that a part takes in a context: granules take their data and the FEB bytes that hold their states. -/
def partBytes (cm : List ShapeClass) (p : SpillPart) : Nat :=
  match p with
  | .reg _ r => match cm.getD r .absent with
    | .general => 128
    | .uniform => 4
    | .affine => 8
    | .absent => 0
  | .granules a n => 16 * n + ((a + n + 3) / 4 - a / 4)
  | .array => 262144 + 1024

/-- Write one part to its place in the spill slot. -/
def State.spillPart (s : State) (t : Team) (c : CtxShape) (fr : Frame) (p : SpillPart) : State :=
  match p with
  | .reg i r =>
    match (s.teamFlights t.key).find? fun f => f.index = i with
    | some f => let q := c.regAt f r; s.frameWrite fr q.1 q.2
    | none => s
  | .granules a n =>
    let s : State := s.frameWrite fr (c.off 6 + 16 * a) (t.scratch.read (16 * a) (16 * n))
    let lo := a / 4
    s.frameWrite fr (c.off 7 + lo) (((febBytes t c.sb).drop lo).take ((a + n + 3) / 4 - lo))
  | .array =>
    let m := s.mxCore t.core
    let s : State := s.frameWrite fr (c.off 4) ((List.range 512).flatMap fun r => (m.row r).flatMap wordBytes)
    (s.frameWrite fr (c.off 5) (s.seqBytes m t.key)).modTeam t.key fun t => { t with mx := some m }

/-- Spill parts of a halted team: the sequencer stops for its array, the header is written, then each part. -/
def State.spill (s : State) (tk : Nat) (parts : List SpillPart) : State :=
  let s : State := if parts.contains .array then s.stopMatrix tk else s
  match s.team tk with
  | none => s
  | some t =>
    match s.grid t.grid, s.variantOf t with
    | some g, some v =>
      let c := g.teamShape v
      let fr := s.spillFrame t
      let s : State := (s.frameDrop fr 0 c.size).frameWrite fr 0 (headBytes (s.teamHead t g 5) c)
      let s : State := parts.foldl (fun s p => s.spillPart t c fr p) s
      let s : State := if parts.contains .array then s.putMx (MxCore.reset t.core) else s
      let s : State := (s.count t.vd 0x15 (256 + parts.foldl (fun n p => n + partBytes v.classMap p) 0)).chargeTime t.vd 0x16
      s.modTeam tk fun t => { t with
        state := if t.state = .resident then .spilt else t.state
        spills := t.spills ++ parts }
    | _, _ => s

/-- Read one part back. -/
def State.restorePart (s : State) (t : Team) (c : CtxShape) (fr : Frame) (p : SpillPart) : State :=
  let n (o k : Nat) : Nat := s.frameNat fr o k
  match p with
  | .reg i r =>
    match (s.teamFlights t.key).find? fun f => f.index = i with
    | none => s
    | some f =>
      let o := (c.regAt f r).1
      let v : RegVal := match f.cls r with
        | .uniform => .uniform (wd (n o 4))
        | .affine => .affine (wd (n o 4)) (wd (n (o + 4) 4))
        | _ => .general (Lanes.tab fun l => wd (n (o + 4 * l) 4))
      s.putFlight (f.setReg r v)
  | .granules a k =>
    s.modTeam t.key fun t =>
      let t : Team := { t with scratch := t.scratch.puts (bytesAt (16 * a) (s.frameRead fr (c.off 6 + 16 * a) (16 * k))) }
      (List.range k).foldl (fun t i =>
        let g := a + i
        t.setGran g (granOf (bits (n (c.off 7 + g / 4) 1) (2 * (g % 4) + 1) (2 * (g % 4))))) t
  | .array =>
    match t.mx with
    | none => s
    | some m => ((s.loadSeq fr c t.key).putMx { s.loadMx fr c m with core := t.core }).modTeam t.key fun t => { t with mx := none }

/-- Restore every part of a spilt team, which is then resident again. -/
def State.unspill (s : State) (tk : Nat) : State :=
  match s.team tk with
  | none => s
  | some t =>
    match s.grid t.grid, s.variantOf t with
    | some g, some v =>
      let c := g.teamShape v
      let fr := s.spillFrame t
      let s : State := s.frameDrop fr 0 c.size
      let s : State := t.spills.foldl (fun s p => s.restorePart t c fr p) s
      let s : State := (s.count t.vd 0x15 (256 + t.spills.foldl (fun n p => n + partBytes v.classMap p) 0)).chargeTime t.vd 0x16
      s.modTeam tk fun t => { t with spills := [], state := if t.state = .spilt then .resident else t.state }
    | _, _ => s

/-! ### Claims (R381) -/

/-- The halted class-0 teams of other owners on a core, in the order in which they are claimed: the owner whose next slice
comes latest, then the highest handle. -/
def State.victims (s : State) (vd core : Nat) : List Team :=
  let turn := ((s.partOf vd).turn).getD (s.owner vd).slot
  let rank (t : Team) : Nat := ((s.owner t.vd).slot + 24 - turn) % 24 * 4096 + t.handle
  (s.teams.filter fun t => t.core = core && t.vd ≠ vd && t.holds && ((s.grid t.grid).map Grid.cls) = some 0).insertionSort
    fun a b => rank b ≤ rank a

abbrev Plan := List (Nat × SpillPart)

/-- Registers of victims in a quadrant that are still there: general ones, or uniform and affine ones; each with what it
frees. -/
def State.claimable (s : State) (vs : List Team) (plan : Plan) (quad : Nat) (general : Bool) : List ((Nat × SpillPart) × Nat) :=
  vs.flatMap fun t => ((s.teamFlights t.key).filter fun f => f.quad = quad && !f.ended).flatMap fun f =>
    ((List.range 240).filter fun r => if general then f.cls r = .general else f.cls r = .uniform || f.cls r = .affine).filterMap fun r =>
      let p : Nat × SpillPart := (t.key, .reg f.index r)
      if t.spills.contains p.2 || plan.contains p then none
      else some (p, if f.cls r = .affine then 8 else if f.cls r = .uniform then 4 else 1)

/-- As many of them as free `need`. -/
def takeParts : Nat → List ((Nat × SpillPart) × Nat) → Plan × Nat
  | _, [] => ([], 0)
  | need, p :: ps =>
    if need = 0 then ([], 0)
    else
      let r := takeParts (need - p.2) ps
      (p.1 :: r.1, p.2 + r.2)

def gains (ps : List ((Nat × SpillPart) × Nat)) : Nat := ps.foldl (fun n p => n + p.2) 0

/-- A quadrant for a flight, with claims on it if no quadrant is free (log 16: the one with the most rows in all). -/
def State.claimFlight (s : State) (vs : List Team) (core : Nat) (v : Variant) (r : Room) (plan : Plan) : Option (Nat × Room × Plan) :=
  match r.quadFor v with
  | some q => some (q, r.flight v q, plan)
  | none =>
    let b := scalarBytes v.classMap
    let rows (q : Nat) : Nat := r.rows.getD q 0 + gains (s.claimable vs plan (4 * core + q) true)
    let bytes (q : Nat) : Nat := r.bytes.getD q 0 + gains (s.claimable vs plan (4 * core + q) false)
    match (List.range 4).filter fun q => 1 ≤ r.slots.getD q 0 && v.rows ≤ rows q && b ≤ bytes q with
    | [] => none
    | q :: qs =>
      let q := qs.foldl (fun best q => if rows best < rows q then q else best) q
      let p1 := takeParts (v.rows - r.rows.getD q 0) (s.claimable vs plan (4 * core + q) true)
      let p2 := takeParts (b - r.bytes.getD q 0) (s.claimable vs plan (4 * core + q) false)
      let r : Room := { r with rows := raise r.rows q p1.2, bytes := raise r.bytes q p2.2 }
      some (q, r.flight v q, plan ++ p1.1 ++ p2.1)

def State.claimFlights (s : State) (vs : List Team) (core : Nat) (v : Variant) : Nat → Room → Plan → Option (List Nat × Room × Plan)
  | 0, r, plan => some ([], r, plan)
  | n + 1, r, plan =>
    match s.claimFlight vs core v r plan with
    | none => none
    | some (q, r, plan) => (s.claimFlights vs core v n r plan).map fun x => (q :: x.1, x.2)

/-- Bytes of a team's allocation. -/
def State.scratchOf (s : State) (t : Team) : Nat := ((s.variantOf t).map Variant.scratch).getD 0

/-- The lowest base of a range, claiming the granules of as few victims as can be, in their order. -/
def State.claimScratch (s : State) (vs : List Team) (r : Room) (n : Nat) : Option (Nat × Plan) :=
  (List.range (vs.length + 1)).findSome? fun k =>
    let ws := vs.take k
    let theirs := ws.flatMap fun t => t.ranges (s.scratchOf t)
    let starts : Room := { r with scratch := r.scratch.filter fun x => !theirs.contains x }
    (starts.rangeFor n).map fun b =>
      (b, ws.flatMap fun t =>
        ((List.range (s.scratchOf t / 16)).filter fun g =>
          !t.spiltGranule g && b < t.base + 16 * g + 16 && t.base + 16 * g < b + n).map fun g => (t.key, SpillPart.granules g 1))

/-- A team placed with claims. -/
def State.claimTeam (s : State) (vs : List Team) (core : Nat) (v : Variant) (n : Nat) (r : Room) (plan : Plan) :
    Option (Place × Room × Plan) :=
  let r := r.withImage v.bodies
  let holder := vs.find? fun t => (s.mxCore core).team = some t.key && !t.spills.contains .array
  if Config.macroSlots < r.macroSlots || (v.isMatrix && r.array && holder.isNone) then none
  else
    match s.claimScratch vs r v.scratch, s.claimFlights vs core v n r plan with
    | some (b, p1), some (qs, r, p2) =>
      let p3 : Plan := match holder with
        | some t => if v.isMatrix && r.array then [(t.key, .array)] else []
        | none => []
      some (⟨qs, b⟩, { r with scratch := if v.scratch = 0 then r.scratch else (b, v.scratch) :: r.scratch, array := r.array || v.isMatrix },
        p2 ++ p1 ++ p3)
    | _, _ => none

/-- Teams placed with claims, one for each variant listed. -/
def State.claimTeams (s : State) (vs : List Team) (core n : Nat) : List Variant → Room → Plan → Option (List Place × Plan)
  | [], _, plan => some ([], plan)
  | v :: ws, r, plan =>
    match s.claimTeam vs core v n r plan with
    | none => none
    | some (p, r, plan) => (s.claimTeams vs core n ws r plan).map fun x => (p :: x.1, x.2)

/-- Adjacent granules of one team as one part. -/
def joinParts : List SpillPart → List SpillPart
  | [] => []
  | p :: ps =>
    match p, joinParts ps with
    | .granules a n, .granules b m :: qs => if a + n = b then .granules a (n + m) :: qs else p :: .granules b m :: qs
    | p, qs => p :: qs

/-- Spill what a plan claims, team by team. -/
def State.carryOut (s : State) (plan : Plan) : State :=
  ((plan.map Prod.fst).dedup).foldl (fun s k =>
    s.spill k (joinParts ((plan.filter fun p => p.1 = k).map Prod.snd).dedup)) s

/-- Teams placed in what is free, one for each variant listed. -/
def Room.placeList (n : Nat) : List Variant → Room → Option (List Place)
  | [], _ => some []
  | v :: ws, r =>
    match r.place v n with
    | none => none
    | some (p, r) => (Room.placeList n ws r).map fun q => p :: q

/-- Where teams of the grid, one for each variant listed, fit together on a core: in what is free, or with claims; those of a
class-1 grid on its reservation alone (14 R301, R307). A team whose context exceeds SPILLSTRIDE is not placed (R382). -/
def State.fitOn (s : State) (core : Nat) (g : Grid) (ws : List Variant) (claims : Bool) : Option (List Place × Plan) :=
  if ws.any fun v => (s.owner g.vd).spillStride.toNat < (g.teamShape v).size then none
  else if g.cls = 1 then
    let ps := (s.freeSeats g core).take ws.length
    if claims || ps.length < ws.length || (ws.any fun v => g.vstar ≠ some v.num) then none
    else some (ps.map fun p => ⟨p.quads, p.base⟩, [])
  else if claims then s.claimTeams (s.victims g.vd core) core g.flights ws (s.roomOn core) []
  else (Room.placeList g.flights ws (s.roomOn core)).map fun x => (x, [])

end Sys2Proof.Machine
end

