-- ==== Sys2Proof/Machine/Admit.lean ====
section
/-!
DEFINITION. Admission (14 R293 to R296, R299 to R305, R309): reading a record and all it names, the checks in their order, and
the bound of a class-1 grid.
-/

namespace Sys2Proof.Machine

/-! ### Reading for the device -/

/-- What ends a piece of the device's own work early: a walk to wait for, a transfer that holds it, a refusal's code, or a
stall. -/
inductive SysStop where
  | waits
  | refuse (code extra bound : Nat)
  | stall (reason addr : Nat)
  deriving DecidableEq, Repr

/-- The state while the device reads: walks may be posted, and the accesses made are kept, to be accounted at the end. -/
structure SysSt where
  s     : State
  reads : List Nat
  deriving DecidableEq, Repr

abbrev SysM (α : Type) := ExceptT SysStop (StateM SysSt) α

/-- Whose work it is: the owner, the ASID, and the waiter of its walks. -/
structure SysWho where
  vd   : Nat
  asid : Nat
  who  : Waiter
  deriving DecidableEq, Repr

/-- A page's physical address, for an access of a KIND. -/
def SysWho.page (w : SysWho) (k : AccessKind) (va : Nat) : SysM (Nat × Bool) := do
  let st ← get
  let r := st.s.sysLook w.vd w.asid va k w.who
  set { st with s := r.1 }
  match r.2 with
  | .at pa uc => pure (pa, uc)
  | .waits => throw .waits
  | .fails => throw (.refuse 8 0 0)

/-- Physical bytes; an entry that the host owns is transferred first. -/
def SysWho.phys (w : SysWho) (as : List (Nat × Bool)) : SysM (List Byte) := do
  let st ← get
  match st.s.devHold (as.map Prod.fst) (.sys w.who) with
  | some s =>
    set { st with s := s }
    throw .waits
  | none =>
    set { st with reads := st.reads ++ (as.filter fun (a : Nat × Bool) => !a.2).map Prod.fst }
    pure (as.map fun (a : Nat × Bool) => st.s.readByte (if a.2 then 4 else 2) a.1)

/-- Wait until bytes that will be written are the device's. -/
def SysWho.hold (w : SysWho) (as : List Nat) : SysM Unit := do
  let st ← get
  match st.s.devHold as (.sys w.who) with
  | some s =>
    set { st with s := s }
    throw .waits
  | none => pure ()

/-- Bytes of the owner's virtual memory, read as a record or descriptor (KIND 8). -/
def SysWho.read (w : SysWho) (va n : Nat) : SysM (List Byte) := do
  let first := va / 4096
  let pages ← (List.range ((va % 4096 + n + 4095) / 4096)).mapM fun i => w.page .record (4096 * (first + i))
  w.phys ((List.range n).map fun i =>
    let o := va % 4096 + i
    let p := pages.getD (o / 4096) (0, false)
    (p.1 + o % 4096, p.2))

/-- Run the work: its result, and the state with its reads accounted. Work that waits has read nothing yet. -/
def SysWho.run {α : Type} (w : SysWho) (m : SysM α) (s : State) : State × Except SysStop α :=
  let r : Except SysStop α × SysSt := m ⟨s, []⟩
  match r.1 with
  | .error .waits => (r.2.s, r.1)
  | _ => ((((r.2.s.load w.vd 288 2 false 0 r.2.reads).1.served (.sys w.who)).forget w.vd w.who), r.1)

/-- A little-endian field of bytes read. -/
def fieldAt (bs : List Byte) (o n : Nat) : Nat := leNat ((bs.drop o).take n)

def refuseIf (c : Bool) (code : Nat) : SysM Unit := if c then throw (.refuse code 0 0) else pure ()

/-! ### Kernel and variant descriptors (R303 to R305; 02 R73) -/

/-- The macro bodies of an image, by MUSED and MLEN. -/
def SysWho.bodies (w : SysWho) (macros mused mlen : Nat) : SysM (List (Nat × List DWord)) :=
  ((List.range 64).filter fun n => mused.testBit n).mapM fun n => do
    let img ← w.read (macros + 256 * n) 256
    pure (n, (List.range (mlen / 2 ^ (5 * n) % 32 + 1)).map fun i => dw (fieldAt img (8 * i) 8))

def landKeyOf (b : List Byte) : LandKey := ⟨fieldAt b 0 2, fieldAt b 2 1, fieldAt b 3 1, fieldAt b 4 4, fieldAt b 8 4⟩

/-- A landing table's entries. -/
def SysWho.landings (w : SysWho) (d : List Byte) : SysM (List Landing) :=
  let tab := fieldAt d 0x40 8
  (List.range (min 2049 (fieldAt d 0x48 2))).mapM fun j => do
    let e ← w.read (tab + 16 * j) 16
    let n := min 513 (fieldAt e 2 2)
    let ks ← w.read (tab + fieldAt e 4 4) (16 * n)
    pure ⟨fieldAt e 0 2, dw (fieldAt e 8 8), (List.range n).map fun k => landKeyOf (ks.drop (16 * k))⟩

def ascending : List Nat → Bool
  | a :: b :: r => a < b && ascending (b :: r)
  | _ => true

/-- The limits of R73, R304 and R305. -/
def Variant.ok (v : Variant) : Bool :=
  v.rows = (classRegs v.classMap .general).length && 1 ≤ v.flights && v.flights ≤ 16 && v.scratch % 16 = 0 && v.scratch ≤ 524288
    && v.landings.length ≤ 2048 && ascending (v.landings.map Landing.id)
    && v.landings.all fun l => l.id < 2048 && l.keys.length ≤ 512
      && l.keys.all fun k => k.loc ≤ 2 && k.soff % 16 = 0 && k.slen % 16 = 0

/-- One variant as its descriptor gives it. -/
def SysWho.variant (w : SysWho) (kernel v : Nat) : SysM Variant := do
  let d ← w.read (kernel + 0x40 + 0x80 * v) 128
  let map ← w.read (fieldAt d 8 8) 60
  let bodies ← w.bodies (fieldAt d 0x30 8) (fieldAt d 0x38 8) (fieldAt d 0x50 40)
  let lands ← w.landings d
  pure
    { num := v, code := dw (fieldAt d 0 8), classMap := classesOf map, rows := fieldAt d 0x10 2, flights := fieldAt d 0x12 1,
      isMatrix := fieldAt d 0x13 1 ≠ 0, scratch := fieldAt d 0x14 4, wcet := fieldAt d 0x18 8,
      waitTab := (List.range 8).map fun k => BitVec.ofNat 12 (fieldAt d (0x20 + 2 * k) 2), macros := fieldAt d 0x30 8, mused := fieldAt d 0x38 8,
      mlen := fieldAt d 0x50 40, bodies := bodies, landings := lands }

/-- Richer variants stand first (R73). -/
def richFirst : List Variant → Bool
  | a :: b :: r => b.rows ≤ a.rows && b.scratch ≤ a.scratch && richFirst (b :: r)
  | _ => true

/-- The variants of a kernel; none where the descriptor is malformed. -/
def SysWho.kernel (w : SysWho) (va : Nat) : SysM (Option (List Variant)) := do
  let h ← w.read va 64
  let n := fieldAt h 2 1
  if fieldAt h 0 2 ≠ 0x534B || n = 0 || 4 < n then pure none
  else do
    let vs ← (List.range n).mapM fun v => w.variant va v
    pure (if vs.all Variant.ok && richFirst vs then some vs else none)

/-- The images of a grid's variants as memory holds them at a placement (03 R92). -/
def SysWho.images (w : SysWho) (vs : List Variant) : SysM (List Variant) :=
  vs.mapM fun v => do
    let bs ← w.bodies v.macros v.mused v.mlen
    pure { v with bodies := bs }

/-- The variants that a launch allows: VARMASK and .flights (R295). -/
def Grid.allow (g : Grid) (vs : List Variant) : List Variant :=
  vs.filter fun v => g.varmask.testBit v.num && g.flights ≤ v.flights

/-! ### The record (R293, R294) -/

/-- A byte of the record: its first page, or the one after it. -/
def Grid.recAddr (g : Grid) (o : Nat) : Option Nat :=
  if g.va.toNat % 4096 + o < 4096 then some (g.pa + o) else g.pa2.map fun p => p + (g.va.toNat % 4096 + o - 4096)

/-- Write a field of the record at .SY (R295); what lies on a page that is not mapped is not written. -/
def State.recWrite (s : State) (g : Grid) (o : Nat) (bs : List Byte) : State :=
  s.sysWrite g.vd ((List.range bs.length).filterMap fun i => (g.recAddr (o + i)).map fun a => (a, bs.getD i 0))

def levelEntry (b : List Byte) (n : Nat) : Nat := fieldAt b (0x10 + 4 * (n - 1)) 4

/-- Levels 1 upward; COUNTMAX stands for a LAUNCHI's top extent (R320). -/
def levelsOf (b : List Byte) (isI : Bool) : List (Nat × Nat) :=
  let l := fieldAt b 8 1
  (List.range (min 8 l - 1)).map fun i =>
    let e := levelEntry b (i + 1)
    (bits e 26 24, if isI && i + 2 = l then fieldAt b 0x2C 4 else bits e 23 0)

/-- Teams: the product of the extents above the team level. -/
def Grid.teamCount (g : Grid) : Nat := (g.levels.drop g.teamTop).foldl (fun p l => p * l.2) 1

/-- The grid of a record, before its checks. -/
def gridOf (q : Queued) (vd : Nat) (pa2 : Option Nat) (b : List Byte) : Grid :=
  let g : Grid :=
    { key := q.key, vd := vd, queue := q.queue, va := q.va, pa := q.pa, pa2 := pa2, isI := q.isI, source := q.source,
      kernel := dw (fieldAt b 0 8), state := .admitted, levels := levelsOf b q.isI, producer := fieldAt b 0x0A 1, cls := fieldAt b 0x0B 1,
      varmask := fieldAt b 9 1 % 16, variants := [], buftab := dw (fieldAt b 0x30 8), asid := 0, edgesIn := [], edgesOut := [],
      countVa := dw (fieldAt b 0x60 8), countMax := fieldAt b 0x2C 4, swap := [], frameSz := 0, teams := 0, next := 0, bound := 0,
      accepted := 0, started := 0, vstar := none, reserved := [], overrun := false, clamped := false, sigfail := false }
  { g with teams := g.teamCount }

/-- The level entries obey R294, their domains rising (R16); COUNTMAX stands for a LAUNCHI's top extent (R320). -/
def entriesOk (b : List Byte) (levels : Nat) (isI : Bool) : Bool :=
  ((List.range levels).drop 1).all fun n =>
    let e := levelEntry b n
    let dom := bits e 26 24
    let ext := if isI && n + 1 = levels then fieldAt b 0x2C 4 else bits e 23 0
    bits e 31 27 = 0 && dom ≤ 4 && 1 ≤ ext && ext < 2 ^ 24 && (dom ≠ 0 || ext = 1)
      && (n = 1 || bits (levelEntry b (n - 1)) 26 24 ≤ dom)

/-- REFUSED_SHAPE, but for R309. -/
def Grid.shapeOk (g : Grid) (b : List Byte) : Bool :=
  let l := fieldAt b 8 1
  1 ≤ l && l ≤ 8 && g.cls ≤ 1 && entriesOk b l g.isI && (!g.isI || g.teamTop < l - 1) && 1 ≤ g.flights && g.flights ≤ 16
    && g.teams ≤ 2 ^ 32 - 1

/-- A unit of several teams that is placed whole fits on one core in some allowed variant, and no matrix variant is allowed
(R309). -/
def Grid.groupFits (g : Grid) (vs : List Variant) : Bool :=
  g.group * g.flights ≤ 64 && ((g.allow vs).all fun v => !v.isMatrix)
    && (g.allow vs).any fun v => (Room.placeAll v g.flights g.group Room.empty).isSome

/-! ### Edges (R296) -/

def edgeOf (e : List Byte) : Edge :=
  ⟨dw (fieldAt e 0 8), (List.range (fieldAt e 8 1)).map fun j => (fieldAt e (16 + 16 * j) 8, fieldAt e (24 + 16 * j) 8), false⟩

/-- The edge table's entries; REFUSED_EDGE where one breaks R296. -/
def SysWho.edges (w : SysWho) (tab n : Nat) : SysM (List Edge) :=
  (List.range n).mapM fun i => do
    let e ← w.read (tab + 80 * i) 80
    refuseIf (fieldAt e 0 8 % 8 ≠ 0 || 4 < fieldAt e 8 1) 7
    pure (edgeOf e)

/-! ### Swap area (R307) -/

/-- FRAMESZ: the largest context of the allowed variants, in whole pages. -/
def Grid.frameSize (g : Grid) : Nat := g.variants.foldl (fun n v => max n (((g.teamShape v).size + 4095) / 4096 * 4096)) 0

def Grid.aboveCore (g : Grid) : Bool := g.levels.any fun l => 2 ≤ l.1

/-- The physical pages of the swap area, each inside the balustrade. -/
def SysWho.swapPages (w : SysWho) (swap size : Nat) : SysM (List Nat) :=
  (List.range ((size + 4095) / 4096)).mapM fun i => do
    let p ← w.page .store (swap + 4096 * i)
    let st ← get
    if ((st.s.owner w.vd).balustrade p.1 4096).isNone then throw (.stall 2 p.1) else pure p.1

/-! ### Bounds of class 1 (R300, R301) -/

/-- Places on the partition's team cores that are free at the moment, unit by unit, for at most `most` teams: the cores in
ascending order (log 18). -/
def State.reserve (s : State) (g : Grid) (v : Variant) (most : Nat) : List Seat :=
  let m := max 1 g.group
  (s.partOf g.vd).teamCores.foldl (fun (ps : List Seat) core =>
    ps ++ (Room.units v g.flights m (min 64 ((most - ps.length + m - 1) / m)) (s.roomOn core)).map fun p => ⟨core, p.quads, p.base⟩) []

/-- L: the slices of every owner of the partition. -/
def State.round (s : State) (vd : Nat) : Nat := (s.ownersOf (s.owner vd).part).foldl (fun n o => n + o.slice) 0

/-- What is left of the bounds of the owner's accepted class-1 grids. -/
def State.bounds (s : State) (vd : Nat) : Nat :=
  (s.grids.filter fun x => x.vd = vd && x.cls = 1 && x.state ≠ .retired).foldl (fun n x =>
    n + (if x.state = .dispatched then x.bound - (s.now vd - max x.accepted x.started) else x.bound)) 0

def ceilDiv (a b : Nat) : Nat := (a + b - 1) / b

/-- The bound of a variant; none where it has no team that fits, or no worst case. -/
def State.boundOf (s : State) (g : Grid) (v : Variant) : Option Nat :=
  let sl := (s.owner g.vd).slice
  let S := min g.teams (s.reserve g v g.teams).length
  if v.wcet = 0 || S = 0 || sl ≤ 1050 then none
  else some (s.bounds g.vd + ceilDiv (ceilDiv g.teams S * v.wcet) (sl - 1050) * s.round g.vd)

/-- The richest variant that meets the deadline, with its bound, or REFUSED_TIME. -/
def State.timeTest (s : State) (g : Grid) (deadline : Nat) : Except SysStop (Variant × Nat) :=
  let bs := g.variants.filterMap fun v => (s.boundOf g v).map fun b => (v, b)
  match bs.find? fun p => p.2 ≤ deadline * 350 with
  | some p => .ok p
  | none =>
    let least := (bs.map Prod.snd).min?
    .error (.refuse 2 (match least with
      | some b => min (b / 65536) 0xFFFFFF
      | none => 0xFFFFFF) (least.getD 0))

/-! ### Admission -/

/-- The checks of R295 in their order, to the grid that is accepted. -/
def SysWho.accepts (w : SysWho) (g : Grid) (b : List Byte) : SysM Grid := do
  refuseIf (!g.shapeOk b) 3
  if 1 < g.group then do
    let vs ← w.kernel (fieldAt b 0 8)
    refuseIf (match vs with
      | some vs => !g.groupFits vs
      | none => g.group * g.flights > 64) 3
  let nin := fieldAt b 0x0C 1
  let nout := fieldAt b 0x0D 1
  let tab := fieldAt b 0x58 8
  refuseIf (8 < nin || 8 < nout || (nin + nout ≠ 0 && tab % 8 ≠ 0)) 7
  let es ← w.edges tab (nin + nout)
  let vs ← w.kernel (fieldAt b 0 8)
  let g : Grid := { g with variants := g.allow (vs.getD []), edgesIn := es.take nin, edgesOut := es.drop nin }
  let st ← get
  let some_core := (st.s.partOf w.vd).teamCores ≠ []
  refuseIf (vs.isNone || g.variants = [] || g.flights ≤ g.producer || !some_core
    || g.variants.all fun v => (Room.placeAll v g.flights (max 1 g.group) Room.empty).isNone) 5
  let swap := fieldAt b 0x40 8
  let size := fieldAt b 0x48 8
  let g : Grid := { g with frameSz := g.frameSize }
  refuseIf (g.aboveCore && (swap = 0 || swap % 4096 ≠ 0 || size < g.teams * g.frameSz)) 4
  let pages ← if swap = 0 then pure [] else w.swapPages swap size
  let g : Grid := { g with swap := pages }
  let st ← get
  refuseIf (64 ≤ (st.s.grids.filter fun x => x.vd = w.vd && x.queue = g.queue && x.state ≠ .retired).length) 6
  if g.cls = 1 then
    match st.s.timeTest g (fieldAt b 0x50 8) with
    | .error e => throw e
    | .ok (v, n) =>
      let r := st.s.reserve g v g.teams
      pure { g with vstar := some v.num, bound := n, reserved := r }
  else pure g

/-- The record's second page, if it has one, as a page that the device writes. -/
def SysWho.second (w : SysWho) (va : Nat) : SysM (Option Nat) :=
  if va % 4096 + 256 ≤ 4096 then pure none
  else do
    let p ← w.page .store (va + 256)
    pure (some (p.1 / 4096 * 4096))

/-- Read and check a record. A record whose second page is not mapped is refused with what can be written of it. -/
def SysWho.record (w : SysWho) (q : Queued) : SysM Grid := do
  let pa2 ← w.second q.va.toNat
  let st ← get
  let g0 := gridOf q w.vd pa2 []
  let as := (List.range 256).map fun i => (g0.recAddr i).getD 0
  let b ← w.phys (as.map fun a => (a, st.s.uncachedAt w.vd a))
  w.accepts (gridOf q w.vd pa2 b) b

/-- A record has been judged: BOUND, ACCEPTED and STATUS are written, and its LAUNCH completes (R295, R320). -/
def State.judged (s : State) (g : Grid) (status bound : Nat) : State :=
  let s : State := s.modOwner g.vd fun o => { o with launchQ := o.launchQ.filter fun x => x.key ≠ g.key }
  let s : State := s.recWrite g 0x70 (leBytes 8 bound ++ leBytes 8 (s.now g.vd))
  let s : State := s.recWrite g 0x68 (leBytes 4 status)
  match s.sysOps.find? fun o => o.kind = .launch g.key with
  | some o => ({ s with sysOps := s.sysOps.filter fun x => x.key ≠ o.key } : State).complete o.flight o.flag Fl.none
  | none => s

/-- The host's entry for a grid (19 R400). -/
def State.hostEntry (s : State) (g : Grid) (status : Nat) : State :=
  match g.source with
  | .host q tag sig => s.completePacket g.vd q tag status sig
  | .flight => s

/-- The second page as a completed walk has left it, for a refused record. -/
def State.secondPage (s : State) (vd asid va : Nat) : Option Nat :=
  if va % 4096 + 256 ≤ 4096 then none
  else match s.lookL3 vd asid ((va + 256) % vaMod) .store with
    | .hit e => some (e.phys ((va + 256) % vaMod) / 4096 * 4096)
    | _ => none

/-- ADMISSION (R295, R299): the oldest record of a queue of a running owner. -/
def execAdmission (vd queue : Nat) (s : State) : Result :=
  let o := s.owner vd
  match o.launchQ.find? fun x => x.queue = queue with
  | none => .next s
  | some q =>
    if o.state ≠ 1 then .next s
    else
      let w : SysWho := ⟨vd, o.asid.toNat % 65536, .admission queue⟩
      let ring := match q.source with
        | .host h _ _ => s.ringBytes vd h
        | .flight => []
      let r := w.run (do
        w.hold ring
        w.record q) s
      let s := r.1
      let g0 := gridOf q vd (s.secondPage vd w.asid q.va.toNat) []
      match r.2 with
      | .error .waits => .next s
      | .error (.stall reason addr) => .next (s.stallOwner vd reason 0 0xFF 0 0 addr)
      | .error (.refuse code extra bound) =>
        let status := code + 256 * extra
        .next ((s.judged g0 status bound).hostEntry g0 status)
      | .ok g =>
        let g : Grid := { g with accepted := s.now vd }
        .next ({ s.judged g 1 g.bound with grids := (s.judged g 1 g.bound).grids ++ [g] })

end Sys2Proof.Machine
end

