-- ==== Sys2Proof/Machine/Control.lean ====
section
/-!
DEFINITION. Control instructions (03 R100 to R107): branches, linked transfers, the execution mask, macro calls, TRAP,
YIELD, WAITF, EXIT and GETSR. The barriers are in Ordering.lean.
-/

namespace Sys2Proof.Machine

/-! ### Transfers (R101, R102) -/

/-- The target of a relative branch: halfwords from the instruction's own address (02 R34). -/
def Ctx.target (c : Ctx) : DWord := c.f.pc + 2 * c.x.imm24.signExtend 64

/-- Where a branch leads. -/
def Ctx.branch (c : Ctx) (take : Bool) : Next := if take then .goto c.target else .seq

def opNop (v : View) (s : State) : Result := ctlOp v s fun c => .ok (c.s, .seq)

def opBra (v : View) (s : State) : Result := ctlOp v s fun c => .ok (c.s, c.branch true)

def opBrez (v : View) (s : State) : Result := ctlOp v s fun c => .ok (c.s, c.branch (c.f.em = 0))

/-- BRP: the predicate in d[2:0], the mode in d[4:3]. -/
def opBrp (v : View) (s : State) : Result := ctlOp v s fun c =>
  let m := c.predOf 1 (c.x.d.toNat % 8) &&& c.f.em
  .ok (c.s, c.branch (match c.x.d.toNat / 8 % 4 with
    | 0 => m ≠ 0
    | 1 => m = c.f.em
    | 2 => m = 0
    | _ => m ≠ c.f.em))

/-- A pair of uniform registers, as JMP, CALL and RET demand (R102). -/
def Flight.uniformPair (f : Flight) (r : Nat) : Bool := f.cls r = .uniform && f.cls (r + 1) = .uniform

/-- JMP and RET: VZ, a pair that is not uniform, and a target that is odd or above bit 56 trap. -/
def jump (c : Ctx) : Chk (State × Next) :=
  let r := c.x.a.toNat
  if !(r < 240 && c.f.uniformPair r) then illegalOperand
  else
    let t := c.pairAt 1 c.x.a 0
    if t.getLsbD 0 || t >>> 57 ≠ 0 then illegalOperand else .ok (c.s, .goto t)

def opJmp (v : View) (s : State) : Result := ctlOp v s jump
def opRet (v : View) (s : State) : Result := ctlOp v s jump

/-- The lanes that a whole-flight write reaches: all 32, in a collapsed flight too (R90, R102, R103; log 28). -/
def wholeMask : Word := 0xFFFFFFFF

/-- CALL: the return address to the pair, latency 4, unless d is VZ. -/
def opCall (v : View) (s : State) : Result := ctlOp v s fun c =>
  let r := c.x.d.toNat
  if r = 248 then .ok (c.s, .goto c.target)
  else if !c.f.uniformPair r then illegalOperand
  else
    let link := c.f.pc + dw c.len
    match c.putDst (c.now + 4) wholeMask (Lanes.tab fun _ => loWord link) (some (Lanes.tab fun _ => hiWord link)) with
    | .error e => .error e
    | .ok puts => .ok (c.s.putFlight { c.f with pend := c.f.pend ++ [⟨c.now + 4, puts, [], none, 0⟩] }, .goto c.target)

/-! ### The execution mask (R103) -/

def outEmget (c : Ctx) : Chk FixedOut :=
  .ok ⟨Lanes.tab fun _ => c.f.em, none, wholeMask, Fl.none⟩
def opEmget (v : View) (s : State) : Result := fixedOp 4 v s outEmget

/-- EM changes at issue (R81). -/
def Ctx.withEM (c : Ctx) (em : Word) : State := c.s.putFlight (c.f.setEM em)

def opEmset (v : View) (s : State) : Result := ctlOp v s fun c => .ok (c.withEM (c.srcA.at 0), .seq)
def opEmand (v : View) (s : State) : Result := ctlOp v s fun c =>
  .ok (c.withEM (c.f.em &&& c.predOf 1 c.x.a.toNat), .seq)
def opEmandn (v : View) (s : State) : Result := ctlOp v s fun c =>
  .ok (c.withEM (c.f.em &&& ~~~(c.predOf 1 c.x.a.toNat)), .seq)

/-! ### Macro calls and TRAP (R93, R99, R104) -/

/-- MCALL: the body's first step is the flight's next instruction. -/
def opMcall (v : View) (s : State) : Result := ctlOp v s fun c =>
  let n := c.x.a.toNat
  if c.owner then illegalOperand
  else match c.s.body c.f n with
    | some (_ :: _) => .ok (c.s, .body n)
    | _ => illegalOperand

def opTrap (v : View) (s : State) : Result := ctlOp v s fun c => .error (.software c.x.c.toNat)

/-! ### Scheduling (R105, R106) -/

/-- YIELD: the youngest in placement order, and not eligible for 8 cycles unless another flight issues. -/
def opYield (v : View) (s : State) : Result := issue v s fun c =>
  let s : State := c.finish c.s .seq none
  .ok ((s.modFlight c.f.key fun f => { f with yielding := some (c.now + 8) }).makeYoungest c.f)

/-- What WAITF waits for: every flag zero, every variable-latency operation complete. -/
def State.drained (s : State) (f : Flight) : Bool := f.flags.all (· = 0) && s.quiet f.key

def opWaitf (v : View) (s : State) : Result := ctlOp v s fun c =>
  if c.s.drained c.f then .ok (c.s, .seq) else .error (.block .flags)

/-- The conditions of EXIT: those of WAITF, and no gathered store that a pin holds (12 R280). -/
def State.exitReady (s : State) (f : Flight) : Bool := s.drained f && !s.wcStuck f.key

/-- EXIT: the drain, then the flight's end; the write-combining buffer drains first (08 R191). -/
def opExit (v : View) (s : State) : Result := ctlOp v s fun c =>
  if c.f.role.isService then illegalOperand
  else if !c.s.exitReady c.f then .error (.block .exit)
  else .ok (((c.s.drainWc c.f.key).modFlight c.f.key (fun f => { f with ended := true })).afterEnd c.f, .stay)

/-! ### GETSR (R107; 02 R62) -/

/-- The index at a level, in one lane. -/
def Ctx.levelId (c : Ctx) (n l : Nat) : Nat :=
  if n = 0 then l
  else match c.team.bind fun t => (c.s.grid t.grid).map fun g => g.lvlId t.index c.f.index n with
    | some i => if c.f.role.isService then 0 else i
    | none => 0

/-- The extent of a level; a service flight has no levels above its lanes (15 R331). -/
def Ctx.levelExt (c : Ctx) (n : Nat) : Nat :=
  if n = 0 then 32
  else match c.team.bind fun t => c.s.grid t.grid with
    | some g => if c.f.role.isService then 1 else g.ext n
    | none => 1

/-- FSTAT as a GETSR sees it: the bits that have landed, and those of a result on its way or not, the same way each time until
it lands, so that no bit is ever seen to clear (05 R148; log 9). -/
def Ctx.fstatSeen (c : Ctx) : BitVec 6 :=
  let v := c.f.pend.foldl (fun v p =>
    if p.fstat = 0 then v
    else if p.due ≤ c.now + (Config.freeWord p.due (2 ^ 24 + c.f.key)).toNat % 8 then v ||| p.fstat else v) c.f.fstat
  c.f.early.foldl (fun v e => if e.fstat ≠ 0 && Config.freeBit e.key (2 ^ 24) then v ||| e.fstat else v) v

/-- A special value in one lane. -/
def Ctx.special (c : Ctx) (sel n l : Nat) : Nat :=
  match sel with
  | 0x00 => l
  | 0x01 => c.f.index
  | 0x02 => c.levelId n l
  | 0x03 => c.levelExt n
  | 0x04 => c.f.core
  | 0x05 => hallOfCore c.f.core
  | 0x06 => galleryOfCore c.f.core
  | 0x07 => (c.s.owner c.f.vd).part
  | 0x08 => c.f.vd
  | 0x09 => (c.team.map Team.variant).getD 0
  | 0x0A => c.now
  | 0x0B => c.f.em.toNat
  | _ => c.fstatSeen.toNat

def outGetsr (c : Ctx) : Chk FixedOut :=
  let sel := c.x.a.toNat
  let n := c.x.c.toNat
  let val (l : Nat) : DWord := dw (c.special sel n l)
  .ok ⟨Lanes.tab fun l => loWord (val l), if sel = 0x0A then some (Lanes.tab fun l => hiWord (val l)) else none, c.f.em,
    Fl.none⟩
def opGetsr (v : View) (s : State) : Result := fixedOp 4 v s outGetsr

/-! ### The constructors -/

/-- NOP (R105). -/
def execNop (x : XF) (s : State) : Result := opNop (viewX 0x000 x) s

/-- NOP_W32 (R105), as its X64 form with the cell's fixed modifiers (02 R63). -/
def execNopW32 (w : WF) (s : State) : Result := opNop (viewW 0x000 .bare 0x00 w) s

/-- BRA (R101). -/
def execBra (x : XF) (s : State) : Result := opBra (viewX 0x001 x) s

/-- BRA_W32 (R101), as its X64 form with the cell's fixed modifiers (02 R63). -/
def execBraW32 (w : WF) (s : State) : Result := opBra (viewW 0x001 .off18 0x00 w) s

/-- BRP (R101). -/
def execBrp (x : XF) (s : State) : Result := opBrp (viewX 0x002 x) s

/-- BRP_ANY_W32 (R101), as its X64 form with the cell's fixed modifiers (02 R63). -/
def execBrpAnyW32 (w : WF) (s : State) : Result := opBrp (viewW 0x002 (.off12 0) 0x00 w) s

/-- BRP_NONE_W32 (R101), as its X64 form with the cell's fixed modifiers (02 R63). -/
def execBrpNoneW32 (w : WF) (s : State) : Result := opBrp (viewW 0x002 (.off12 2) 0x00 w) s

/-- BREZ (R101). -/
def execBrez (x : XF) (s : State) : Result := opBrez (viewX 0x003 x) s

/-- BREZ_W32 (R101), as its X64 form with the cell's fixed modifiers (02 R63). -/
def execBrezW32 (w : WF) (s : State) : Result := opBrez (viewW 0x003 .off18 0x00 w) s

/-- JMP (R102). -/
def execJmp (x : XF) (s : State) : Result := opJmp (viewX 0x004 x) s

/-- CALL (R102). -/
def execCall (x : XF) (s : State) : Result := opCall (viewX 0x005 x) s

/-- RET (R102). -/
def execRet (x : XF) (s : State) : Result := opRet (viewX 0x006 x) s

/-- EMGET (R103). -/
def execEmget (x : XF) (s : State) : Result := opEmget (viewX 0x008 x) s

/-- EMGET_W32 (R103), as its X64 form with the cell's fixed modifiers (02 R63). -/
def execEmgetW32 (w : WF) (s : State) : Result := opEmget (viewW 0x008 .d 0x00 w) s

/-- EMSET (R103). -/
def execEmset (x : XF) (s : State) : Result := opEmset (viewX 0x009 x) s

/-- EMSET_W32 (R103), as its X64 form with the cell's fixed modifiers (02 R63). -/
def execEmsetW32 (w : WF) (s : State) : Result := opEmset (viewW 0x009 .a 0x00 w) s

/-- EMAND (R103). -/
def execEmand (x : XF) (s : State) : Result := opEmand (viewX 0x00A x) s

/-- EMAND_W32 (R103), as its X64 form with the cell's fixed modifiers (02 R63). -/
def execEmandW32 (w : WF) (s : State) : Result := opEmand (viewW 0x00A .p 0x00 w) s

/-- EMANDN (R103). -/
def execEmandn (x : XF) (s : State) : Result := opEmandn (viewX 0x00B x) s

/-- EMANDN_W32 (R103), as its X64 form with the cell's fixed modifiers (02 R63). -/
def execEmandnW32 (w : WF) (s : State) : Result := opEmandn (viewW 0x00B .p 0x00 w) s

/-- MCALL (R93). -/
def execMcall (x : XF) (s : State) : Result := opMcall (viewX 0x010 x) s

/-- TRAP (R104). -/
def execTrap (x : XF) (s : State) : Result := opTrap (viewX 0x011 x) s

/-- YIELD (R105). -/
def execYield (x : XF) (s : State) : Result := opYield (viewX 0x012 x) s

/-- YIELD_W32 (R105), as its X64 form with the cell's fixed modifiers (02 R63). -/
def execYieldW32 (w : WF) (s : State) : Result := opYield (viewW 0x012 .bare 0x00 w) s

/-- WAITF (R105). -/
def execWaitf (x : XF) (s : State) : Result := opWaitf (viewX 0x013 x) s

/-- WAITF_W32 (R105), as its X64 form with the cell's fixed modifiers (02 R63). -/
def execWaitfW32 (w : WF) (s : State) : Result := opWaitf (viewW 0x013 .bare 0x00 w) s

/-- EXIT (R106). -/
def execExit (x : XF) (s : State) : Result := opExit (viewX 0x014 x) s

/-- EXIT_W32 (R106), as its X64 form with the cell's fixed modifiers (02 R63). -/
def execExitW32 (w : WF) (s : State) : Result := opExit (viewW 0x014 .bare 0x00 w) s

/-- GETSR (R107). -/
def execGetsr (x : XF) (s : State) : Result := opGetsr (viewX 0x015 x) s

/-- GETSR_W32 (R107), as its X64 form with the cell's fixed modifiers (02 R63). -/
def execGetsrW32 (w : WF) (s : State) : Result := opGetsr (viewW 0x015 .getsr 0x00 w) s

end Sys2Proof.Machine
end

