-- ==== Sys2Proof/Machine/Matrix.lean ====
section
/-!
DEFINITION. Matrix instructions at issue and the events of the sequencer (12 R270, R273, R274, R277, R280 to R290).
-/

namespace Sys2Proof.Machine

/-! ### Checks (R281 to R283) -/

/-- The control word (R282): ROWS − 1, ROW and SROW. -/
def ctlRows (w : Word) : Nat := bits w.toNat 8 0
def ctlRow (w : Word) : Nat := bits w.toNat 15 9
def ctlSrow (w : Word) : Nat := bits w.toNat 22 16

/-- The record kinds that a form accepts. -/
def MxKind.kinds : MxKind → List Nat
  | .mwldL2 => [1, 2]
  | .maccld | .maccst => [1, 2, 3]
  | _ => [3]

/-- The control word and row ranges of R282. -/
def MxCmd.ctlOk (c : MxCmd) (w : Word) : Bool :=
  bits w.toNat 31 23 = 0 && (c.kind = .mmaByp || c.srow = 0) && c.firstRow + c.rows ≤ 512
    && (c.kind ≠ .mmaByp || (c.firstSrc + c.rows ≤ 512
      && (c.firstSrc + c.rows ≤ c.firstRow || c.firstRow + c.rows ≤ c.firstSrc)))

/-- The format check of R271, R285, R286 and R287. -/
def MxCmd.formatOk (c : MxCmd) (m : MxCore) : Bool :=
  match c.kind with
  | .mwld | .mwldL2 => mxFmt c.record.menc ≠ 0
  | .mma | .mmaByp => mxAccepts (m.bank c.bank).fmt (mxFmt c.record.menc)
  | .mdrain => !encPacked c.record.menc
  | _ => true

/-- The operand as the checks see it. -/
def MxCmd.operand (c : MxCmd) (m : MxCore) : Option MxOpnd := c.opnd (mxDepth (m.bank c.bank).fmt)

/-- The checks of R283 after the holder's, up to translation. -/
def MxCmd.check (c : MxCmd) (m : MxCore) (ctl : Word) (alloc : Nat) : Chk Unit :=
  let k := c.record.kind
  if c.kind ≠ .mzero && (k = 0 || 5 ≤ k) then .error (.trap Trap.bufferInvalid none)
  else if c.kind ≠ .mzero && !c.kind.kinds.contains k then illegalOperand
  else if !c.ctlOk ctl then illegalOperand
  else if !c.formatOk m then .error (.trap Trap.matrixFormat none)
  else match c.operand m with
    | some o => o.check alloc c.rows
    | none => .ok ()

/-- The quadrant that a command was issued from. -/
def State.mxQuad (s : State) (c : MxCmd) : Nat := ((s.flight c.flight).map Flight.quad).getD 0

/-- A command's place in the queue: after all of its team's but those that entered in the same cycle from a higher quadrant
(R273). -/
def insertMx (after : MxCmd → Bool) (c : MxCmd) : List MxCmd → List MxCmd
  | [] => [c]
  | x :: xs => if after x then c :: x :: xs else x :: insertMx after c xs

/-- The command enters the queue; a load sets its bank's declared format and source (R283, R284). -/
def State.enterMx (s : State) (core now : Nat) (c : MxCmd) : State :=
  let c : MxCmd := { c with key := s.nextKey, cycle := now }
  let after (x : MxCmd) : Bool := x.team = c.team && x.cycle = now && !x.started && s.mxQuad c < s.mxQuad x
  let s : State := ({ s with mxq := insertMx after c s.mxq } : State).freshKey
  match c.kind with
  | .mwld | .mwldL2 =>
    let m := s.mxCore core
    s.putMx (m.setBank c.bank { m.bank c.bank with
      fmt := mxFmt c.record.menc, desc := ⟨c.kind = .mwldL2, c.record, c.off, c.pages⟩ })
  | _ => s

/-! ### Issue -/

/-- The flight's team holds the array of its core (R269, R270). -/
def Ctx.holdsArray (c : Ctx) : Bool := !c.owner && (c.s.mxCore c.f.core).team = some c.f.team

/-- A register in the lowest active lane, zero under EM zero. -/
def Ctx.lowWord (c : Ctx) (ls : Lanes) : Word := if c.f.em = 0 then 0 else ls.at c.low

/-- The command that an instruction forms. -/
def Ctx.mxCmd (c : Ctx) (kind : MxKind) (r : BufRec) (ctl scale : Word) : MxCmd where
  key := 0
  team := c.f.team
  flight := c.f.key
  kind := kind
  bank := if kind = .mwld || kind = .mwldL2 then c.x.d.toNat % 2 else bits c.x.d.toNat 2 2
  tile := if kind = .mwld || kind = .mwldL2 then 0 else c.x.d.toNat % 4
  srcTile := bits c.x.d.toNat 4 3
  row := ctlRow ctl
  srow := ctlSrow ctl
  rows := if kind = .mma || kind = .mmaByp || kind = .mdrain then ctlRows ctl + 1 else 128
  record := r
  off := (c.lowWord c.srcA).toNat
  scale := scale
  pages := []
  flag := c.flag
  started := false
  next := 0
  paused := false
  fstat := 0
  poison := none
  copy := none
  lane := c.low
  pc := c.f.pc
  cycle := 0

/-- The pages of a global operand, translated (R280, R283). -/
def Ctx.mxPages (c : Ctx) (m : MxCmd) : Chk (List (Nat × Nat × Bool)) :=
  match m.operand (c.s.mxCore c.f.core) with
  | none => .ok []
  | some o =>
    if o.scratch then .ok []
    else
      let kind : AccessKind := if m.kind = .maccst then .matrixWrite else .matrixRead
      chkAll (fun p => match c.s.translate c.f (4096 * p) kind c.low with
        | .ok q => Except.ok (p, q)
        | .error e => .error e) (o.pages m.rows)

/-- A matrix instruction that enters the queue: the checks in the order of R283. -/
def matrixOp (v : View) (s : State) (kind : MxKind) : Result := varOp v s fun c =>
  if !c.holdsArray then illegalOperand
  else
    let r : Chk (BufRec × Ctx) := if kind = .mzero then .ok (BufRec.zero, c) else c.record c.x.b.toNat
    match r with
    | .error e => .error e
    | .ok (r, c) =>
      let ctl := if kind = .mma || kind = .mmaByp || kind = .mdrain then c.lowWord c.srcC else 0
      let m := c.mxCmd kind r ctl (c.lowWord (c.srcHi 3 c.x.c))
      match m.check (c.s.mxCore c.f.core) ctl c.allocation with
      | .error e => .error e
      | .ok () =>
        match c.mxPages m with
        | .error e => .error e
        | .ok ps => .ok (c.s.enterMx c.f.core c.now { m with pages := ps })

def opMwld (v : View) (s : State) : Result := matrixOp v s .mwld
def opMwldL2 (v : View) (s : State) : Result := matrixOp v s .mwldL2
def opMma (v : View) (s : State) : Result := matrixOp v s .mma
def opMmaByp (v : View) (s : State) : Result := matrixOp v s .mmaByp
def opMdrain (v : View) (s : State) : Result := matrixOp v s .mdrain
def opMzero (v : View) (s : State) : Result := matrixOp v s .mzero
def opMaccld (v : View) (s : State) : Result := matrixOp v s .maccld
def opMaccst (v : View) (s : State) : Result := matrixOp v s .maccst

/-- The word of MSTAT (R290). -/
def State.mstat (s : State) (m : MxCore) (team : Nat) : Word :=
  let q := s.mxq.filter fun c => c.team = team
  let bit (b : Bool) : Nat := if b then 1 else 0
  let next := ((q.find? fun c => c.started && c.kind.streams).map MxCmd.next).getD 0
  let pt := (List.range 4).foldl (fun v t => v + bit (m.poison.any fun p => p.1 / 128 = t) * 2 ^ t) 0
  wd (next * 2 ^ 23 + min 8 q.length * 2 ^ 19 + bit (q.any MxCmd.started) * 2 ^ 18 + bit (q.any MxCmd.paused) * 2 ^ 17
    + bit m.w1.poison.isSome * 2 ^ 16 + m.w1.fmt * 2 ^ 12 + bit m.w1.valid * 2 ^ 11
    + bit m.w0.poison.isSome * 2 ^ 10 + m.w0.fmt * 2 ^ 6 + bit m.w0.valid * 2 ^ 5 + pt)

def outMstat (c : Ctx) : Chk FixedOut :=
  if !c.holdsArray then illegalOperand
  else .ok ⟨Lanes.tab fun _ => c.s.mstat (c.s.mxCore c.f.core) c.f.team, none, c.f.em, Fl.none⟩
def opMstat (v : View) (s : State) : Result := fixedOp 4 v s outMstat

/-! ### What an engine waits for -/

/-- A waiting LDS that finds a granule Empty, which an engine's write may have to release first (log 14). -/
def State.stillWaits (s : State) (o : MemOp) : Bool :=
  o.kind.waits && match s.scratchTeam o with
    | some t => !t.granulesReady o
    | none => false

/-- The issuing flight's earlier accesses to those bytes have been performed (09 R230). -/
def State.engineReady (s : State) (flight key : Nat) (scratch : Bool) (as : List Nat) : Bool :=
  !(s.memOps.any fun o => o.flight = flight && o.key < key && !s.stillWaits o &&
    (if scratch then (o.kind.isScratch && o.granules.any fun g => as.any fun a => a / 16 = g) || o.kind.isStash
      else !o.kind.isScratch && o.bytes.any as.contains))

/-- The operand as the command reads it: at the depth of the weights that its bank holds. -/
def MxCmd.operandNow (c : MxCmd) (m : MxCore) : Option MxOpnd := c.opnd (mxDepth (mxFmt (m.bank c.bank).held.record.menc))

/-- Physical or scratchpad bytes of a command's operand. -/
def MxCmd.operandBytes (c : MxCmd) (m : MxCore) : Bool × List Nat :=
  match c.operandNow m with
  | none => (true, [])
  | some o =>
    let as := (List.range c.rows).flatMap fun r => o.rowAddrs r ++ o.scaleAddrs r
    (o.scratch, if o.scratch then as else as.map fun a => (pagePhys c.pages a).1)

/-- The cached lines that a MWLD.L2 reads. -/
def MxCmd.tileLines (c : MxCmd) (m : MxCore) : List Nat :=
  match c.operand m with
  | none => []
  | some o =>
    if o.map.policy = 4 then []
    else
      let as := (List.range 128).flatMap fun r => o.rowAddrs r ++ o.scaleAddrs r
      ((as.map (pagePhys c.pages)).filter fun p => !p.2).map (fun p => p.1 / 128) |>.dedup

/-! ### The events -/

/-- A queued command may start (R273): its units are free and nothing earlier in its queue conflicts with it. -/
def State.mxCanStart (s : State) (t : Team) (c : MxCmd) : Bool :=
  let q := s.mxq.filter fun x => x.team = c.team
  let m := s.mxCore t.core
  !c.started && s.teamRuns t && m.team = some t.key && m.reload = [] && q.all (fun x => !x.paused)
    && q.all (fun x => !x.started || x.kind.units.all fun u => !c.kind.units.contains u)
    && (q.takeWhile fun x => x.key ≠ c.key).all (fun x => !x.conflicts c)
    && (let b := c.operandBytes m; s.engineReady c.flight c.key b.1 b.2)

/-- The tile fetch unit fills and pins the lines of a MWLD.L2, if the hall's limit allows (R280). -/
def State.pinTile (s : State) (f : Flight) (t : Team) (c : MxCmd) : Option State :=
  let hall := hallOfCore t.core
  let lns := c.tileLines (s.mxCore t.core)
  let held := ((s.pins.filter fun p => p.hall = hall).map Pin.line).dedup
  if Config.pinBytes < 128 * (held.length + (lns.filter fun l => !held.contains l).length) then none
  else
    let s : State := lns.foldl (fun s ln => ((s.recallLine ln).fillL2 f.vd hall ln false false).expandCopy (.l2 hall) ln) s
    some { s with pins := s.pins ++ lns.map fun l => ⟨hall, l, c.key⟩ }

/-- MATRIX_COMMAND_START (R273). -/
def execMatrixCommandStart (cmd : Nat) (s : State) : Result :=
  match s.mxCmd cmd with
  | none => .next s
  | some c =>
    match s.mxParty c with
    | none => .next s
    | some (f, t) =>
      if !s.mxCanStart t c then .next s
      else if c.kind ≠ .mwldL2 then .next (s.putMxCmd { c with started := true })
      else match s.devHold (c.operandBytes (s.mxCore t.core)).2 (.op c.key) with
        | some s => .next s
        | none =>
          match s.pinTile f t c with
          | some s => .next (s.putMxCmd { c with started := true })
          | none => .next s

/-- MATRIX_COMMAND_COMPLETE (R274): a started command that is not stopped runs to its end, whether or not its team is halted
(15 R351; 17 R380). -/
def execMatrixCommandComplete (cmd : Nat) (s : State) : Result :=
  match s.mxCmd cmd with
  | none => .next s
  | some c =>
    if !c.started || c.paused then .next s
    else match s.mxParty c with
      | none => .next (s.endMx c)
      | some (_, t) =>
        let b := if c.kind = .maccld || c.kind = .maccst then c.operandBytes (s.mxCore t.core) else (true, [])
        if b.1 then .next (s.endMx c)
        else if c.kind = .maccst && b.2.any (fun a => s.pinned (a / 128)) then .next s
        else match s.devHold b.2 (.op c.key) with
          | some s => .next s
          | none => .next (s.endMx c)

/-- MATRIX_STOP (R277): `steps` row steps pass, at least one row remaining; a command whose team has halted stops there. In a stalled
or paused owner started commands complete (15 R351; 19 R410). -/
def execMatrixStop (cmd steps : Nat) (s : State) : Result :=
  match s.mxCmd cmd with
  | none => .next s
  | some c =>
    if !c.started || c.paused || !c.kind.streams || c.rows ≤ c.next + 32 * steps then .next s
    else match s.mxParty c with
      | none => .next s
      | some (_, t) =>
        let s : State := s.streamRows t c (c.next + 32 * steps)
        if s.teamRuns t || (s.owner t.vd).state ≠ 1 then .next s
        else match s.mxCmd cmd with
          | some c => .next (s.putMxCmd { c with paused := true })
          | none => .next s

/-- The pages of a bank's source at a resume, translated anew: none while a walk is under way; `false`: a walk ended in a
fault. -/
def State.reloadPages (s : State) (t : Team) (ps : List Nat) : State × Option (List (Nat × Nat × Bool)) × Bool :=
  let asid := ((s.grid t.grid).map Grid.asid).getD 0
  ps.foldl (fun (x : State × Option (List (Nat × Nat × Bool)) × Bool) p =>
    let q := x.1.sysLook t.vd asid (4096 * p) .matrixRead (.reload t.core)
    match q.2 with
    | .at pa uc => (q.1, x.2.1.map (· ++ [(p, pa, uc)]), x.2.2)
    | .waits => (q.1, none, x.2.2)
    | .fails => (q.1, none, false)) (s, some [], true)

/-- A bank as a load command of its own source. -/
def reloadCmd (f : Flight) (b : Nat) (w : Bank) (ps : List (Nat × Nat × Bool)) : MxCmd :=
  ⟨0, f.team, f.key, if w.held.isL2 then .mwldL2 else .mwld, b, 0, 0, 0, 0, 128, w.held.record, w.held.off, 0, ps, none, false, 0,
    false, 0, none, none, 0, f.pc, 0⟩

/-- Reload banks; the state, and whether every one has been reloaded. A source whose translation is missing faults the team,
as at issue (log 14); one in memory that the host owns is held (19 R407). -/
def State.reloadBanks (s : State) (f : Flight) (t : Team) : List Nat → State × Bool
  | [] => (s, true)
  | b :: bs =>
    let m := s.mxCore t.core
    let w := m.bank b
    if !w.valid then
      (s.putMx { m with reload := bs }).reloadBanks f t bs
    else
      let c := reloadCmd f b w []
      let ps := match c.operand m with
        | some o => if o.scratch then [] else o.pages 128
        | none => []
      let r := s.reloadPages t ps
      match r.2.1 with
      | some pages =>
        let c : MxCmd := { c with pages := pages }
        let src := c.operandBytes m
        match (if src.1 then none else r.1.devHold src.2 (.sys (.reload t.core))) with
        | some s => (s, false)
        | none =>
          let s : State := (r.1.loadBank f t c).1
          let m := s.mxCore t.core
          (s.putMx { m with reload := bs }).reloadBanks f t bs
      | none =>
        if r.2.2 then (r.1, false)
        else ((r.1.forget t.vd (.reload t.core)).faultTeam f (4096 * ps.headD 0) .matrixRead 0 0, false)

/-- MATRIX_RESUME_RELOAD (R277): once the team runs again, banks that held weights are reloaded if they were lost, and the
stopped command goes on. -/
def execMatrixResumeReload (core : Nat) (s : State) : Result :=
  let m := s.mxCore core
  match m.team.bind s.team with
  | none => .next s
  | some t =>
    match (s.teamFlights t.key).head? with
    | none => .next s
    | some f =>
      if !s.teamRuns t then .next s
      else
        let r := s.reloadBanks f t m.reload
        if !r.2 then .next r.1
        else
          let s : State := (r.1.forget t.vd (.reload core)).served (.sys (.reload core))
          .next { s with mxq := s.mxq.map fun c => if c.team = t.key then { c with paused := false } else c }

/-- MWLD (R284). -/
def execMwld (x : XF) (s : State) : Result := opMwld (viewX 0x160 x) s

/-- MWLD_L2 (R284). -/
def execMwldL2 (x : XF) (s : State) : Result := opMwldL2 (viewX 0x161 x) s

/-- MMA (R285). -/
def execMma (x : XF) (s : State) : Result := opMma (viewX 0x162 x) s

/-- MMA_BYP (R286). -/
def execMmaByp (x : XF) (s : State) : Result := opMmaByp (viewX 0x163 x) s

/-- MDRAIN (R287). -/
def execMdrain (x : XF) (s : State) : Result := opMdrain (viewX 0x164 x) s

/-- MZERO (R288). -/
def execMzero (x : XF) (s : State) : Result := opMzero (viewX 0x165 x) s

/-- MACCLD (R289). -/
def execMaccld (x : XF) (s : State) : Result := opMaccld (viewX 0x166 x) s

/-- MACCST (R289). -/
def execMaccst (x : XF) (s : State) : Result := opMaccst (viewX 0x167 x) s

/-- MSTAT (R290). -/
def execMstat (x : XF) (s : State) : Result := opMstat (viewX 0x168 x) s


end Sys2Proof.Machine
end

