-- ==== Sys2Proof/Machine/Copy.lean ====
section
/-!
DEFINITION. Copy instructions at issue (11 R248 to R256, R264, R265, R267, R268): locators, the bytes that each form reads and
writes, the checks, and BSEAL and BWAIT. The engine is in Engine.lean and Distiller.lean.
-/

namespace Sys2Proof.Machine

/-! ### Locators (R252) -/

def locPitch (w : Word) : Nat := 16 * bits w.toNat 31 23
def locRnd (w : Word) : Nat := bits w.toNat 22 21
def locSat (w : Word) : Bool := w.getLsbD 20
def locLink (w : Word) : Nat := bits w.toNat 19 16
def locEnc (w : Word) : Nat := bits w.toNat 15 10
def locSpace (w : Word) : Nat := bits w.toNat 9 8
def locRec (w : Word) : Nat := bits w.toNat 7 0

/-- A scratchpad side's own record: the scale plane and D of a DX encoding, which R252 does not name (log 19). -/
def scratchRec (enc : Nat) : BufRec :=
  ⟨0, 0, BitVec.ofNat 64 enc, BitVec.ofNat 64 (Config.scratchPlane % 2 ^ 57 + 2 ^ 57 * (Config.scratchDelta % 16)), 0⟩

def Side.isScratch (d : Side) : Bool := d.space = 1 || d.space = 3

/-- Bytes of a DX block of an encoding. -/
def dxBlockBytes (enc : Nat) : Nat := if encCode enc = 7 then 16 else 32
def isDxEnc (enc : Nat) : Bool := encCode enc = 6 || encCode enc = 7

/-- Half-bytes of an element. -/
def encNib (enc : Nat) : Nat := if encCode enc = 7 then 1 else 2 * encBytes enc

/-- A side from its locator and record: a global offset counts elements under DX (R252), and a map's offset starts at its
BASE. -/
def sideOf (off : Nat) (w : Word) (r : BufRec) : Side :=
  if locSpace w = 1 then ⟨1, scratchRec (locEnc w), off, locEnc w, locRnd w, locSat w, locPitch w, 0⟩
  else
    let b := if encCode r.menc = 7 then off / 2 else off
    ⟨if r.kind = 3 then 3 else locSpace w, r, if r.kind = 3 then r.padBase + b else b, r.menc, r.srnd, r.sat, r.pitch, locLink w⟩

/-- A lane's offset in bytes: under a .DX4 record it counts elements. -/
def Side.byteOff (d : Side) (o : Nat) : Nat := if !d.isScratch && encCode d.enc = 7 then o / 2 else o

/-! ### What a form reads and writes (R265) -/

/-- A byte of a side: a virtual address, a scratchpad offset, or one outside the extent. -/
inductive CopyRef where
  | va (a : Nat) | pad (o : Nat) | out
  deriving DecidableEq, Repr

/-- A byte at an offset of a side: addresses are formed linearly, under interleave mode 4 alone (R252). -/
def Side.ref (d : Side) (o : Nat) : CopyRef :=
  if d.isScratch then .pad o
  else
    let p := d.record.swz o
    if p + 1 ≤ d.record.extent then .va ((d.record.base + p) % vaMod) else .out

/-- The two scale bytes of a block. -/
def Side.scaleRef (d : Side) (q : Nat) : List CopyRef :=
  if d.isScratch then
    let a := (if d.space = 3 then d.record.padSbase else d.record.sbase) + 2 * q
    [.pad a, .pad (a + 1)]
  else
    let a := d.record.sbase + 2 * q
    [.va (a % vaMod), .va ((a + 1) % vaMod)]

def Copy.count (c : Copy) : Nat := c.c0.toNat
def Copy.cols (c : Copy) : Nat := bits c.c0.toNat 15 0 + 1
def Copy.tileRows (c : Copy) : Nat := bits c.c0.toNat 31 16 + 1
def Copy.blocks (c : Copy) : Nat := bits c.c0.toNat 16 0
def Copy.win (c : Copy) : Nat := bits c.c0.toNat 31 17
def Copy.rawEnc (c : Copy) : Nat := bits c.c1.toNat 13 8
def Copy.outEnc (c : Copy) : Nat := bits c.c1.toNat 19 14

def CopyForm.converts : CopyForm → Bool
  | .cpyx | .cpyt | .cpym => true
  | _ => false
def CopyForm.byLane : CopyForm → Bool
  | .cpyg | .cpys => true
  | _ => false

/-- Row pitches of CPY2: 0 means dense rows. -/
def Side.rowPitch (d : Side) (n : Nat) : Nat := if d.pitch = 0 then n else d.pitch

/-- The offset of byte `p` of the source stream of a form that moves bytes. -/
def Copy.srcAtByte (c : Copy) (p : Nat) : Nat :=
  let n := max 1 c.count
  match c.form with
  | .cpy2 => c.src.off + p / n * c.src.rowPitch n + p % n
  | .cpyg => (c.lanes.getD (p / n) (0, 0)).2 + p % n
  | .cpys => c.src.off + (c.lanes.getD (p / n) (0, 0)).1 * n + p % n
  | _ => c.src.off + p

/-- The offset of its destination byte. -/
def Copy.dstAtByte (c : Copy) (p : Nat) : Nat :=
  let n := max 1 c.count
  match c.form with
  | .cpy2 => c.dst.off + p / n * c.dst.rowPitch n + p % n
  | .cpyg => c.dst.off + (c.lanes.getD (p / n) (0, 0)).1 * n + p % n
  | .cpys => (c.lanes.getD (p / n) (0, 0)).2 + p % n
  | _ => c.dst.off + p

/-- Bytes of such a form in all, and of one unit: a 64-byte source block, or a lane. -/
def Copy.totalBytes (c : Copy) : Nat :=
  match c.form with
  | .cpy2 => c.count * c.c1.toNat
  | .cpyg | .cpys => c.count * c.lanes.length
  | _ => c.count
def Copy.unitBytes (c : Copy) : Nat := if c.form.byLane then max 1 c.count else 64

/-- A map's place of byte `x` of row `r` (R265). -/
def mapPlace (r : BufRec) (x row : Nat) : Nat :=
  if r.ilm = 2 then fragPhys true false x row else if r.ilm = 3 then fragPhys true true x row else r.rowPos x row

/-- The half-byte at which element (r, j) of a converting form starts at the source. -/
def Copy.srcNib (c : Copy) (r j : Nat) : Nat :=
  let n := encNib c.src.enc
  if c.form = .cpyx then 2 * c.src.off + j * n
  else if c.src.record.kind = 2 then 2 * (c.src.off + r * c.src.pitch) + j * n
  else 2 * c.src.off + (r * c.cols + j) * n

/-- The number of that element in the data of a DX source (05 R135). -/
def Copy.srcElem (c : Copy) (r j : Nat) : Nat := c.srcNib r j / encNib c.src.enc

/-- The destination offset of byte `x` of row `r` of a converting form. -/
def Copy.dstByteAt (c : Copy) (r x : Nat) : Nat :=
  if c.form = .cpyx then c.dst.off + x else c.dst.off + r * c.dst.pitch + mapPlace c.dst.record x r

/-- Elements of a row and rows of a converting form; a unit is up to 32 elements of a row. -/
def Copy.rowElems (c : Copy) : Nat := if c.form = .cpyx then c.count else c.cols
def Copy.rowCount (c : Copy) : Nat := if c.form = .cpyx then 1 else c.tileRows
def Copy.rowUnits (c : Copy) : Nat := (c.rowElems + 31) / 32

/-- Units of a copy. -/
def Copy.units (c : Copy) : Nat :=
  if c.form.converts then c.rowCount * c.rowUnits
  else (c.totalBytes + c.unitBytes - 1) / c.unitBytes

/-- A unit: the stream position of its first source byte, and its bytes and scale bytes on each side. -/
structure CopyUnit where
  first  : Nat
  src    : List CopyRef
  sscale : List CopyRef
  dst    : List CopyRef
  dscale : List CopyRef
  deriving DecidableEq, Repr

/-- Row, first element and number of elements of unit `i` of a converting form. -/
def Copy.unitAt (c : Copy) (i : Nat) : Nat × Nat × Nat :=
  let u := max 1 c.rowUnits
  let j := 32 * (i % u)
  (i / u, j, min 32 (c.rowElems - j))

/-- Unit `i`. -/
def Copy.unit (c : Copy) (i : Nat) : CopyUnit :=
  if c.form.converts then
    let (r, j, m) := c.unitAt i
    let lo := c.srcNib r j / 2
    let hi := (c.srcNib r (j + m) + 1) / 2
    let ne := encNib c.dst.enc
    let x := j * ne / 2
    let w := (m * ne + 1) / 2
    let first := (c.srcNib r j - 2 * c.src.off) / 2
    let read := if c.form ≠ .cpyx && c.src.record.kind = 2 then (r * c.cols + j) * encNib c.src.enc / 2 else first
    { first := read
      src := (List.range (hi - lo)).map fun k => c.src.ref (lo + k)
      sscale := if !isDxEnc c.src.enc then [] else
        let q := c.srcElem r j / 32
        (List.range (c.srcElem r (j + m - 1) / 32 + 1 - q)).flatMap fun i => c.src.scaleRef (q + i)
      dst := (List.range w).map fun k => c.dst.ref (c.dstByteAt r (x + k))
      dscale := if !isDxEnc c.dst.enc then []
        else if c.form = .cpyx then c.dst.scaleRef ((c.dst.off + x) / dxBlockBytes c.dst.enc)
        else c.dst.scaleRef (r * c.cols / 32 + j / 32) }
  else
    let lo := i * c.unitBytes
    let n := min c.unitBytes (c.totalBytes - lo)
    { first := lo
      src := if c.form = .fill then [] else (List.range n).map fun k => c.src.ref (c.srcAtByte (lo + k))
      sscale := []
      dst := (List.range n).map fun k => if c.form = .cpyp then .out else c.dst.ref (c.dstAtByte (lo + k))
      dscale := [] }

/-! ### Conversion (R256) -/

/-- A source element as an F32 code: the steps before the last. -/
def copyToF32 (enc e : Nat) : Nat × Flags := if encCode enc = 1 then (e, Fl.none) else convElem enc 1 e 4 false

/-- One element. -/
def copyElem (src dst e mode : Nat) (sat : Bool) : Nat × Flags :=
  if bitCase src dst then (e, Fl.none)
  else if encPacked src || ((encInt src).isSome && ((encInt dst).isSome || encCode dst = 1)) then convElem src dst e mode sat
  else
    let x := copyToF32 src e
    let last (mid : Nat) : Nat × Flags :=
      let y := convElem 1 mid x.1 4 false
      let z := convElem mid dst y.1 mode sat
      (z.1, x.2 ||| y.2 ||| z.2)
    if encCode dst = 4 then last 3
    else if encCode dst = 5 then last 2
    else if encCode dst = 1 then x
    else
      let z := convElem 1 dst x.1 mode sat
      (z.1, x.2 ||| z.2)

/-- The code at a half-byte of a list of bytes. -/
def codeAt (bs : List Byte) (nib p : Nat) : Nat :=
  if nib = 1 then (bs.getD (p / 2) 0).toNat / 16 ^ (p % 2) % 16 else leNat ((bs.drop (p / 2)).take (nib / 2))

/-- Bytes of element codes. -/
def packElems (nib : Nat) : List Nat → List Byte
  | [] => []
  | [a] => if nib = 1 then [BitVec.ofNat 8 a] else leBytes (nib / 2) a
  | a :: b :: r => if nib = 1 then BitVec.ofNat 8 (a + 16 * b) :: packElems nib r
    else leBytes (nib / 2) a ++ leBytes (nib / 2) b ++ packElems nib r

/-- Up to 32 elements from encoding to encoding: data, scale bytes and flags. `first` is the first element's place in its source
block, `sc` the exponents of the source blocks. A DX block that is not full is completed with +0 (05 R142). -/
def copyBlock (src dst : Nat) (mode : Nat) (sat : Bool) (d first : Nat) (codes : List Nat) (sc : List Byte) :
    List Byte × List Byte × Flags :=
  if bitCase src dst then (packElems (encNib dst) codes, sc, Fl.none)
  else
    let vals := (List.range codes.length).map fun i =>
      let e := codes.getD i 0
      if isDxEnc src then
        let q := (first + i) / 32
        let x := dxDecode e (sc.getD (2 * q) 0).toNat (sc.getD (2 * q + 1) 0).toNat (encCode src = 6)
        ((f32.round x.1 0 false).1, x.2)
      else (e, Fl.none)
    let fl0 : Flags := vals.foldl (fun a v => a ||| v.2) Fl.none
    let from' := if isDxEnc src then 1 else src
    if isDxEnc dst then
      let xs := vals.map fun v => copyToF32 from' v.1
      let pad := xs.map (fun v => f32.decode v.1) ++ List.replicate (32 - xs.length) (.fin false 0 0 false)
      let (cs, e0, e1, fl) := dxEncode pad (encCode dst = 6) d
      (packElems (encNib dst) cs, [BitVec.ofNat 8 e0, BitVec.ofNat 8 e1], xs.foldl (fun a v => a ||| v.2) (fl0 ||| fl))
    else
      let ys := vals.map fun v => if isDxEnc src && encCode dst = 1 then (v.1, Fl.none) else copyElem from' dst v.1 mode sat
      (packElems (encNib dst) (ys.map Prod.fst), [], ys.foldl (fun a v => a ||| v.2) fl0)

/-- What unit `i` writes, from what it reads. -/
def Copy.convert (c : Copy) (i : Nat) (data sc : List Byte) : List Byte × List Byte × Flags :=
  if c.form.converts then
    let (r, j, m) := c.unitAt i
    let n := encNib c.src.enc
    let off := c.srcNib r j % 2
    let codes := (List.range m).map fun k => codeAt data n (off + k * n)
    copyBlock c.src.enc c.dst.enc c.dst.rnd c.dst.sat c.dst.record.dxD (c.srcElem r j % 32) codes sc
  else if c.form = .fill then
    let lo := i * c.unitBytes
    ((List.range (min c.unitBytes (c.totalBytes - lo))).map fun k => (leBytes 4 c.src.off).getD (k % 4) 0, [], Fl.none)
  else (data, [], Fl.none)

/-! ### Checks at issue (R254, R264) -/

/-- The limits of an operand's values. -/
def copyLimits (form : CopyForm) (n c1 sa sb : Nat) : Bool :=
  (match form with
    | .cpy | .fill | .cpyp => n ≤ 2 ^ 30 && n % 4 = 0
    | .cpy2 => 4 ≤ n && n ≤ 2 ^ 20 && n % 4 = 0 && 1 ≤ c1 && c1 ≤ 65536
    | .cpyx => n ≤ 2 ^ 28
    | .cpyz => 1 ≤ n % 2 ^ 17 && n % 2 ^ 17 ≤ 65536 && c1 / 2 ^ 20 = 0
    | .cpyg | .cpys => 4 ≤ n && n ≤ 128 && n % 4 = 0
    | .cpyt => true
    | .cpym => bits c1 31 25 = 0 && bits c1 7 5 = 0 && c1 % 4 ≠ 3)
  && (match form with
    | .cpyp => sa = 2 && sb ≤ 1
    | .cpyt | .cpym => sa = 0 && sb = 0
    | .cpyz => sa ≤ 1 && sb = 0
    | .fill => sa ≤ 1
    | _ => sa ≤ 1 && sb ≤ 1)

/-- LINK names an arcade lane of the partition. -/
def State.linkOk (s : State) (vd link : Nat) : Bool := (s.partOf vd).arc.contains link

/-- Record kinds of a side. -/
def copyKinds (form : CopyForm) (isDst : Bool) : List Nat :=
  match form, isDst with
  | .cpyt, true | .cpym, true => [3]
  | .cpyz, false => [1]
  | _, _ => [1, 2]

/-- A side's record, if it names one, checked by kind (R182). -/
def Ctx.copyRec (c : Ctx) (n : Nat) (kinds : List Nat) : Chk (BufRec × Ctx) :=
  match c.record n with
  | .error e => .error e
  | .ok r =>
    if r.1.kind = 0 || 5 ≤ r.1.kind then .error (.trap Trap.bufferInvalid none)
    else if !kinds.contains r.1.kind then illegalOperand
    else .ok r

def Ctx.copySide (c : Ctx) (form : CopyForm) (isDst : Bool) (off : Nat) (w : Word) : Chk (Side × Ctx) :=
  if locSpace w = 1 then .ok (sideOf off w BufRec.zero, c)
  else match c.copyRec (locRec w) (copyKinds form isDst) with
    | .error e => .error e
    | .ok (r, c) => .ok (sideOf off w r, c)

/-- Ranges of offsets that a copy reads or writes, each with its lane for the forms by lane. -/
def Copy.spans (c : Copy) (isDst : Bool) : List (Nat × Nat × Option Nat) :=
  let d := if isDst then c.dst else c.src
  let at' := if isDst then c.dstAtByte else c.srcAtByte
  match c.form with
  | .cpyx => [(d.off, d.off + (c.count * encNib d.enc + 1) / 2, none)]
  | .cpyt | .cpym =>
    if isDst then
      let w := (c.cols * encNib d.enc + 1) / 2
      let top (r : Nat) : Nat := if d.record.ilm = 0 then w
        else (List.range w).foldl (fun m x => max m (mapPlace d.record x r + 1)) 0
      (List.range c.tileRows).map fun r => (d.off + r * d.pitch, d.off + r * d.pitch + top r, none)
    else (List.range c.tileRows).map fun r => (c.srcNib r 0 / 2, (c.srcNib r c.cols + 1) / 2, none)
  | .cpyz =>
    if !isDst then [(d.off, d.off + 32, none)]
    else if d.isScratch then [(d.off, d.off + 16 * (if c.win = 0 then 1 else c.win), none)] else []
  | .cpy2 => (List.range c.c1.toNat).map fun r => (at' (r * c.count), at' (r * c.count) + c.count, none)
  | .cpyg | .cpys => (List.range c.lanes.length).map fun j =>
    (at' (j * c.count), at' (j * c.count) + c.count, (c.lanes[j]?).map Prod.fst)
  | .fill => if isDst then [(d.off, d.off + c.count, none)] else []
  | _ => [(d.off, d.off + c.count, none)]

/-- A range lies inside the extent; under interleave mode 4 by its placed position (R185). -/
def BufRec.spanIn (r : BufRec) (lo hi : Nat) : Bool :=
  if r.ilm = 4 && 7 ≤ r.ilp && r.ilp ≤ 26 then
    (List.range (hi - lo)).all fun k => r.swz (lo + k) + 1 ≤ r.extent
  else hi ≤ r.extent

/-- A CPYZ converts its raw output; 0x00, and what reads as it, is no conversion (R264; 05 R143). -/
def Copy.essConverts (c : Copy) : Bool := !bitCase c.rawEnc c.outEnc

/-- The encoding that a form writes by conversion, or reads. -/
def Copy.sideEnc (c : Copy) (isDst : Bool) : Nat :=
  if c.form = .cpyz then (if isDst && c.essConverts then c.outEnc else 0)
  else if c.form.converts then (if isDst then c.dst else c.src).enc
  else 0

/-- The scale ranges of a scratchpad side; a CPYZ's are those of its window, or of its first granule. -/
def Copy.scaleSpans (c : Copy) (isDst : Bool) : List (Nat × Nat × Option Nat) :=
  let d := if isDst then c.dst else c.src
  let enc := c.sideEnc isDst
  if !isDxEnc enc || !d.isScratch || c.count = 0 then []
  else
    let q := if c.form = .cpyx || c.form = .cpyz then d.off / dxBlockBytes enc else 0
    let n := if c.form = .cpyz then (16 * max 1 c.win + dxBlockBytes enc - 1) / dxBlockBytes enc else c.rowCount * c.rowUnits
    let lo := if d.space = 3 then d.record.padSbase else d.record.sbase
    [(lo + 2 * q, lo + 2 * (q + n), none)]

/-- The lane of the first range outside the extent or the allocation; `some none` where no lane is to be named. -/
def Copy.outOfBounds (c : Copy) (alloc : Nat) (isDst : Bool) : Option (Option Nat) :=
  let d := if isDst then c.dst else c.src
  let strict := c.form = .cpyz && !isDst
  ((c.spans isDst ++ c.scaleSpans isDst).find? fun p => p.1 < p.2.1 &&
    (if d.isScratch then alloc < p.2.1 else (strict || d.record.bounds ≠ 1) && !d.record.spanIn p.1 p.2.1)).map fun p => p.2.2

/-- Both sides lie in the scratchpad and overlap (R255). -/
def Copy.overlaps (c : Copy) : Bool :=
  c.dst.isScratch && c.src.isScratch
    && (c.spans true).any fun a => (c.spans false).any fun b => a.1 < b.2.1 && b.1 < a.2.1

/-- Alignment of offsets (R254). A scratchpad side's offset is a DX offset where the form converts (R252, R256). -/
def Copy.misaligned (c : Copy) (a0 b0 : Nat) : Bool :=
  let glob (d : Side) (o : Nat) : Bool := if isDxEnc d.enc then o % 32 ≠ 0 else o % 4 ≠ 0
  let conv (isDst : Bool) (o : Nat) : Bool := isDxEnc (c.sideEnc isDst) && o % 32 ≠ 0
  conv true a0 || (if c.dst.isScratch then a0 % 16 ≠ 0 else glob c.dst a0)
    || (c.form ≠ .fill && (conv false b0 || (!c.src.isScratch && glob c.src b0)))

/-- A DX destination takes whole blocks (R256). -/
def Copy.dxWhole (c : Copy) : Bool :=
  !c.form.converts || !isDxEnc c.dst.enc || c.rowElems % 32 = 0

/-- The flight may issue copies (R248). -/
def Ctx.isProducer (c : Ctx) : Bool :=
  c.f.role.isService || match c.team.bind fun t => c.s.grid t.grid with
    | some g => g.producer = c.f.index
    | none => c.f.index = 0

/-- A copy that enters the queue. -/
def Ctx.enterCopy (c : Ctx) (k : Copy) : State :=
  ({ c.s with copies := c.s.copies ++ [{ k with key := c.s.nextKey }] }).freshKey

/-- A copy with what every form gives it. -/
def Ctx.copyOf (c : Ctx) (form : CopyForm) (dst src : Side) (c0 c1 : Word) (table : BufRec) (lanes : List (Nat × Nat)) : Copy where
  key := 0
  team := if c.f.role.isService then 0 else c.f.team
  flight := c.f.key
  core := c.f.core
  form := form
  dst := dst
  src := src
  c0 := c0
  c1 := c1
  table := table
  lanes := lanes.map fun l => (l.1, (if form = .cpyg then src else dst).byteOff l.2)
  dreg := c.x.d.toNat
  flag := c.flag
  batch := none
  pc := c.f.pc
  state := .queued
  next := 0
  failAt := none
  fstat := 0
  block := 0
  srcAt := 0
  outAt := 0
  placed := 0
  taken := 0
  tkBlock := 0
  tkAt := 0
  tkEnd := 0
  got := 0
  buf := []
  bad := []
  tabs := []
  carry := []
  rawAt := 0

def Side.none : Side := ⟨4, BufRec.zero, 0, 0, 0, false, 0, 0⟩

/-- Rights, and the status register (R248, R254). -/
def Ctx.copyRights (c : Ctx) : Chk Unit :=
  if c.f.role = .walk then .error (.stall 3 0)
  else if !c.isProducer then .error (.trap Trap.copyRights none)
  else .ok ()

/-- A copy's checks in the order of R254, once its operands are read. DESIGN CHOICE (log 95): of the records the destination's comes
first, then the source's and the table's, and a source that leaves its bounds is found before a destination that does. -/
def Ctx.copyChecks (c : Ctx) (form : CopyForm) (a b n : DWord) (lanes : List (Nat × Nat)) : Chk State :=
  let a1 := hiWord a
  let b1 := hiWord b
  let c0 := loWord n
  let c1 := hiWord n
  let a0 := (loWord a).toNat
  let b0 := (loWord b).toNat
  let linkBad := form = .cpyp && !c.s.linkOk c.f.vd (locLink a1)
  if !copyLimits form c0.toNat c1.toNat (locSpace a1) (locSpace b1) || linkBad then illegalOperand
  else match c.copySide form true a0 a1 with
    | .error e => .error e
    | .ok (dst, c) =>
      let src : Chk (Side × Ctx) := if form = .fill then .ok ({ Side.none with off := b0 }, c) else c.copySide form false b0 b1
      match src with
      | .error e => .error e
      | .ok (src, c) =>
        let tab : Chk (BufRec × Ctx) := if form = .cpyz then c.copyRec (c1.toNat % 256) [1, 2] else .ok (BufRec.zero, c)
        match tab with
        | .error e => .error e
        | .ok (table, c) =>
          let k := c.copyOf form dst src c0 c1 table lanes
          let badLane := if form.byLane then (lanes.find? fun l => l.2 % 4 ≠ 0).map Prod.fst else none
          let alloc := c.allocation
          if !k.dxWhole || k.overlaps then illegalOperand
          else if k.misaligned a0 b0 then .error (.trap Trap.misaligned none)
          else if badLane.isSome then .error (.trap Trap.misaligned badLane)
          else match k.outOfBounds alloc false, k.outOfBounds alloc true with
            | some l, _ => .error (.trap Trap.bufferBounds l)
            | none, some l => .error (.trap Trap.bufferBounds l)
            | none, none => .ok (c.enterCopy k)

/-- A copy instruction (R248 to R254). -/
def copyOp (v : View) (s : State) (form : CopyForm) : Result := varOp v s fun c =>
  match c.copyRights with
  | .error e => .error e
  | .ok () =>
    let d := c.x.d.toNat
    if d ≠ 248 && c.f.cls d ≠ .uniform then illegalOperand
    else if c.f.em = 0 then
      .ok (c.enterCopy { c.copyOf form Side.none Side.none 0 0 BufRec.zero [] with state := .written, dreg := 248 })
    else
      let l := c.low
      let lanes := if form = .cpyg then (lanesOf c.f.em).map fun l => (l, (c.srcB.at l).toNat)
        else if form = .cpys then (lanesOf c.f.em).map fun l => (l, (c.srcA.at l).toNat)
        else []
      c.copyChecks form (c.pairAt 1 c.x.a l) (c.pairAt 2 c.x.b l) (c.pairAt 3 c.x.c l) lanes

def opCpy (v : View) (s : State) : Result := copyOp v s .cpy
def opCpy2 (v : View) (s : State) : Result := copyOp v s .cpy2
def opCpyt (v : View) (s : State) : Result := copyOp v s .cpyt
def opCpyx (v : View) (s : State) : Result := copyOp v s .cpyx
def opCpyz (v : View) (s : State) : Result := copyOp v s .cpyz
def opCpyg (v : View) (s : State) : Result := copyOp v s .cpyg
def opCpys (v : View) (s : State) : Result := copyOp v s .cpys
def opCpym (v : View) (s : State) : Result := copyOp v s .cpym
def opFill (v : View) (s : State) : Result := copyOp v s .fill
def opCpyp (v : View) (s : State) : Result := copyOp v s .cpyp

/-! ### BSEAL, BWAIT (R268) -/

/-- The producer's copies since its previous BSEAL. -/
def State.unsealed (s : State) (f : Flight) : List Copy := s.copies.filter fun k => k.flight = f.key && k.batch.isNone

/-- Seal them into a batch: those still outstanding join it, the completed ones are gone. -/
def State.seal (s : State) (f : Flight) (b : Nat) : State :=
  let live := (s.unsealed f).filter fun k => k.state ≠ .done
  let cs := (s.copies.filter fun k => !(k.flight = f.key && k.batch.isNone && k.state = .done)).map fun (k : Copy) =>
    if k.flight = f.key && k.batch.isNone then { k with batch := some b } else k
  let s : State := { s with copies := cs }
  if f.role.isService then s
  else s.modTeam f.team fun t => { t with batches := listSet t.batches b (t.batches.getD b 0 + live.length) }

/-- Copies outstanding in a batch: its team's counter, or a service flight's own. -/
def State.batchCount (s : State) (f : Flight) (b : Nat) : Nat :=
  if f.role.isService then (s.copies.filter fun k => k.flight = f.key && k.batch = some b && k.state ≠ .done).length
  else ((s.team f.team).map fun t => t.batches.getD b 0).getD 0

def opBseal (v : View) (s : State) : Result := issue v s fun c =>
  match c.copyRights with
  | .error e => .error e
  | .ok () =>
    let k := c.x.c.toNat
    if 8 ≤ k then illegalOperand
    else
      let m := min (c.s.unsealed c.f).length 63
      let out : FixedOut := ⟨Lanes.tab fun _ => wd m, none, c.f.em, Fl.none⟩
      match c.putDst (c.now + 4) out.mask out.lo out.hi with
      | .error e => .error e
      | .ok puts =>
        let c : Ctx := { c with s := c.s.seal c.f k }
        .ok (c.finish (c.postFixed 4 out puts) .seq (c.writer 4 out))

def opBwait (v : View) (s : State) : Result := ctlOp v s fun c =>
  match c.copyRights with
  | .error e => .error e
  | .ok () =>
    let k := c.x.c.toNat
    if 8 ≤ k then illegalOperand
    else if c.s.batchCount c.f k = 0 then .ok (c.s, .seq)
    else .error (.block (.batch k))

/-! ### The constructors -/

/-- CPY (R265). -/
def execCpy (x : XF) (s : State) : Result := opCpy (viewX 0x140 x) s

/-- CPY2 (R265). -/
def execCpy2 (x : XF) (s : State) : Result := opCpy2 (viewX 0x141 x) s

/-- CPYT (R265). -/
def execCpyt (x : XF) (s : State) : Result := opCpyt (viewX 0x142 x) s

/-- CPYX (R256). -/
def execCpyx (x : XF) (s : State) : Result := opCpyx (viewX 0x143 x) s

/-- CPYZ (R262). -/
def execCpyz (x : XF) (s : State) : Result := opCpyz (viewX 0x144 x) s

/-- CPYG (R265). -/
def execCpyg (x : XF) (s : State) : Result := opCpyg (viewX 0x145 x) s

/-- CPYS (R265). -/
def execCpys (x : XF) (s : State) : Result := opCpys (viewX 0x146 x) s

/-- CPYM (R267). -/
def execCpym (x : XF) (s : State) : Result := opCpym (viewX 0x147 x) s

/-- FILL (R265). -/
def execFill (x : XF) (s : State) : Result := opFill (viewX 0x148 x) s

/-- CPYP (R266). -/
def execCpyp (x : XF) (s : State) : Result := opCpyp (viewX 0x149 x) s

/-- BSEAL (R268). -/
def execBseal (x : XF) (s : State) : Result := opBseal (viewX 0x14C x) s

/-- BWAIT (R268). -/
def execBwait (x : XF) (s : State) : Result := opBwait (viewX 0x14D x) s

end Sys2Proof.Machine
end

