-- ==== Sys2Proof/Machine/CrossLane.lean ====
section
/-!
DEFINITION. Cross-lane instructions (07 R167 to R178): latency 8.
-/

namespace Sys2Proof.Machine

/-- A source as LPERM, the shifts and LROT read its lanes: in owner mode every lane but the flight's own reads zero (R168). -/
def Ctx.exchange (c : Ctx) : Lanes :=
  let a := c.srcA
  if c.owner then Lanes.tab fun l => if l = c.f.role.ownerLane then a.at l else 0 else a

/-- Each lane receives the value of the lane that `m` names; none keeps its own (R172). -/
def Ctx.moved (c : Ctx) (m : Nat → Option Nat) : FixedOut :=
  let a := c.exchange
  c.out32 fun l => a.at ((m l).getD l)

/-- LPERM, LSHU, LSHD, LXOR, LROT (R172). -/
def outLperm (c : Ctx) : Chk FixedOut :=
  let b := c.srcB
  .ok (c.moved fun l => some ((b.at l).toNat % 32))
def opLperm (v : View) (s : State) : Result := fixedOp 8 v s outLperm
def outLshu (c : Ctx) : Chk FixedOut :=
  let k := c.x.c.toNat
  .ok (c.moved fun l => if k ≤ l then some (l - k) else none)
def opLshu (v : View) (s : State) : Result := fixedOp 8 v s outLshu
def outLshd (c : Ctx) : Chk FixedOut :=
  let k := c.x.c.toNat
  .ok (c.moved fun l => if l + k < 32 then some (l + k) else none)
def opLshd (v : View) (s : State) : Result := fixedOp 8 v s outLshd
def outLxor (c : Ctx) : Chk FixedOut :=
  .ok (c.moved fun l => some ((l ^^^ c.x.c.toNat) % 32))
def opLxor (v : View) (s : State) : Result := fixedOp 8 v s outLxor
def outLrot (c : Ctx) : Chk FixedOut :=
  .ok (c.moved fun l => some ((l + 32 - c.x.c.toNat) % 32))
def opLrot (v : View) (s : State) : Result := fixedOp 8 v s outLrot

/-- The active lanes in which a predicate is set (R173). -/
def Ctx.voted (c : Ctx) : Word := c.predOf 1 c.x.a.toNat &&& c.f.em

/-- POLL.ANY, POLL.ALL, POLL.MASK (R173). -/
def outPollAny (c : Ctx) : Chk (Word × Flags) :=
  .ok (if c.voted ≠ 0 then 0xFFFFFFFF else 0, Fl.none)
def opPollAny (v : View) (s : State) : Result := predOp 8 v s outPollAny
def outPollAll (c : Ctx) : Chk (Word × Flags) :=
  .ok (if c.voted = c.f.em then 0xFFFFFFFF else 0, Fl.none)
def opPollAll (v : View) (s : State) : Result := predOp 8 v s outPollAll
def outPollMask (c : Ctx) : Chk FixedOut := .ok (c.out32 fun _ => c.voted)
def opPollMask (v : View) (s : State) : Result := fixedOp 8 v s outPollMask

/-- LEQ.MASK, LEQ.ALL (R174). -/
def outLeqMask (c : Ctx) : Chk FixedOut :=
  let a := c.srcA
  .ok (c.out32 fun l => (maskOf fun m => a.at m = a.at l) &&& c.f.em)
def opLeqMask (v : View) (s : State) : Result := fixedOp 8 v s outLeqMask
def outLeqAll (c : Ctx) : Chk FixedOut :=
  let a := c.srcA
  .ok (c.out32 fun _ => if (lanesOf c.f.em).all fun m => a.at m = a.at (lowestLane c.f.em) then c.f.em else 0)
def opLeqAll (v : View) (s : State) : Result := fixedOp 8 v s outLeqAll

/-! ### The combining tree (R169, R170) -/

/-- One level: adjacent pairs, the lower index as the left operand, with the flags of its nodes. -/
def treeLevel (op : Word → Word → Word × Flags) : Lanes → Lanes × Flags
  | x :: y :: rest =>
    let r := op x y
    let t := treeLevel op rest
    (r.1 :: t.1, r.2 ||| t.2)
  | vs => (vs, Fl.none)

/-- `n` levels. -/
def treeUp (op : Word → Word → Word × Flags) : Nat → Lanes → Lanes × Flags
  | 0, vs => (vs, Fl.none)
  | n + 1, vs =>
    let t := treeLevel op vs
    let u := treeUp op n t.1
    (u.1, t.2 ||| u.2)

/-- The reduction of the active lanes of Va. -/
def Ctx.reduce (c : Ctx) (identity : Word) (op : Word → Word → Word × Flags) : FixedOut :=
  let a := c.srcA
  let r := treeUp op 5 (Lanes.tab fun l => if c.f.em.getLsbD l then a.at l else identity)
  ⟨Lanes.tab fun _ => r.1.headD 0, none, c.f.em, r.2⟩

/-- An integer node raises no flag. -/
def node (g : Word → Word → Word) : Word → Word → Word × Flags := fun x y => (g x y, Fl.none)

/-- The type is .I32, whose minimum and maximum are signed. -/
def Ctx.isI32 (c : Ctx) : Bool := c.itype = 0

def minW (isSigned : Bool) (x y : Word) : Word := if (if isSigned then x.sle y else x ≤ y) then x else y
def maxW (isSigned : Bool) (x y : Word) : Word := if (if isSigned then x.sle y else x ≤ y) then y else x

/-- RED.* (R175, R176). -/
def outRedAdd (c : Ctx) : Chk FixedOut := .ok (c.reduce 0 (node (· + ·)))
def opRedAdd (v : View) (s : State) : Result := fixedOp 8 v s outRedAdd
def outRedMin (c : Ctx) : Chk FixedOut :=
  .ok (c.reduce (if c.isI32 then 0x7FFFFFFF else 0xFFFFFFFF) (node (minW c.isI32)))
def opRedMin (v : View) (s : State) : Result := fixedOp 8 v s outRedMin
def outRedMax (c : Ctx) : Chk FixedOut :=
  .ok (c.reduce (if c.isI32 then 0x80000000 else 0) (node (maxW c.isI32)))
def opRedMax (v : View) (s : State) : Result := fixedOp 8 v s outRedMax
def outRedAnd (c : Ctx) : Chk FixedOut := .ok (c.reduce 0xFFFFFFFF (node (· &&& ·)))
def opRedAnd (v : View) (s : State) : Result := fixedOp 8 v s outRedAnd
def outRedOr (c : Ctx) : Chk FixedOut := .ok (c.reduce 0 (node (· ||| ·)))
def opRedOr (v : View) (s : State) : Result := fixedOp 8 v s outRedOr
def outRedXor (c : Ctx) : Chk FixedOut := .ok (c.reduce 0 (node (· ^^^ ·)))
def opRedXor (v : View) (s : State) : Result := fixedOp 8 v s outRedXor

/-- A floating node. -/
def fnode (g : Nat → Nat → Nat × Flags) : Word → Word → Word × Flags := fun x y =>
  let r := g x.toNat y.toNat
  (wd r.1, r.2)

def outRedFadd (c : Ctx) : Chk FixedOut :=
  .ok (c.reduce 0x80000000 (fnode fun x y => f32.addOp x y 0 false))
def opRedFadd (v : View) (s : State) : Result := fixedOp 8 v s outRedFadd
def outRedFmin (c : Ctx) : Chk FixedOut := .ok (c.reduce 0x7FC00000 (fnode (fminmax false)))
def opRedFmin (v : View) (s : State) : Result := fixedOp 8 v s outRedFmin
def outRedFmax (c : Ctx) : Chk FixedOut := .ok (c.reduce 0x7FC00000 (fnode (fminmax true)))
def opRedFmax (v : View) (s : State) : Result := fixedOp 8 v s outRedFmax

/-- SCAN.ADD (R177). -/
def outScanAdd (c : Ctx) : Chk FixedOut :=
  let a := c.srcA
  .ok (c.out32 fun l => ((lanesOf c.f.em).filter (· ≤ l)).foldl (fun t m => t + a.at m) 0)
def opScanAdd (v : View) (s : State) : Result := fixedOp 8 v s outScanAdd

/-! ### The constructors -/

/-- LPERM (R172). -/
def execLperm (x : XF) (s : State) : Result := opLperm (viewX 0x0C0 x) s

/-- LPERM_W32 (R172), as its X64 form with the cell's fixed modifiers (02 R63). -/
def execLpermW32 (w : WF) (s : State) : Result := opLperm (viewW 0x0C0 .dab 0x00 w) s

/-- LSHU (R172). -/
def execLshu (x : XF) (s : State) : Result := opLshu (viewX 0x0C1 x) s

/-- LSHU_W32 (R172), as its X64 form with the cell's fixed modifiers (02 R63). -/
def execLshuW32 (w : WF) (s : State) : Result := opLshu (viewW 0x0C1 .dak 0x00 w) s

/-- LSHD (R172). -/
def execLshd (x : XF) (s : State) : Result := opLshd (viewX 0x0C2 x) s

/-- LSHD_W32 (R172), as its X64 form with the cell's fixed modifiers (02 R63). -/
def execLshdW32 (w : WF) (s : State) : Result := opLshd (viewW 0x0C2 .dak 0x00 w) s

/-- LXOR (R172). -/
def execLxor (x : XF) (s : State) : Result := opLxor (viewX 0x0C3 x) s

/-- LXOR_W32 (R172), as its X64 form with the cell's fixed modifiers (02 R63). -/
def execLxorW32 (w : WF) (s : State) : Result := opLxor (viewW 0x0C3 .dak 0x00 w) s

/-- LROT (R172). -/
def execLrot (x : XF) (s : State) : Result := opLrot (viewX 0x0C4 x) s

/-- POLL_ANY (R173). -/
def execPollAny (x : XF) (s : State) : Result := opPollAny (viewX 0x0C8 x) s

/-- POLL_ALL (R173). -/
def execPollAll (x : XF) (s : State) : Result := opPollAll (viewX 0x0C9 x) s

/-- POLL_MASK (R173). -/
def execPollMask (x : XF) (s : State) : Result := opPollMask (viewX 0x0CA x) s

/-- POLL_MASK_W32 (R173), as its X64 form with the cell's fixed modifiers (02 R63). -/
def execPollMaskW32 (w : WF) (s : State) : Result := opPollMask (viewW 0x0CA .dp 0x00 w) s

/-- LEQ_MASK (R174). -/
def execLeqMask (x : XF) (s : State) : Result := opLeqMask (viewX 0x0CB x) s

/-- LEQ_ALL (R174). -/
def execLeqAll (x : XF) (s : State) : Result := opLeqAll (viewX 0x0CC x) s

/-- RED_ADD (R175). -/
def execRedAdd (x : XF) (s : State) : Result := opRedAdd (viewX 0x0D0 x) s

/-- RED_MIN (R175). -/
def execRedMin (x : XF) (s : State) : Result := opRedMin (viewX 0x0D1 x) s

/-- RED_MAX (R175). -/
def execRedMax (x : XF) (s : State) : Result := opRedMax (viewX 0x0D2 x) s

/-- RED_AND (R175). -/
def execRedAnd (x : XF) (s : State) : Result := opRedAnd (viewX 0x0D3 x) s

/-- RED_OR (R175). -/
def execRedOr (x : XF) (s : State) : Result := opRedOr (viewX 0x0D4 x) s

/-- RED_XOR (R175). -/
def execRedXor (x : XF) (s : State) : Result := opRedXor (viewX 0x0D5 x) s

/-- RED_FADD (R176). -/
def execRedFadd (x : XF) (s : State) : Result := opRedFadd (viewX 0x0D8 x) s

/-- RED_FMIN (R176). -/
def execRedFmin (x : XF) (s : State) : Result := opRedFmin (viewX 0x0D9 x) s

/-- RED_FMAX (R176). -/
def execRedFmax (x : XF) (s : State) : Result := opRedFmax (viewX 0x0DA x) s

/-- SCAN_ADD (R177). -/
def execScanAdd (x : XF) (s : State) : Result := opScanAdd (viewX 0x0DC x) s

end Sys2Proof.Machine
end

