-- ==== Sys2Proof/Machine/Engine.lean ====
section
/-!
DEFINITION. The copy engine (11 R249 to R251, R257 to R259, R265 to R268): starting, beats, source failures, completion, and
the follow-on command of CPYM. The beats of CPYZ are in Distiller.lean.
-/

namespace Sys2Proof.Machine

/-! ### Starting (R249) -/

/-- The copy has started and its writes are not all done. -/
def CopyState.started : CopyState → Bool
  | .queued | .done => false
  | _ => true

/-- COPY_START: the oldest queued copy of a core whose owner runs, while fewer than 8 are active. A stalled owner's queued
copies do not start (15 R351). -/
def execCopyStart (core : Nat) (s : State) : Result :=
  let mine := s.copies.filter fun c => c.core = core
  if Config.copyActive ≤ (mine.filter fun c => c.state.started).length then .next s
  else
    let runs (c : Copy) : Bool := match s.flight c.flight with
      | some f => (s.owner f.vd).state = 1
      | none => false
    match mine.find? fun c => c.state = .queued && runs c with
    | some c => .next (s.putCopy { c with state := .active })
    | none => .next s

/-- The active copies of a core that its engine serves in turn: of the CPYZs, the one in the distiller. -/
def State.served' (s : State) (core : Nat) : List Copy := s.copies.filter fun c => c.core = core && c.state = .active
  && s.copies.all fun k => k.core ≠ core || k.form ≠ .cpyz || c.form ≠ .cpyz || c.key ≤ k.key || !k.state.started || k.state = .written

/-- The copy whose turn it is in the round (R249): the one after the copy served last. -/
def State.nextServed (s : State) (core : Nat) : Option Copy :=
  let cs := s.served' core
  let last := ((kget Prod.fst core s.engines).map Prod.snd).getD 0
  match cs.find? fun c => last < c.key with
  | some c => some c
  | none => cs.head?

/-- The engine has served the copy. -/
def State.tookTurn (s : State) (c : Copy) : State := { s with engines := kset Prod.fst (c.core, c.key) s.engines }

/-! ### Failures (R251) -/

/-- The earliest failure stands, and of two at one position the lower code. -/
def Copy.note (c : Copy) (pos code off : Nat) : Copy :=
  { c with failAt := match c.failAt with
      | some (p, q, o) => if p < pos || (p = pos && q ≤ code) then some (p, q, o) else some (pos, code, off)
      | none => some (pos, code, off) }

/-- The copy has failed and writes no more. -/
def Copy.failed (c : Copy) (pos code off : Nat) : Copy := { c.note pos code off with state := .written }

/-! ### Translation (R257) -/

/-- The first address of each page that the bytes of a side touch. -/
def pageHeads (k : AccessKind) (refs : List CopyRef) : List (Nat × AccessKind) :=
  refs.foldl (fun (hs : List (Nat × AccessKind)) r => match r with
    | .va a => if hs.any fun h => h.1 / 4096 = a / 4096 then hs else hs ++ [(a, k)]
    | _ => hs) []

/-- Translate pages: the state, and where they lie; none where the copy waits for a walk, pauses on a fault, or stalls its
owner. -/
def State.copyPages (s : State) (f : Flight) (c : Copy) : List (Nat × AccessKind) → List (Nat × Nat × Bool) →
    State × Option (List (Nat × Nat × Bool))
  | [], ps => (s, some ps)
  | (va, k) :: r, ps =>
    let q := s.lookup c.core f.vd (s.asidOf f) va k
    match q.2 with
    | .hit e =>
      let pa := e.phys va
      if ((s.owner f.vd).balustrade pa 1).isNone then
        (if (s.owner f.vd).state = 1 then q.1.stallOwner f.vd 2 0 f.role.code f.role.ownerLane c.pc pa else q.1, none)
      else q.1.copyPages f c r (ps ++ [(va / 4096, pa - va % 4096, e.uc || s.uncachedAt f.vd pa)])
    | .lacks => (q.1.faultCopy c f.vd (s.asidOf f) va k 1, none)
    | .miss => ((q.1.putCopy { c with state := .walking }).miss f.vd (s.asidOf f) va k (.copy c.key), none)

def CopyUnit.heads (u : CopyUnit) : List (Nat × AccessKind) :=
  pageHeads .copyRead (u.src ++ u.sscale) ++ pageHeads .copyWrite (u.dst ++ u.dscale)

/-- Physical addresses, and scratchpad offsets, of bytes. -/
def physOf (ps : List (Nat × Nat × Bool)) (refs : List CopyRef) : List Nat :=
  refs.filterMap fun r => match r with
    | .va a => some (pagePhys ps a).1
    | _ => none
def padsOf (refs : List CopyRef) : List Nat :=
  refs.filterMap fun r => match r with
    | .pad o => some o
    | _ => none

/-- Bytes that a copy reads and writes: the state, and the pages, once nothing holds them: translations, the flight's earlier
accesses, pins, and transfers of ownership. -/
def State.unitReady (s : State) (f : Flight) (c : Copy) (u : CopyUnit) : State × Option (List (Nat × Nat × Bool)) :=
  match s.copyPages f c u.heads [] with
  | (s, none) => (s, none)
  | (s, some ps) =>
    let all := u.src ++ u.sscale ++ u.dst ++ u.dscale
    if !s.engineReady f.key c.key false (physOf ps all) || !s.engineReady f.key c.key true (padsOf all) then (s, none)
    else if (physOf ps (u.dst ++ u.dscale)).any fun a => s.pinned (a / 128) then (s, none)
    else match s.devHold (physOf ps all) (.copy c.key) with
      | some s => (s, none)
      | none => (s, some ps)

/-! ### Reading and writing -/

/-- Bytes of the copy's team's scratchpad. -/
def State.copyPad (s : State) (c : Copy) (o : Nat) : Byte := ((s.team c.team).map fun t => t.scratch.get o).getD 0

/-- The bytes of a side; those outside the extent read zero. -/
def State.readRefs (s : State) (f : Flight) (c : Copy) (r : BufRec) (ps : List (Nat × Nat × Bool)) (refs : List CopyRef) :
    State × List Byte :=
  let pas := physOf ps refs
  let uc := refs.any fun x => match x with
    | .va a => (pagePhys ps a).2
    | _ => false
  let pol := policyOf r.policy uc
  let s : State := s.drainLines f.key (pas.map (· / 128))
  let s : State := (s.load f.vd c.core pol r.attar r.expand pas).1
  (s, refs.map fun x => match x with
    | .va a => s.readByte pol (pagePhys ps a).1
    | .pad o => s.copyPad c o
    | .out => 0)

/-- The byte is poisoned, in memory or in its granule. -/
def State.refBad (s : State) (c : Copy) (r : BufRec) (ps : List (Nat × Nat × Bool)) (x : CopyRef) : Bool :=
  match x with
  | .va a => let p := pagePhys ps a; s.readBad (policyOf r.policy p.2) p.1
  | .pad o => match s.team c.team with
    | some t => t.gran (o / 16) = .poisonedError || t.gran (o / 16) = .poisonedChecksum
    | none => false
  | .out => false

/-- Write bytes of the destination: those outside the extent are dropped, and the granules listed take a state. -/
def State.writeRefsIn (s : State) (f : Flight) (c : Copy) (ps : List (Nat × Nat × Bool)) (ws : List (CopyRef × Byte)) (g : Granule)
    (grans : List Nat) : State :=
  let gs := ws.filterMap fun w => match w.1 with
    | .va a => some ((pagePhys ps a).1, w.2)
    | _ => none
  let pads := ws.filterMap fun w => match w.1 with
    | .pad o => some (o, w.2)
    | _ => none
  let uc := ws.any fun w => match w.1 with
    | .va a => (pagePhys ps a).2
    | _ => false
  let s : State := s.engineWrite f c.core (policyOf c.dst.record.policy uc) gs
  if pads = [] then s else s.scratchEngine c.team pads g grans

/-- The granules of the bytes take the state. -/
def State.writeRefs (s : State) (f : Flight) (c : Copy) (ps : List (Nat × Nat × Bool)) (ws : List (CopyRef × Byte)) (g : Granule) :
    State := s.writeRefsIn f c ps ws g (gransOf (padsOf (ws.map Prod.fst)))

/-! ### Beats (R249) -/

/-- The fields of a PAIR register (19 R402). -/
def pairDev (p : Word) : Nat := bits p.toNat 11 0
def pairVd (p : Word) : Nat := bits p.toNat 20 12

/-- The pairing of a link counts (19 R411): PAIR names the identity with which the link trained, and the PAIR of the owner that it
names there names this device and this owner. -/
def State.pairCounts (s : State) (vd link : Nat) : Bool :=
  let p := (s.owner vd).pairs.getD link 0
  let l := s.link link
  l.up && p.getLsbD 31 && pairDev p = l.peer.toNat && match kget Prod.fst (pairVd p) l.far with
    | some (_, q) => q.getLsbD 31 && pairDev q = s.mgmt.arcid.toNat % 4096 && pairVd q = vd
    | none => false

/-- The peer's bytes of a block, by address in its owner's space. -/
def Copy.peerRefs (c : Copy) (u : CopyUnit) : List CopyRef := (List.range u.src.length).map fun k => c.dst.ref (c.dstAtByte (u.first + k))

/-- The next unit has been moved. -/
def Copy.advance (c : Copy) (fl : Flags) : Copy :=
  { c with next := c.next + 1, fstat := c.fstat ||| fl, state := if c.units ≤ c.next + 1 then .written else c.state }

/-- Move the next unit. DESIGN CHOICE (log 95): units move forward one after another, so that of the two values that R255 allows
where global ranges overlap, a source byte that the copy has written before gives the written one. -/
def State.moveUnit (s : State) (f : Flight) (c : Copy) (u : CopyUnit) (ps : List (Nat × Nat × Bool)) : State :=
  let a := s.readRefs f c c.src.record ps u.src
  let b := a.1.readRefs f c c.src.record ps u.sscale
  let (out, sc, fl) := c.convert c.next a.2 b.2
  let s : State := b.1.writeRefs f c ps (u.dst.zip out ++ u.dscale.zip sc) .full
  let s : State := if c.form ≠ .cpyp then s
    else s.tell (.peerBlock c.dst.link f.vd (((c.peerRefs u).zip out).filterMap fun w => match w.1 with
      | .va x => some (x, w.2)
      | _ => none))
  ((s.charge f u.src.length).putCopy (c.advance fl)).served (.copy c.key)

/-- A beat of a copy other than CPYZ: one unit. A CPYP's block may be refused, or its link may be down (R266). -/
def State.beat (s : State) (f : Flight) (c : Copy) (answer : PeerAnswer) : State :=
  if c.units ≤ c.next then s.putCopy { c with state := .written }
  else
    let u := c.unit c.next
    match s.unitReady f c u with
    | (s, none) => s
    | (s, some ps) =>
      if (u.src ++ u.sscale).any (s.refBad c c.src.record ps) then s
      else if c.form ≠ .cpyp then s.moveUnit f c u ps
      else if !(s.link c.dst.link).up || answer = .linkDown then s.putCopy (c.failed u.first 0x32 (u.first / 64))
      else if answer = .refused || !s.pairCounts f.vd c.dst.link then s.putCopy (c.failed u.first 0x31 (u.first / 64))
      else s.moveUnit f c u ps

/-! ### A poisoned source block (R258) -/

/-- The last source position that byte `b` of a unit's output derives from. -/
def Copy.derives (c : Copy) (u : CopyUnit) (i b : Nat) : Nat :=
  if c.form.converts then
    let m := (c.unitAt i).2.2
    let e := if isDxEnc c.dst.enc then m - 1 else min (m - 1) ((2 * b + 1) / encNib c.dst.enc)
    u.first + ((e + 1) * encNib c.src.enc + 1) / 2 - 1
  else u.first + b

/-- The bytes of a unit that derive from source position `lim` or later, and the others, by their places in `dst`. -/
def Copy.lost (c : Copy) (u : CopyUnit) (i lim : Nat) : List Nat := (List.range u.dst.length).filter fun b => lim ≤ c.derives u i b
def Copy.kept (c : Copy) (u : CopyUnit) (i lim : Nat) : List Nat := (List.range u.dst.length).filter fun b => c.derives u i b < lim

/-- The destination bytes of a unit that derive from position `lim` or later. -/
def Copy.lostRefs (c : Copy) (u : CopyUnit) (i lim : Nat) : List CopyRef :=
  let bs := c.lost u i lim
  bs.map (fun b => u.dst.getD b .out) ++ (if bs = [] then [] else u.dscale)

/-- Where pages lie now, without walks. -/
def State.pagesNow (s : State) (f : Flight) (c : Copy) (hs : List (Nat × AccessKind)) : Option (List (Nat × Nat × Bool)) :=
  hs.foldr (fun h acc => acc.bind fun ps => match (s.lookup c.core f.vd (s.asidOf f) h.1 h.2).2 with
    | .hit e => some ((h.1 / 4096, e.phys h.1 - h.1 % 4096, e.uc || s.uncachedAt f.vd (e.phys h.1)) :: ps)
    | _ => none) (some [])

/-- The lines that the units just before the failing one have written with bytes of the failing block. -/
def State.wroteLines (s : State) (f : Flight) (c : Copy) (lim : Nat) : List Nat :=
  ((List.range c.next).drop (c.next - 4)).flatMap fun i =>
    let u := c.unit i
    match s.pagesNow f c u.heads with
    | some ps => (physOf ps (c.lostRefs u i lim)).map (· / 128)
    | none => []

/-- The global bytes of unit `i` from the failing block on hold their old values, or those that the copy would have written,
line by line as the run's choice `n` falls; `wrote`: lines already written. -/
def State.mayWrite (s : State) (f : Flight) (c : Copy) (n lim : Nat) (wrote : List Nat) (i : Nat) : State :=
  let u := c.unit i
  match s.pagesNow f c u.heads with
  | none => s
  | some ps =>
    let a := s.readRefs f c c.src.record ps u.src
    let b := a.1.readRefs f c c.src.record ps u.sscale
    let (out, sc, _) := c.convert i a.2 b.2
    let lost := c.lost u i lim
    let ws := lost.map (fun k => (u.dst.getD k .out, out.getD k 0)) ++ (if lost = [] then [] else u.dscale.zip sc)
    b.1.writeRefs f c ps (ws.filter fun w => match w.1 with
      | .va x => let ln := (pagePhys ps x).1 / 128; wrote.contains ln || Config.freeBit n ln
      | _ => false) .full

/-- The copy fails at the 64-byte source block that holds position `pos`. -/
def State.failSource (s : State) (f : Flight) (c : Copy) (u : CopyUnit) (ps : List (Nat × Nat × Bool)) (pos : Nat) : State :=
  let k := pos / 64
  let lim := 64 * k
  let off := if c.form.byLane then (c.lanes.getD c.next (0, 0)).1 else k
  let a := s.readRefs f c c.src.record ps u.src
  let b := a.1.readRefs f c c.src.record ps u.sscale
  let good := (List.range u.src.length).map fun j => if u.first + j < lim then a.2.getD j 0 else 0
  let (out, sc, fl) := c.convert c.next good b.2
  let kept := c.kept u c.next lim
  let ws := kept.map (fun k => (u.dst.getD k .out, out.getD k 0)) ++ (if c.lost u c.next lim = [] then u.dscale.zip sc else [])
  let s : State := b.1.writeRefs f c ps ws .full
  let n := s.free
  let wrote := s.wroteLines f c lim
  let s : State := ((List.range c.units).drop c.next).foldl (fun s i => s.mayWrite f c n lim wrote i) s.drawn
  let lost := (List.range c.units).flatMap fun i => padsOf (c.lostRefs (c.unit i) i lim)
  let s : State := if lost = [] then s else s.scratchEngine c.team [] .poisonedError (gransOf lost)
  (s.putCopy { c.failed lim 9 off with fstat := c.fstat ||| fl }).served (.copy c.key)

/-- A line that the rest of the copy would write is pinned, to which writes wait (12 R280). -/
def State.restPinned (s : State) (f : Flight) (c : Copy) : Bool :=
  ((List.range c.units).drop (c.next - 4)).any fun i =>
    let u := c.unit i
    match s.pagesNow f c u.heads with
    | some ps => (physOf ps (u.dst ++ u.dscale)).any fun a => s.pinned (a / 128)
    | none => false

/-- A unit whose source bytes, or their exponents, are poisoned. -/
def State.unitFailure (s : State) (f : Flight) (c : Copy) : State :=
  if c.units ≤ c.next || s.restPinned f c then s
  else
    let u := c.unit c.next
    match s.unitReady f c u with
    | (s, none) => s
    | (s, some ps) =>
      if u.sscale.any (s.refBad c c.src.record ps) then s.failSource f c u ps u.first
      else match (List.range u.src.length).find? fun j => s.refBad c c.src.record ps (u.src.getD j .out) with
        | some j => s.failSource f c u ps (u.first + j)
        | none => s

/-! ### Completion (R250, R251) -/

/-- The follow-on word's KIND (R267). -/
def Copy.followKind (c : Copy) : Nat := c.c1.toNat % 4

/-- The copy's writes, and what follows them, are complete. -/
def State.copyReady (s : State) (c : Copy) : Bool :=
  match c.state with
  | .written => c.form ≠ .cpym || c.failAt.isSome || c.followKind = 0
  | .following cmd => (s.mxCmd cmd).isNone
  | _ => false

def Copy.status (c : Copy) : Word :=
  match c.failAt with
  | some (_, code, off) => wd (code + 256 * (off % 2 ^ 24))
  | none => 0

/-- The copy leaves its batch; a saved team's counter is written too. -/
def State.leaveBatch (s : State) (c : Copy) (f : Flight) : State :=
  match c.batch with
  | none => s
  | some k =>
    if f.role.isService then s
    else
      let s : State := s.modTeam c.team fun t => { t with batches := listSet t.batches k (t.batches.getD k 0 - 1) }
      match s.team c.team with
      | none => s
      | some t =>
        match s.teamFrame t with
        | some fr => s.frameWrite fr ((s.flightShape f).off 8 + k) [BitVec.ofNat 8 (t.batches.getD k 0)]
        | none => s

/-- Completion: FSTAT, the status word, the set flag; then the batch. A completed copy that no BSEAL has sealed is still
counted by the next one. -/
def State.finishCopy (s : State) (c : Copy) : State :=
  match s.flight c.flight with
  | none => { s with copies := s.copies.filter fun k => k.key ≠ c.key }
  | some f =>
    let s : State := s.modFlight f.key fun f => { f with early := f.early.filter fun e => e.key ≠ c.key }
    let s : State := s.orFstat f.key c.fstat
    let s : State := s.landVar f.key 0xFFFFFFFF [(c.dreg, Lanes.tab fun _ => c.status)] c.pc
    let s : State := (s.complete f.key c.flag Fl.none).leaveBatch c f
    let s : State := if f.role.isService then s.progressed f.vd else s
    let s : State := if c.batch.isSome then { s with copies := s.copies.filter fun k => k.key ≠ c.key }
      else s.putCopy { c with state := .done, buf := [] }
    s.served (.copy c.key)

/-- COPY_COMPLETE (R250). -/
def execCopyComplete (copy : Nat) (s : State) : Result :=
  match s.copy copy with
  | none => .next s
  | some c => if s.copyReady c then .next (s.finishCopy c) else .next s

/-! ### The follow-on of CPYM (R267) -/

/-- Buffer record `n` as the engine reads it for a copy's producer: the cached version or the table's (08 R183); none while
its read waits or has faulted. -/
def State.copyRecord (s : State) (f : Flight) (c : Copy) (n : Nat) : State × Option BufRec :=
  let (tab, g) := s.tableOf f
  let va := (tab + 0x28 * n) % vaMod
  let cached := s.recs.find? fun e => e.core = c.core && e.grid = g && e.num = n
  match (if Config.freeBit s.free (30 + n) then cached else none) with
  | some e => (s.drawn, some e.record)
  | none =>
    let bytes := (List.range 40).map fun i => CopyRef.va ((va + i) % vaMod)
    match s.drawn.copyPages f c (pageHeads .record bytes) [] with
    | (s, none) => (s, none)
    | (s, some ps) =>
      let as := physOf ps bytes
      match s.devHold as (.copy c.key) with
      | some s => (s, none)
      | none =>
      let s : State := (s.recallLines (as.map (· / 128)).dedup).served (.copy c.key)
      let r := recOf (bytes.map fun x => match x with
        | .va a => let p := pagePhys ps a; s.readByte (if p.2 then 4 else 0) p.1
        | _ => 0)
      ({ s with recs := (s.recs.filter fun e => !(e.core = c.core && e.grid = g && e.num = n)) ++ [⟨c.core, g, n, r⟩] }, some r)

/-- The command of a follow-on word: MWLD or MMA, offset and start row 0, no scale. -/
def Copy.followCmd (c : Copy) (r : BufRec) : MxCmd where
  key := 0
  team := c.team
  flight := c.flight
  kind := if c.followKind = 1 then .mwld else .mma
  bank := bits c.c1.toNat 2 2
  tile := if c.followKind = 1 then 0 else bits c.c1.toNat 4 3
  srcTile := 0
  row := 0
  srow := 0
  rows := if c.followKind = 1 then 128 else bits c.c1.toNat 24 16 + 1
  record := r
  off := 0
  scale := 0
  pages := []
  flag := none
  started := false
  next := 0
  paused := false
  fstat := 0
  poison := none
  copy := some c.key
  lane := 0
  pc := c.pc
  cycle := 0

/-- CPYM_FOLLOW_ON (R267): the command is checked as if the producer issued it now; one that is refused writes MATRIX_FORMAT.
It waits for room in the queue, and while the team is off its core or has its array spilt. -/
def execCpymFollowOn (copy : Nat) (s : State) : Result :=
  match s.copy copy with
  | none => .next s
  | some c =>
    let live := c.state = .written || c.state = .active
    if c.form ≠ .cpym || c.followKind = 0 || c.failAt.isSome || !live || c.next < c.units then .next s
    else match s.flight c.flight, s.team c.team with
      | some f, some t =>
        if (s.teamFrame t).isSome || t.spills.contains .array then .next s
        else
          if Config.matrixQueue ≤ (s.mxq.filter fun x => x.team = t.key).length then .next s
          else match s.copyRecord f c (bits c.c1.toNat 15 8) with
            | (s, none) => .next s
            | (s, some r) =>
              let m := s.mxCore t.core
              let alloc := ((s.variantOf t).map Variant.scratch).getD 0
              let cmd : MxCmd := { c.followCmd r with lane := lowestLane f.em }
              let ctl := wd (cmd.rows - 1)
              let ok := !f.role.isOwner && m.team = some t.key && match cmd.check m ctl alloc with
                | .ok _ => true
                | .error _ => false
              if !ok then .next (s.putCopy { c with failAt := some (0, 0x0D, 0), state := .written })
              else .next ((s.enterMx t.core (s.now t.vd) cmd).putCopy { c with state := .following s.nextKey })
      | _, _ => .next s

end Sys2Proof.Machine
end

