-- ==== Sys2Proof/Machine/Distiller.lean ====
section
/-!
DEFINITION. The distiller (11 R260 to R263; 13 R291): essence blocks, code-length tables, decoding, the takes of its input
buffer, and the engine's beats.
-/

namespace Sys2Proof.Machine

/-! ### Headers (R260) -/

structure EssHead where
  magic : Nat
  fmt   : Nat
  raw   : Nat
  coded : Nat
  table : Nat
  crc   : Nat
  deriving DecidableEq, Repr

def essHead (b : List Byte) : EssHead :=
  let n (o k : Nat) : Nat := leNat ((b.drop o).take k)
  ⟨n 0 2, n 2 1, n 4 4, n 8 4, n 12 2, n 16 4⟩

def EssHead.rawOk (h : EssHead) : Bool := 16 ≤ h.raw && h.raw ≤ 2 ^ 20 && h.raw % 16 = 0

def EssHead.ok (h : EssHead) : Bool :=
  h.magic = 0xE55E && h.fmt ≤ 2 && h.rawOk
    && (if h.fmt = 0 then h.coded = h.raw else if h.fmt = 1 then 128 ≤ h.coded else 1 ≤ h.coded)

def align32 (n : Nat) : Nat := (n + 31) / 32 * 32

/-- The source bytes that `n` blocks take, as far as the bytes read tell. -/
def essNeed : Nat → List Byte → Nat
  | 0, _ => 0
  | n + 1, b =>
    if b.length < 32 then 32
    else
      let h := essHead b
      if !h.ok then 32
      else if n = 0 then 32 + h.coded
      else
        let next := align32 (32 + h.coded)
        if b.length < next then next + 32 else next + essNeed n (b.drop next)

/-! ### Code-length tables (R261) -/

/-- The lengths of the 256 symbols. -/
def codeLens (tab : List Byte) : List Nat := (List.range 256).map fun s => (tab.getD (s / 2) 0).toNat / 16 ^ (s % 2) % 16

def lensOk (ls : List Nat) : Bool :=
  ls.all (· ≤ 12) && ls.any (· ≠ 0) && (ls.foldl (fun n l => if l = 0 then n else n + 2 ^ (12 - l)) 0) ≤ 4096

/-- A code: symbol, length and value. -/
structure Code where
  sym : Nat
  len : Nat
  val : Nat
  deriving DecidableEq, Repr

/-- Canonical codes: present symbols by length, then by value. -/
def codesOfLens (ls : List Nat) : List Code :=
  let syms : List (Nat × Nat) := (List.range 12).flatMap fun n => ((List.range 256).filter fun s => ls.getD s 0 = n + 1).map fun (s : Nat) => (s, n + 1)
  (syms.foldl (fun (cs : List Code) p => match cs.getLast? with
    | some c => cs ++ [⟨p.1, p.2, (c.val + 1) * 2 ^ (p.2 - c.len)⟩]
    | none => [⟨p.1, p.2, 0⟩]) [])

/-! ### Decoding (R261) -/

/-- Bits of bytes, each from bit 7 down. -/
def bitsOf (bs : List Byte) : List Bool := bs.flatMap fun b => [7, 6, 5, 4, 3, 2, 1, 0].map fun i => b.getLsbD i

/-- One symbol read: the symbol and the bits left; no code of up to 12 bits matches; or the bits end first. -/
inductive SymRead where
  | sym (s len : Nat) (rest : List Bool)
  | noCode
  | short
  deriving DecidableEq, Repr

def readSym (cs : List Code) : Nat → Nat → Nat → List Bool → SymRead
  | 0, _, _, _ => .noCode
  | _ + 1, _, _, [] => .short
  | k + 1, acc, n, b :: bs =>
    let acc := 2 * acc + (if b then 1 else 0)
    match cs.find? fun c => c.len = n + 1 && c.val = acc with
    | some c => .sym c.sym (n + 1) bs
    | none => readSym cs k acc (n + 1) bs

/-- What a stream decodes to: its bytes, the bit at which each symbol ends, and how it ends: complete, malformed, or no more
bits. -/
inductive StreamEnd where
  | complete | malformed | more
  deriving DecidableEq, Repr

structure Decoded where
  out  : List Byte
  ends : List Nat
  fin  : StreamEnd
  deriving DecidableEq, Repr

def readSyms (cs : List Code) : Nat → Nat → List Bool → Decoded
  | 0, _, _ => ⟨[], [], .complete⟩
  | n + 1, at', bs =>
    match readSym cs 12 0 0 bs with
    | .sym s len rest =>
      let d := readSyms cs n (at' + len) rest
      ⟨BitVec.ofNat 8 s :: d.out, (at' + len) :: d.ends, d.fin⟩
    | .noCode => ⟨[], [], .malformed⟩
    | .short => ⟨[], [], .more⟩

/-- CRC-32C of bytes. -/
def crcByte (c : Nat) (b : Byte) : Nat :=
  (List.range 8).foldl (fun c _ => if c % 2 = 1 then (c / 2) ^^^ 0x82F63B78 else c / 2) (c ^^^ b.toNat)
def crc32c (bs : List Byte) : Nat := bs.foldl crcByte 0xFFFFFFFF ^^^ 0xFFFFFFFF

/-! ### Blocks as they come -/

/-- Bytes from a source position on that have been placed in the distiller's buffer. -/
def Copy.placedFrom (c : Copy) (at' : Nat) : List Byte := (c.buf.drop (at' - c.srcAt)).take (c.placed - at')

/-- Where the code stream or stored payload starts. -/
def streamAt (h : EssHead) : Nat := if h.fmt = 1 then 160 else 32

/-- The code-length table of block `n`, whose bytes from its header on are `b`. -/
def Copy.tableBytes (c : Copy) (n : Nat) (h : EssHead) (b : List Byte) : List Byte :=
  if h.fmt = 1 then (b.drop 32).take 128 else ((kget Prod.fst n c.tabs).map Prod.snd).getD []

/-- The table that a format-2 block names lies past the record's extent. -/
def Copy.tablePast (c : Copy) (h : EssHead) : Bool := h.fmt = 2 && c.table.extent < 128 * h.table + 128

/-- What is known of block `n`'s form from its bytes `b`: malformed from its header or table on, a table still to come, or
ready to decode. -/
inductive EssForm where
  | bad | wants | ready
  deriving DecidableEq, Repr

def Copy.essForm (c : Copy) (n : Nat) (b : List Byte) : EssForm :=
  let h := essHead b
  if b.length < 32 then .wants
  else if !h.ok || c.tablePast h then .bad
  else if h.fmt = 0 then .ready
  else
    let t := c.tableBytes n h b
    if t.length < 128 then .wants else if lensOk (codeLens t) then .ready else .bad

/-- Its payload's stream decoded as far as the bytes tell (R261). -/
def Copy.decode (c : Copy) (n : Nat) (b : List Byte) : Decoded :=
  let h := essHead b
  let size := 32 + h.coded - streamAt h
  let payload := (b.drop (streamAt h)).take size
  if h.fmt = 0 then ⟨payload, [], if payload.length = h.raw then .complete else .more⟩
  else
    let d := readSyms (codesOfLens (codeLens (c.tableBytes n h b))) h.raw 0 (bitsOf payload)
    if d.fin = .more && payload.length = size then { d with fin := .malformed } else d

/-- The ends of the distiller's takes of a stream, in its bytes, each through the last bit of up to 32 symbols. -/
def streamTakes (ends : List Nat) : List Nat :=
  ((List.range ((ends.length + 31) / 32)).map fun i => (ends.getD (min (32 * i + 31) (ends.length - 1)) 0 + 7) / 8)

/-! ### Takes (13 R291) -/

/-- Up to 32 bytes, never crossing a 32-byte boundary of the source. -/
def chunkEnd (at' last : Nat) : Nat := min last ((at' / 32 + 1) * 32)

/-- The block's last code or stored byte has been taken: the next block follows, or bytes to skip. -/
def Copy.tookBlock (c : Copy) (h : EssHead) : Copy :=
  let next := c.tkAt + if c.tkBlock + 1 = c.blocks then 32 + h.coded else align32 (32 + h.coded)
  if next ≤ c.taken then { c with tkBlock := c.tkBlock + 1, tkAt := next, tkEnd := 0 } else { c with tkEnd := next }

/-- One cycle's take, if all its bytes are in the buffer. -/
def Copy.take (c : Copy) : Copy :=
  if c.blocks ≤ c.tkBlock then c
  else if c.tkEnd ≠ 0 then
    let e := chunkEnd c.taken c.tkEnd
    if c.placed < e then c
    else if e < c.tkEnd then { c with taken := e }
    else { c with taken := e, tkBlock := c.tkBlock + 1, tkAt := e, tkEnd := 0 }
  else
    let t := c.taken - c.tkAt
    let b := c.placedFrom c.tkAt
    let h := essHead b
    let upTo (e : Nat) : Copy := if c.tkAt + e ≤ c.placed then { c with taken := c.tkAt + e } else c
    if t < 32 then upTo 32
    else if h.ok && !c.tablePast h && h.fmt = 1 && t < 160 then upTo 160
    else if c.essForm c.tkBlock b ≠ .ready then c
    else if h.fmt = 0 then
      let c := upTo (chunkEnd c.taken (c.tkAt + 32 + h.raw) - c.tkAt)
      if c.taken = c.tkAt + 32 + h.raw then c.tookBlock h else c
    else
      let d := c.decode c.tkBlock b
      let all := streamTakes d.ends
      let es := if d.fin = .more then all.take (d.ends.length / 32) else all
      let c := upTo ((es.map (streamAt h + ·)).find? (t < ·) |>.getD t)
      if d.fin = .complete && c.tkAt + streamAt h + all.getLastD 0 ≤ c.taken then c.tookBlock h else c

/-- The block that the distiller takes is malformed, so that it takes no more. -/
def Copy.stuck (c : Copy) : Bool :=
  let b := c.placedFrom c.tkAt
  c.tkBlock < c.blocks && c.tkEnd = 0 && c.tkAt + 32 ≤ c.taken
    && (c.essForm c.tkBlock b = .bad && ((essHead b).fmt ≠ 1 || !(essHead b).ok || c.tkAt + 160 ≤ c.taken)
      || (c.essForm c.tkBlock b = .ready && (c.decode c.tkBlock b).fin = .malformed && c.take = c))

/-! ### Beats (R249, R263; 13 R291) -/

/-- The one CPYZ of its core that the distiller serves. -/
def State.inDistiller (s : State) (c : Copy) : Bool :=
  s.copies.all fun k => k.core ≠ c.core || k.form ≠ .cpyz || c.key ≤ k.key || !k.state.started || k.state = .written

/-- The source bytes at positions, up to the end of the extent. -/
def Copy.srcRefs (c : Copy) (from' n : Nat) : List CopyRef :=
  ((List.range n).map fun i => c.src.ref (c.src.off + from' + i)).takeWhile (· ≠ .out)

/-- The engine reads on, up to `room` bytes and as far as the headers tell, at most `fuel` pieces; the state and the copy, or
none where it waits. -/
def State.readOn (s : State) (f : Flight) (c : Copy) : Nat → Nat → State × Option Copy
  | 0, _ => (s, some c)
  | fuel + 1, room =>
    let known := c.srcAt + essNeed (c.blocks - c.block) c.buf
    let refs := c.srcRefs c.got (min room (known - c.got))
    if refs = [] then (s, some c)
    else
      let u : CopyUnit := ⟨c.got, refs, [], [], []⟩
      match s.unitReady f c u with
      | (s, none) => (s, none)
      | (s, some ps) =>
        let bad := ((List.range refs.length).filter fun i => s.refBad c c.src.record ps (refs.getD i .out)).map fun i => (c.got + i) / 64
        let r := s.readRefs f c c.src.record ps refs
        let s : State := (r.1.charge f refs.length).served (.copy c.key)
        let c : Copy := { c with got := c.got + refs.length, buf := c.buf ++ r.2.drop (c.srcAt - c.got), bad := (c.bad ++ bad).dedup }
        (s.putCopy c).readOn f c fuel (room - refs.length)

/-- The table that a format-2 block names, read and translated as the source is, when the distiller comes to it. -/
def State.readTable (s : State) (f : Flight) (c : Copy) : State × Option Copy :=
  let b := c.placedFrom c.tkAt
  let h := essHead b
  let wants := c.tkBlock < c.blocks && c.tkEnd = 0 && c.tkAt + 32 ≤ c.taken && h.fmt = 2 && c.essForm c.tkBlock b = .wants
  if !wants then (s, some c)
  else
    let refs := (List.range 128).map fun i => CopyRef.va ((c.table.base + 128 * h.table + i) % vaMod)
    match s.unitReady f c ⟨0, refs, [], [], []⟩ with
    | (s, none) => (s, none)
    | (s, some ps) =>
      let bad := if refs.any (s.refBad c c.table ps) then [c.tkAt / 64] else []
      let r := s.readRefs f c c.table ps refs
      let c : Copy := { c with tabs := kset Prod.fst (c.tkBlock, r.2) c.tabs, bad := (c.bad ++ bad).dedup }
      ((r.1.served (.copy c.key)).putCopy c, some c)

/-- Every block is written and every byte of the last one taken. -/
def Copy.essDone (c : Copy) : Copy :=
  if c.state = .active && c.blocks ≤ c.block && c.blocks ≤ c.tkBlock && c.bad = [] then { c with state := .written, buf := [] } else c

/-- The engine places the beat that it holds, if the buffer has room for it; else the cycle is a stall (R263). -/
def State.placeBeat (s : State) (f : Flight) (c : Copy) : State :=
  if c.got ≤ c.placed then s.putCopy c.essDone
  else if c.got ≤ c.taken + 1024 then s.putCopy { c with placed := c.got }
  else if c.stuck then s
  else s.count f.vd 0x14 1

/-- One cycle of a CPYZ: the distiller takes, then the engine places the beat that it holds. While a read of the engine waits for
a walk or a fault, the distiller takes on, and a whole beat may be placed. -/
def State.distillBeat (s : State) (f : Flight) (c : Copy) : State :=
  let c := c.take
  let s : State := s.putCopy c
  if c.state ≠ .active then (if c.got = c.placed + 256 then s.placeBeat f c else s)
  else match s.readTable f c with
    | (s, none) => (if c.got = c.placed + 256 then ((s.copy c.key).map (s.placeBeat f)).getD s else s)
    | (s, some c) =>
      match s.readOn f c 16 (c.placed + 256 - c.got) with
      | (s, none) => s
      | (s, some c) => s.placeBeat f c

/-- COPY_ENGINE_BEAT (R249): the engine serves the active copies in turn; the distiller of a CPYZ that waits takes on. -/
def execCopyEngineBeat (copy : Nat) (answer : PeerAnswer) (s : State) : Result :=
  match s.copy copy with
  | none => .next s
  | some c =>
    match s.flight c.flight with
    | none => .next s
    | some f =>
      if c.state = .active then
        if (s.nextServed c.core).map Copy.key ≠ some c.key then .next s
        else .next ((if c.form = .cpyz then s.distillBeat f c else s.beat f c answer).tookTurn c)
      else
        let waits := match c.state with
          | .walking | .faulted | .paused _ => true
          | _ => false
        if c.form = .cpyz && waits && s.inDistiller c then .next (s.distillBeat f c) else .next s

/-! ### Output (R256, R262; 05 R142) -/

/-- The output is a DX encoding. -/
def Copy.dxOut (c : Copy) : Bool := c.essConverts && isDxEnc c.outEnc

/-- Raw bytes of 32 elements, a multiple of which starts each piece of the conversion. -/
def Copy.pieceBytes (c : Copy) : Nat := 16 * encNib c.rawEnc

/-- Bytes that `raw` bytes of raw output come to. -/
def Copy.outBytes (c : Copy) (raw : Nat) : Nat :=
  if !c.essConverts then raw else (2 * raw / encNib c.rawEnc * encNib c.outEnc + 1) / 2

/-- Where the output of `raw` more bytes ends, from the destination's start: a DX block that they do not fill is completed. -/
def Copy.outEnd (c : Copy) (raw : Nat) : Nat :=
  let e := c.outAt + c.outBytes raw
  if c.dxOut then (e + dxBlockBytes c.outEnc - 1) / dxBlockBytes c.outEnc * dxBlockBytes c.outEnc else e

/-- Pieces of 32 elements from piece `q` of the raw output on: data, scale bytes and flags. A piece that is not full is completed
under DX; unless it ends the copy, its flags are those of its completion by the next block. The exponents of a raw DX encoding,
which the manual does not give, are free (log 19). -/
def Copy.essPieces (c : Copy) (ends : Bool) : Nat → Nat → List Byte → List Byte × List Byte × Flags
  | 0, _, _ => ([], [], Fl.none)
  | k + 1, q, bs =>
    if bs = [] then ([], [], Fl.none)
    else
      let n := encNib c.rawEnc
      let piece := bs.take c.pieceBytes
      let codes := (List.range (2 * piece.length / n)).map fun i => codeAt piece n (i * n)
      let sc := [(Config.freeWord c.key (2 ^ 26 + 2 * q)).setWidth 8, (Config.freeWord c.key (2 ^ 26 + 2 * q + 1)).setWidth 8]
      let a := copyBlock c.rawEnc c.outEnc c.dst.rnd c.dst.sat c.dst.record.dxD 0 codes sc
      let r := c.essPieces ends k (q + 1) (bs.drop c.pieceBytes)
      let fl := if ends || !c.dxOut || piece.length = c.pieceBytes then a.2.2 else Fl.none
      (a.1 ++ r.1, a.2.1 ++ r.2.1, fl ||| r.2.2)

/-- The output that follows from raw bytes of the current block: data from the first byte of `carry` on, scale bytes, flags. -/
def Copy.essOut (c : Copy) (raw : List Byte) (ends : Bool) : List Byte × List Byte × Flags :=
  if !c.essConverts then (raw, [], Fl.none)
  else c.essPieces ends ((c.carry.length + raw.length) / c.pieceBytes + 1) (c.rawAt / c.pieceBytes) (c.carry ++ raw)

/-- Where that output starts, from the destination's start. -/
def Copy.outFrom (c : Copy) : Nat := c.outAt - c.outBytes c.carry.length

/-- The raw bytes kept for the next block: of the piece that `raw` more bytes do not fill. -/
def Copy.carried (c : Copy) (raw : List Byte) : List Byte :=
  if !c.essConverts || !(isDxEnc c.outEnc || isDxEnc c.rawEnc) then []
  else let all := c.carry ++ raw; all.drop (all.length / c.pieceBytes * c.pieceBytes)

/-- The destination bytes at places `lo` to `hi` of the output, and the scale bytes of its DX blocks. -/
def Copy.outRefs (c : Copy) (lo hi : Nat) : List CopyRef := (List.range (hi - lo)).map fun i => c.dst.ref (c.dst.off + lo + i)
def Copy.outScale (c : Copy) (lo hi : Nat) : List CopyRef :=
  if !c.dxOut then []
  else
    let n := dxBlockBytes c.outEnc
    (List.range ((hi - lo + n - 1) / n)).flatMap fun q => c.dst.scaleRef ((c.dst.off + lo) / n + q)

/-- The end of the window that a scratchpad destination declares. -/
def Copy.windowEnd (c : Copy) : Option Nat :=
  if c.dst.isScratch && c.win ≠ 0 then some (16 * (c.dst.off / 16 + c.win)) else none

/-- Output to place `hi` would pass the window, the allocation or the destination's extent. -/
def Copy.outPast (c : Copy) (alloc hi : Nat) : Bool :=
  let last := c.dst.off + hi
  (match c.windowEnd with
    | some e => e < last
    | none => false)
    || (if c.dst.isScratch then alloc < last || (padsOf (c.outScale c.outFrom hi)).any (alloc ≤ ·)
      else !c.dst.record.spanIn (c.dst.off + c.outAt) last)

/-- A destination byte that a failing block may have written: within the extent, or within the window and the allocation. -/
def Copy.outIn (c : Copy) (alloc : Nat) : CopyRef → Bool
  | .va _ => true
  | .pad o => o < min alloc (c.windowEnd.getD alloc)
  | .out => false

/-- A scale byte that it may have written: no window holds it. -/
def Copy.scaleIn (alloc : Nat) : CopyRef → Bool
  | .pad o => o < alloc
  | .va _ => true
  | .out => false

/-- What a block writes: its data and scale bytes, as far as they lie inside. -/
def Copy.outWrites (c : Copy) (alloc : Nat) (out sc : List Byte) : List (CopyRef × Byte) :=
  let lo := c.outFrom
  ((c.outRefs lo (lo + out.length)).zip out).filter (fun w => c.outIn alloc w.1)
    ++ ((c.outScale lo (lo + out.length)).zip sc).filter fun w => Copy.scaleIn alloc w.1

/-- The block reaches past the source's extent. -/
def Copy.srcPast (c : Copy) (n : Nat) : Bool := !c.src.record.spanIn (c.src.off + c.srcAt) (c.src.off + c.srcAt + n)

/-- The granules that an early stop poisons, from place `lo` of the output: with a window the rest of it, else the failing block's
output, to place `hi`, where its header tells. -/
def Copy.stopGrans (c : Copy) (alloc lo : Nat) (hi : Option Nat) : List Nat :=
  if !c.dst.isScratch then []
  else
    let last := match c.windowEnd, hi with
      | some e, _ => e
      | none, some n => c.dst.off + n
      | none, none => 0
    let a := c.dst.off + lo
    gransOf ((List.range (min last alloc - a)).map fun i => a + i)

/-- Global bytes of a failing block stand as written, or do not, line by line as the run's choice falls; those of the scratchpad
granule by granule, if `pads`. -/
def State.writeSome (s : State) (f : Flight) (c : Copy) (ps : List (Nat × Nat × Bool)) (ws : List (CopyRef × Byte)) (pads : Bool) :
    State :=
  let n := s.free
  s.drawn.writeRefs f c ps (ws.filter fun w => match w.1 with
    | .va a => Config.freeBit n ((pagePhys ps a).1 / 128)
    | .pad o => pads && Config.freeBit n (o / 16)
    | .out => false) .poisonedChecksum

/-- The copy stops, with the granules that this poisons. -/
def State.stopEssence (s : State) (c c' : Copy) (gs : List Nat) (g : Granule) : State :=
  let s : State := if gs = [] then s else s.scratchEngine c.team [] g gs
  (s.putCopy { c' with buf := [] }).served (.copy c.key)

/-! ### A block decoded (R262) -/

/-- The current block has been written: the next one. -/
def Copy.nextBlock (c : Copy) (h : EssHead) (raw : List Byte) : Copy :=
  let last := c.blocks ≤ c.block + 1
  let next := c.srcAt + if last then 32 + h.coded else align32 (32 + h.coded)
  { c with
    block := c.block + 1
    outAt := c.outAt + c.outBytes h.raw
    carry := c.carried raw
    rawAt := c.rawAt + h.raw
    srcAt := next
    buf := c.buf.drop (next - c.srcAt) }

/-- A block whose header, table and payload have all been taken. -/
def State.distill (s : State) (f : Flight) (c : Copy) (alloc : Nat) : State :=
  let b := c.placedFrom c.srcAt
  let h := essHead b
  let hi := c.outEnd h.raw
  let gs := c.stopGrans alloc c.outAt (if 32 ≤ b.length && h.rawOk then some hi else none)
  let failed := c.failed c.srcAt 0x30 c.block
  if c.essForm c.block b ≠ .ready then s.stopEssence c failed gs .poisonedChecksum
  else
    let d := c.decode c.block b
    let whole := d.fin = .complete && !c.srcPast (32 + h.coded) && !c.outPast alloc hi
    let raw := if whole then d.out else d.out.take (d.out.length / 4 * 4)
    let (out, sc, fl) := c.essOut raw (c.blocks ≤ c.block + 1)
    let ws := c.outWrites alloc out sc
    match s.unitReady f c ⟨0, [], [], ws.map Prod.fst, []⟩ with
    | (s, none) => s
    | (s, some ps) =>
      if !whole then (s.writeSome f c ps ws true).stopEssence c { failed with fstat := c.fstat ||| fl } gs .poisonedChecksum
      else
        let good := crc32c d.out = h.crc
        let g : Granule := if good then .full else .poisonedChecksum
        let c : Copy := if good then c else c.note c.srcAt 0x0A c.block
        let own := padsOf (c.outRefs c.outAt hi)
        let s : State := s.writeRefsIn f c ps ws g (gransOf (own ++ padsOf (c.outScale c.outFrom hi)))
        (s.putCopy ({ c.nextBlock h d.out with fstat := c.fstat ||| fl } : Copy).essDone).served (.copy c.key)

/-- The source position before which all lies that the current block's output, or the finding that it is malformed, derives
from. -/
def Copy.needEnd (c : Copy) : Nat :=
  let h := essHead c.buf
  if c.blocks ≤ c.block then c.srcAt
  else match c.essForm c.block c.buf with
    | .wants => c.srcAt + if 32 ≤ c.buf.length && h.fmt = 1 then 160 else 32
    | .bad => c.srcAt + if h.ok && h.fmt = 1 then 160 else 32
    | .ready =>
      let d := c.decode c.block c.buf
      match d.fin with
      | .more => c.srcAt + 32 + h.coded
      | .complete => c.srcAt + if h.fmt = 0 then 32 + h.raw else streamAt h + (d.ends.getLastD 0 + 7) / 8
      | .malformed => c.srcAt + min (32 + h.coded) (streamAt h + (d.ends.getLastD 0 + 12 + 7) / 8)

/-- The first poisoned 64-byte source block from which it derives. -/
def Copy.badBlock (c : Copy) : Option Nat := (c.bad.filter fun k => 64 * k < c.needEnd).min?

/-- The header lies past the source's extent, so that no bytes of it come; or the block does. -/
def Copy.pastSource (c : Copy) : Bool :=
  c.tkBlock = c.block && ((c.srcPast 32 && c.taken ≤ c.srcAt + 32)
    || (c.srcAt + 32 ≤ c.taken && c.srcPast (32 + (essHead (c.placedFrom c.srcAt)).coded)))

def State.allocOf (s : State) (c : Copy) : Nat := ((s.team c.team).bind fun t => (s.variantOf t).map Variant.scratch).getD 0

/-- DISTILLER_BLOCK (R262): the oldest block that has been taken whole, or is malformed, is decoded and written. -/
def execDistillerBlock (copy : Nat) (s : State) : Result :=
  match s.copy copy with
  | none => .next s
  | some c =>
    match s.flight c.flight with
    | none => .next s
    | some f =>
      let taken := c.block < c.tkBlock || c.tkEnd ≠ 0 || c.stuck || c.pastSource
      if c.form ≠ .cpyz || c.state ≠ .active || !s.inDistiller c || c.blocks ≤ c.block || c.badBlock.isSome || !taken then .next s
      else .next (s.distill f c (s.allocOf c))

/-! ### A poisoned source block (R258) -/

/-- A CPYZ fails at source block `k`: what derives from the blocks before it is written, its granules Full; the rest of the
current block's output is poisoned, or in global memory stands or does not. DEDUCED (log 87): R258 over R262's last sentence,
and the blocks after the current one, which nothing locates, write nothing. -/
def State.essFailure (s : State) (f : Flight) (c : Copy) (alloc : Nat) : State :=
  match c.badBlock with
  | none => s
  | some k =>
    let lim := 64 * k - c.srcAt
    let ok := c.buf.take lim
    let failed := c.failed (64 * k) 9 k
    if c.blocks ≤ c.block || c.essForm c.block ok ≠ .ready then
      let hi := if 32 ≤ ok.length && (essHead ok).rawOk then some (c.outEnd (essHead ok).raw) else none
      s.stopEssence c failed (if c.blocks ≤ c.block then [] else c.stopGrans alloc c.outAt hi) .poisonedError
    else
      let h := essHead ok
      let unit := if c.dxOut then c.pieceBytes else (encNib c.rawEnc + 1) / 2
      let head := (c.decode c.block ok).out
      let whole := (c.carry.length + head.length) / max 1 unit * unit - c.carry.length
      let (out, sc, fl) := c.essOut (head.take whole) false
      let (out', sc', _) := c.essOut ((c.decode c.block c.buf).out) true
      let ws := c.outWrites alloc out sc
      let rest := (c.outWrites alloc out' sc').filter fun w => !(ws.map Prod.fst).contains w.1
      let lo := max c.outAt (c.outFrom + out.length)
      let hi := c.outEnd h.raw
      let scale := gransOf ((padsOf (c.outScale (c.outFrom + out.length) hi)).filter (· < alloc))
      match s.unitReady f c ⟨0, [], [], (ws ++ rest).map Prod.fst, []⟩ with
      | (s, none) => s
      | (s, some ps) =>
        let s : State := (s.writeRefs f c ps ws .full).writeSome f c ps rest false
        s.stopEssence c { failed with fstat := c.fstat ||| fl } (c.stopGrans alloc lo (some hi) ++ scale) .poisonedError

/-- COPY_SOURCE_FAILURE (R258). -/
def execCopySourceFailure (copy : Nat) (s : State) : Result :=
  match s.copy copy with
  | none => .next s
  | some c =>
    match s.flight c.flight with
    | none => .next s
    | some f =>
      if c.state ≠ .active then .next s
      else if c.form = .cpyz then .next (if s.inDistiller c then s.essFailure f c (s.allocOf c) else s)
      else .next (s.unitFailure f c)

end Sys2Proof.Machine
end

