-- ==== Sys2Proof/Machine/Owner.lean ====
section
/-!
DEFINITION. Owner instructions (15 R354 to R363) and CTXSV, CTXLD (14 R324). Checks and traps are at issue; what completes
later is a SysOp.
-/

namespace Sys2Proof.Machine

/-! ### Roles and operands (R329, R354) -/

/-- The roles of R329. -/
inductive Who where
  | collapsed | walk | fault
  deriving DecidableEq, Repr

def Role.who : Role → Who
  | .walk => .walk
  | .fault _ => .fault
  | _ => .collapsed

/-- The flight's role is one that the instruction accepts. -/
def Ctx.roleIn (c : Ctx) (rs : List Who) : Bool := rs.contains c.f.role.who

/-- The owner lane, in which operands are read. -/
def Ctx.oLane (c : Ctx) : Nat := c.f.role.ownerLane

/-- Nothing is performed under EM zero (03 R91). -/
def Ctx.idle (c : Ctx) : Bool := c.f.em = 0

def Ctx.oPair (c : Ctx) (slot : Nat) (v : BitVec 8) : DWord := c.pairAt slot v c.oLane
def Ctx.oWord (c : Ctx) (slot : Nat) (v : BitVec 8) : Word := (c.src slot v).at c.oLane

def Ctx.ow (c : Ctx) : Owner := c.s.owner c.f.vd

/-- A system operation enters. -/
def Ctx.sysOp (c : Ctx) (s : State) (k : SysKind) : State :=
  let op : SysOp := ⟨s.nextKey, c.f.key, k, c.x.d.toNat, c.f.em, c.flag, c.f.pc⟩
  ({ s with sysOps := s.sysOps ++ [op] } : State).freshKey

/-! ### OWNGET, OWNSET (R334 to R336, R355) -/

/-- Registers that a pair holds. -/
def ownWide (n : Nat) : Bool := n ≤ 0x06 || n = 0x09 || n = 0x0A || n = 0x0F || (0x40 ≤ n && n ≤ 0x7F)

/-- Registers marked C. -/
def ownCollapsed (n : Nat) : Bool := 0x08 ≤ n && n ≤ 0x0C

/-- OWN.TCAUSE. -/
def TrapSave.word (t : TrapSave) : Word := (0 : BitVec 8) ++ t.imm ++ (0 : BitVec 3) ++ t.lane ++ t.cause

/-- The value of an owner register. -/
def Ctx.ownReg (c : Ctx) (n : Nat) : Option DWord :=
  let o := c.ow
  match n with
  | 0x00 => some o.vbase
  | 0x01 => some o.vlimit
  | 0x02 => some o.tvec
  | 0x03 => some o.wq
  | 0x04 => some o.fq
  | 0x05 => some o.fpool
  | 0x06 => some o.tree
  | 0x07 => some (o.asid.setWidth 64)
  | 0x08 => some (c.f.trap.word.setWidth 64)
  | 0x09 => some c.f.trap.tepc
  | 0x0A => some c.f.trap.tdpc
  | 0x0B => some (c.f.trap.em.setWidth 64)
  | 0x0C => some (c.f.trap.tstep.setWidth 64)
  | 0x0D => some (dw c.f.role.code)
  | 0x0E => some (dw o.held)
  | 0x0F => some o.sbuf
  | n => if 0x40 ≤ n && n ≤ 0x7F then some (o.bal.getD (n - 0x40) 0) else none

/-- A register that is there for the flight, through an operand of its width. -/
def Ctx.ownOperand (c : Ctx) (n : Nat) (v : BitVec 8) : Bool :=
  (!ownCollapsed n || !c.f.role.isService) && (!ownWide n || pairOk c.f v.toNat)

def outOwnget (c : Ctx) : Chk FixedOut :=
  let n := c.x.b.toNat
  match c.ownReg n with
  | none => illegalOperand
  | some d =>
    if !c.ownOperand n c.x.d then illegalOperand
    else .ok ⟨Lanes.tab fun _ => loWord d, if ownWide n then some (Lanes.tab fun _ => hiWord d) else none, c.f.em, Fl.none⟩
def opOwnget (v : View) (s : State) : Result := fixedOp 4 v s outOwnget

/-- A structure inside the vestibule. -/
def Owner.ringOk (o : Owner) (d : DWord) : Bool :=
  let v := d.toNat
  bits v 63 52 = 0 && bits v 11 4 = 0 && 6 ≤ bits v 3 0 && bits v 3 0 ≤ 12 && o.inVestibule (Owner.ringBase d) (64 * Owner.ringCap d)

/-- NFRAMES of the pool that a value of OWN.FPOOL names, if the pool is well formed and inside the vestibule (R336, R346). -/
def State.poolOk (s : State) (o : Owner) (d : DWord) : Option Nat :=
  let v := d.toNat
  let base := bits v 51 12 * 4096
  let lg := bits v 4 0
  if bits v 63 52 = 0 && bits v 11 5 = 0 && 12 ≤ lg && lg ≤ 22 && o.inVestibule base 4 then
    let n := leNat (s.bytes base 4)
    if 1 ≤ n && n ≤ 4096 && o.inVestibule base (0x1000 + n * 2 ^ lg) then some n else none
  else none

/-- OWN.FPOOL takes a value: FREE and BITMAP are written (R346). -/
def State.setPool (s : State) (vd : Nat) (d : DWord) (n : Nat) : State :=
  (s.modOwner vd fun o => { o with fpool := d, nframes := n, frames := [] }).writePool vd

/-- The write of an owner register, none where it traps (R336). -/
def Ctx.ownPut (c : Ctx) (n : Nat) (d : DWord) : Option State :=
  let o := c.ow
  let v := d.toNat
  match n with
  | 0x02 => if v % 2 = 0 && o.inVestibule v 2 then some (c.s.putOwner { o with tvec := d }) else none
  | 0x03 =>
    if o.ringOk d && o.walks = [] && o.misses = [] then some (c.s.putOwner { o with wq := d, walkHead := 0, walkTail := 0 }) else none
  | 0x04 =>
    if o.ringOk d && o.faultRing = [] then some (c.s.putOwner { o with fq := d, faultHead := 0, faultTail := 0 }) else none
  | 0x05 => if o.frames ≠ [] then none else (c.s.poolOk o d).map fun n => c.s.setPool c.f.vd d n
  | 0x06 => some (c.s.putOwner { o with tree := d })
  | 0x07 => if v < 65536 then some (c.s.putOwner { o with asid := loWord d }) else none
  | 0x09 => some (c.s.putFlight { c.f with trap := { c.f.trap with tepc := d, tstep := c.f.trap.tstep &&& 0x7FFF } })
  | 0x0B => some (c.s.putFlight { c.f with trap := { c.f.trap with em := loWord d } })
  | 0x0F => some ({ c.s with recs := c.s.recs.filter fun r => r.grid ≠ 2 * c.f.vd + 1 }.putOwner { o with sbuf := d })
  | _ => none

def opOwnset (v : View) (s : State) : Result := ctlOp v s fun c =>
  let n := c.x.b.toNat
  if (c.ownReg n).isNone || !c.ownOperand n c.x.a then illegalOperand
  else if c.idle then .ok (c.s, .seq)
  else
    let d : DWord := if ownWide n then c.oPair 1 c.x.a else (c.oWord 1 c.x.a).setWidth 64
    match c.ownPut n d with
    | some s => .ok (s, .seq)
    | none => illegalOperand

/-! ### LGET, LSET (R356) -/

/-- The selector names a register of the map or a predicate. -/
def Ctx.selOk (c : Ctx) (sel : Nat) : Bool := c.f.present sel || (240 ≤ sel && sel ≤ 246)

def outLget (c : Ctx) : Chk FixedOut :=
  let sel := c.x.c.toNat
  if !c.roleIn [.collapsed] || !c.selOk sel then illegalOperand
  else
    let l := (c.oWord 2 c.x.b).toNat % 32
    let w : Word := if sel < 240 then (c.vreg 3 sel).at l else if (c.predOf 3 (sel - 240)).getLsbD l then 1 else 0
    .ok ⟨Lanes.tab fun _ => w, none, c.f.em, Fl.none⟩
def opLget (v : View) (s : State) : Result := fixedOp 4 v s outLget

/-- The register with lane `l` replaced, under its class (04 R111). -/
def Ctx.laneWrite (c : Ctx) (sel l : Nat) (w : Word) : Chk Flight :=
  let old := c.f.reg sel
  match fitShape (c.f.cls sel) old.stride (laneBit l) (mergeLanes (laneBit l) old.lanes (Lanes.tab fun _ => w)) with
  | .ok r => .ok (c.f.setReg sel r)
  | .error lane => .error (.trap Trap.shapeViolation (some lane))

def opLset (v : View) (s : State) : Result := ctlOp v s fun c =>
  let sel := c.x.c.toNat
  if !c.roleIn [.collapsed] || !c.selOk sel then illegalOperand
  else if c.idle then .ok (c.s, .seq)
  else
    let l := (c.oWord 2 c.x.b).toNat % 32
    let w := c.oWord 1 c.x.a
    if sel < 240 then
      match c.laneWrite sel l w with
      | .error e => .error e
      | .ok f => .ok (c.s.putFlight f, .seq)
    else .ok (c.s.putFlight (c.f.setPred (sel - 240) (laneBit l) (if w.getLsbD 0 then 0xFFFFFFFF else 0)), .seq)

/-! ### XRET, OWNSTALL (R357, R363) -/

def opXret (v : View) (s : State) : Result := ctlOp v s fun c =>
  let t := c.f.trap.tepc
  if !c.roleIn [.collapsed] || t.getLsbD 0 || t >>> 57 ≠ 0 then illegalOperand
  else .ok (c.s.putFlight c.f.xret, .stay)

/-- OWNSTALL: the flight halts past the instruction. -/
def opOwnstall (v : View) (s : State) : Result := issue v s fun c =>
  let k := c.x.c.toNat
  if k < 0x80 then illegalOperand
  else .ok ((c.finish c.s .seq none).stallOwner c.f.vd k 0 c.f.role.code c.oLane c.f.pc 0)

/-! ### WQTAKE, FQTAKE (R358) -/

def takeOp (v : View) (s : State) (who : Who) (k : SysKind) : Result := varOp v s fun c =>
  if !c.roleIn [who] then illegalOperand else .ok (c.sysOp c.s k)

def opWqtake (v : View) (s : State) : Result := takeOp v s .walk .wqtake
def opFqtake (v : View) (s : State) : Result := takeOp v s .fault .fqtake

/-! ### RWALK (R359, R341, R342) -/

/-- The result block: next pointer or physical base, virtual base, KIND word, units. -/
structure WalkOut where
  base  : Nat
  vbase : Nat
  kind  : Nat
  units : Nat
  deriving DecidableEq, Repr

def WalkOut.missed : WalkOut := ⟨0, 0, 2, 0⟩
def WalkOut.next (p : Nat) : WalkOut := ⟨p, 0, 0, 0⟩

/-- The KIND word of a LEAF from the W, X and UC bits. -/
def leafWord (w x uc cls : Nat) : Nat := 1 + 16 * w + 32 * x + 64 * uc + 256 * cls

/-- Pages by class 0 to 3 (R359). -/
def classSize (n : Nat) : Nat :=
  if n = 0 then 0x1000 else if n = 1 then 0x10000 else if n = 2 then 0x200000 else if n = 3 then 0x2000000 else 0x40000000

/-- One step over a node's 256 bytes. -/
def nodeStep (raw : List Byte) (v : Nat) : WalkOut :=
  let q (o : Nat) : Nat := leNat ((raw.drop o).take 8)
  let hdr := q 0
  let key (i : Nat) : Nat := q (8 + 8 * i) % 2 ^ 57
  let c := ((List.range (hdr % 16)).filter fun i => key i ≤ v).length
  if bits hdr 4 4 = 0 then .next (q (0x80 + 8 * c))
  else
    let sl := q (0x80 + 8 * (c - 1))
    let k := key (c - 1)
    if c = 0 || sl % 2 = 0 then .missed
    else if bits sl 1 1 = 0 then
      let units := bits sl 27 5
      let size := units * 0x10000
      let pa := bits sl 63 28 * 0x10000
      if size = 0 || k + size ≤ v then .missed
      else
        let cls := if size = 2 ^ 30 && k % 2 ^ 30 = 0 && pa % 2 ^ 30 = 0 then 4 else 5
        ⟨pa, k, leafWord (bits sl 2 2) (bits sl 3 3) (bits sl 4 4) cls, units⟩
    else
      let lvl := bits sl 3 2
      let span := if lvl = 1 then 2 ^ 30 else 2 ^ 21
      if lvl = 0 || lvl = 3 || k % span ≠ 0 || k + span ≤ v then .missed
      else .next (bits sl 51 12 * 4096 + lvl)

/-- One step over a table's entry. -/
def tableStep (t : Nat) (e v : Nat) : WalkOut :=
  let sz := bits e 5 4
  let pa := bits e 51 12 * 4096
  if e % 2 = 0 || sz = 3 || (t = 2 && 2 ≤ sz) then .missed
  else if t = 1 && sz = 2 then .next (pa + 2)
  else
    let cls := if t = 1 then 2 + sz else sz
    let n := classSize cls
    if pa % n ≠ 0 then .missed else ⟨pa, v / n * n, leafWord (bits e 1 1) (bits e 2 2) (bits e 3 3) cls, 0⟩

/-- The bytes that a step reads: address and length. -/
def walkRange (p v : Nat) : Nat × Nat :=
  let t := p % 4
  let base := p - t
  if t = 0 then (base, 256) else (base + 8 * (if t = 1 then bits v 29 21 else bits v 20 12), 8)

def walkStep (p v : Nat) (raw : List Byte) : WalkOut := if p % 4 = 0 then nodeStep raw v else tableStep (p % 4) (leNat raw) v

def opRwalk (v : View) (s : State) : Result := varOp v s fun c =>
  let p := c.oPair 1 c.x.a
  let a := c.oPair 2 c.x.b
  let op (s : State) : State := c.sysOp s (.rwalk p a)
  if c.idle then .ok (op c.s)
  else if a >>> 57 ≠ 0 || p.toNat % 4 = 3 || p >>> 52 ≠ 0 then illegalOperand
  else if (p.toNat - p.toNat % 4) % (if p.toNat % 4 = 0 then 256 else 4096) ≠ 0 then .error (.trap Trap.misaligned none)
  else
    let r := walkRange p.toNat a.toNat
    match c.physical r.1 r.2 with
    | .error e => .error e
    | .ok _ => .ok (op c.s)

/-! ### TLBPUT (R360) -/

/-- The block and control of a TLBPUT. -/
structure PutArgs where
  pa    : Nat
  va    : Nat
  word  : Nat
  units : Nat
  ctl   : Nat
  deriving DecidableEq, Repr

def PutArgs.pre (a : PutArgs) : Bool := a.ctl % 2 = 1
def PutArgs.kind (a : PutArgs) : Nat := a.word % 4
def PutArgs.cls (a : PutArgs) : Nat := bits a.word 10 8
def PutArgs.size (a : PutArgs) : Nat := if 4 ≤ a.cls then a.units * 0x10000 else classSize a.cls
def PutArgs.entry (a : PutArgs) (o : Owner) (asid : Nat) : TlbEntry :=
  ⟨o.vd, asid, a.va, a.size, o.onPort a.pa, bits a.word 4 4 = 1, bits a.word 5 5 = 1, bits a.word 6 6 = 1⟩

/-- The banks of the partition that serve some page of a range. -/
def State.banksFor (s : State) (vd va size : Nat) : List Nat :=
  (s.banksOf vd).filter fun b => (List.range (size / 4096)).any fun i => s.bankOf vd (va + 4096 * i) = b

/-- A LEAF block that may not be installed. -/
def PutArgs.bad (a : PutArgs) (req : Option WalkReq) : Bool :=
  let al := if a.cls = 5 then min a.size 0x10000 else a.size
  a.size = 0 || a.pa % al ≠ 0 || a.va % al ≠ 0
    || (match req with
      | some r => !(a.va ≤ r.va && r.va < a.va + a.size)
      | none => false)

/-- What TLBPUT does once its checks have passed: install, then release or fault the waiters. -/
def State.tlbput (s : State) (vd : Nat) (a : PutArgs) (req : Option WalkReq) : State :=
  match req with
  | none =>
    if a.kind = 1 then
      let e := a.entry (s.owner vd) (a.ctl / 65536)
      (s.banksFor vd a.va a.size).foldl (fun s b => s.l3Install b e) s
    else s
  | some r =>
    let s : State := if a.kind = 1 && !r.stale then s.l3Install (s.bankOf vd r.va) (a.entry (s.owner vd) r.asid) else s
    let s : State := s.endWalk vd r.slot
    let e := a.entry (s.owner vd) r.asid
    r.waiters.foldl (fun s w =>
      let cause : Option Nat := if r.stale then none else if a.kind = 2 then some 0 else if w.2.1.allowed e then none else some 1
      s.endWait vd r.asid w.1 w.2.1 w.2.2 cause) s

/-- The effect comes after the bookkeeping: it may halt or suspend flights, this one among them. -/
def opTlbput (v : View) (s : State) : Result := issue v s fun c =>
  let d := c.x.d
  let l := c.oLane
  let word (i : Nat) : Word := (c.src (8 + i) (d + BitVec.ofNat 8 i)).at l
  let a : PutArgs := ⟨(pair64 (word 0) (word 1)).toNat, (pair64 (word 2) (word 3)).toNat, (word 4).toNat, (word 5).toNat,
    (c.oWord 2 c.x.b).toNat⟩
  let h := (c.oWord 1 c.x.a).toNat
  let op : State := c.finish (c.sysOp c.s .tlbput) .seq none
  if c.idle then .ok op
  else if !(c.roleIn [.walk, .fault] || a.pre) then illegalOperand
  else if bits a.ctl 15 1 ≠ 0 || (!a.pre && bits a.ctl 31 16 ≠ 0) || a.kind = 0 || a.kind = 3 || 5 < a.cls then illegalOperand
  else
    let req := if a.pre then none else c.ow.walks.find? fun r => r.handle = h
    if !a.pre && req.isNone then illegalOperand
    else if a.kind = 1 && a.bad req then illegalOperand
    else if a.kind = 1 && (c.ow.balustrade a.pa a.size).isNone then .error (.stall 2 a.pa)
    else .ok (op.tlbput c.f.vd a req)

/-! ### TLBKILL (R361) -/

/-- The entries that a mode names. -/
def killed (mode asid v n : Nat) (e : TlbEntry) : Bool :=
  match mode with
  | 0 => e.asid = asid && e.va ≤ v && v < e.va + e.size
  | 1 => e.asid = asid && e.va < v + n && v < e.va + e.size
  | 2 => e.asid = asid
  | _ => true

/-- The request's page is one that such entries would cover. -/
def killsPage (mode asid v n : Nat) (r : WalkReq) : Bool :=
  match mode with
  | 0 => r.asid = asid && r.va = pageOf v
  | 1 => r.asid = asid && r.va < v + n && v < r.va + 4096
  | 2 => r.asid = asid
  | _ => true

/-- Outstanding operations of the owner that touch bytes which a dropped entry maps. -/
def State.usersOf (s : State) (vd : Nat) (es : List TlbEntry) : List Nat :=
  let inside (a : Nat) : Bool := es.any fun e => e.pa ≤ a && a < e.pa + e.size
  let mine (k : Nat) : Bool := ((s.flight k).map Flight.vd) = some vd
  ((s.memOps.filter fun o => mine o.flight && !o.kind.isScratch && o.bytes.any inside).map MemOp.key)
    ++ (s.mxq.filter fun c => mine c.flight && c.pages.any fun p => inside p.2.1).map MxCmd.key

/-- Drop an owner's entries from every TLB, and mark requests stale; the dropped entries. -/
def State.dropEntries (s : State) (vd : Nat) (hit : TlbEntry → Bool) (page : WalkReq → Bool) : State × List TlbEntry :=
  let gone (p : Nat × TlbEntry) : Bool := p.2.vd = vd && hit p.2
  let es := ((s.l1tlb ++ s.l2tlb ++ s.l3tlb).filter gone).map Prod.snd
  let keep (l : List (Nat × TlbEntry)) : List (Nat × TlbEntry) := l.filter fun p => !gone p
  let o := s.owner vd
  let stale (r : WalkReq) : Bool := page r || es.any fun e => e.asid = r.asid && e.va < r.va + 4096 && r.va < e.va + e.size
  (({ s with l1tlb := keep s.l1tlb, l2tlb := keep s.l2tlb, l3tlb := keep s.l3tlb }).putOwner
    { o with walks := o.walks.map fun (r : WalkReq) => if stale r then { r with stale := true } else r }, es)

def opTlbkill (v : View) (s : State) : Result := varOp v s fun c =>
  let a := c.oPair 1 c.x.a
  let w := c.oPair 2 c.x.b
  if !c.roleIn [.collapsed, .fault] then illegalOperand
  else if c.idle then .ok (c.sysOp c.s (.tlbkill []))
  else if a >>> 57 ≠ 0 then illegalOperand
  else
    let mode := bits w.toNat 31 30
    let asid := bits w.toNat 15 0
    let n := (hiWord w).toNat * 0x10000
    let r := c.s.dropEntries c.f.vd (killed mode asid a.toNat n) (killsPage mode asid a.toNat n)
    .ok (c.sysOp r.1 (.tlbkill (r.1.usersOf c.f.vd r.2)))

/-! ### TRESUME (R362) -/

/-- The party that a token names, still waiting for its TRESUME. -/
inductive Party where
  | team (key : Nat)
  | copy (key : Nat)
  | handler (k : Nat)
  deriving DecidableEq, Repr

def State.party (s : State) (vd token : Nat) : Option Party :=
  let h := token % 4096
  match bits token 13 12 with
  | 0 =>
    (s.teams.find? fun t => t.vd = vd && t.handle = h && t.tokenSeq ≠ 0 && t.tokenSeq % 2 ^ 18 = token / 2 ^ 14 && (match t.state with
      | .faulted _ | .held => true
      | _ => false)).map fun t => .team t.key
  | 1 => (s.copies.find? fun c => c.state = .paused token && (s.team c.team).map Team.vd = some vd
        || c.state = .paused token && (s.flight c.flight).map Flight.vd = some vd).map fun c => .copy c.key
  | 2 =>
    if h < 2 && (s.owner vd).suspTokens.getD h 0 = token
        && (match s.serviceFlight vd (.fault h) with
          | some f => f.block = .suspended
          | none => false) then some (.handler h) else none
  | _ => none

/-- The flight's earlier accesses that a release waits for. -/
def State.accessesOf (s : State) (k : Nat) : List Nat :=
  (s.memOps.filter fun o => o.flight = k && o.kind.accesses).map MemOp.key

def opTresume (v : View) (s : State) : Result := varOp v s fun c =>
  let token := (c.oWord 1 c.x.a).toNat
  if !c.roleIn [.fault] then illegalOperand
  else if c.idle then .ok (c.sysOp c.s (.tresume 0 []))
  else if (c.s.party c.f.vd token).isNone || (c.s.sysOps.any fun o => match o.kind with
      | .tresume t _ => t = token
      | _ => false) then illegalOperand
  else
    let s : State := c.s.drainWc c.f.key
    .ok (c.sysOp s (.tresume token (s.accessesOf c.f.key)))

/-- A party goes on. -/
def State.resumeParty (s : State) (vd : Nat) (p : Party) : State :=
  match p with
  | .team k =>
    match s.team k with
    | none => s
    | some t =>
      match t.state with
      | .faulted pa => s.putTeam { t with state := .ready pa }
      | .held =>
        let s : State := s.putTeam { t with state := if t.spills = [] then .resident else .spilt }
        let s : State := s.modOwner vd fun o => { o with held := o.held - 1 }
        let s : State := { s with flights := s.flights.map fun (f : Flight) =>
          if f.team = k && !f.role.isService && f.block.atIssue then { f with block := .none } else f }
        s.resumeAll fun f => !f.role.isService && f.team = k
      | _ => s
  | .copy k =>
    match s.copy k with
    | some c => (s.putCopy { c with state := .active }).postWaiting vd
    | none => s
  | .handler k =>
    match s.serviceFlight vd (.fault k) with
    | some f => (s.modOwner vd fun o => { o with suspTokens := listSet o.suspTokens k 0 }).unsuspend f k
    | none => s

/-! ### CTXSV, CTXLD (14 R324) -/

/-- Copy `n` bytes between frames, past every cache (14 R315). -/
def State.copyFrame (s : State) (from' to' : Frame) (n : Nat) : State :=
  let s : State := s.frameDrop from' 0 n
  s.frameWrite to' 0 (s.frameRead from' 0 n)

/-- A context at a physical address of the owner. -/
def Ctx.frame (c : Ctx) (p : Nat) : Frame := .at (c.ow.onPort p)

/-- A physical range that CTXSV or CTXLD is to read or write: checked, and the device's (19 R407). -/
def Ctx.deviceRange (c : Ctx) (p n : Nat) : Chk State :=
  let as := (List.range n).map fun i => c.ow.onPort p + i
  match c.physical p n with
  | .error e => .error e
  | .ok _ => if (c.s.devHold as (.op c.f.key)).isSome then .error (.hold as) else .ok c.s

/-- A team of the owner by its handle. -/
def State.teamByHandle (s : State) (vd h : Nat) : Option Team := s.teams.find? fun t => t.vd = vd && t.handle = h && t.state ≠ .retired

def opCtxsv (v : View) (s : State) : Result := varOp v s fun c =>
  let d := c.oPair 1 c.x.a
  let p := bits d.toNat 51 0
  if !c.roleIn [.collapsed, .fault] then illegalOperand
  else if c.idle then .ok (c.sysOp c.s .ctxsv)
  else if p % 4096 ≠ 0 then .error (.trap Trap.misaligned none)
  else match c.s.teamByHandle c.f.vd (bits d.toNat 63 52) with
    | none => illegalOperand
    | some t =>
      let was : Option (Nat × Option Nat) := match t.state with
        | .swapped => some (0, none)
        | .faulted pa => some (1, some pa)
        | .ready pa => some (2, some pa)
        | _ => none
      match was, c.s.teamFrame t with
      | some (w, frame), some fr =>
        let n := c.s.ctxSize t
        match c.deviceRange p n with
        | .error e => .error e
        | .ok s =>
          let s : State := s.copyFrame fr (c.frame p) n
          let s : State := s.putTeam { t with state := .parked p w }
          let s : State := match frame with
            | some pa => s.freeFrame c.f.vd pa
            | none => s
          .ok (c.sysOp ((s.served (.op c.f.key)).charge c.f n) .ctxsv)
      | _, _ => illegalOperand

/-- The team that a saved header names, if the header agrees with it. -/
def State.headerTeam (s : State) (vd : Nat) (fr : Frame) : Option Team :=
  let n (o k : Nat) : Nat := s.frameNat fr o k
  if n 0 2 ≠ 0xC5A0 then none
  else (s.teamByHandle vd (n 6 2)).bind fun t => match t.state, s.grid t.grid with
    | .parked _ _, some g => if n 2 1 = t.variant && n 3 1 = g.flights && n 0x20 8 = s.ctxSize t then some t else none
    | _, _ => none

def opCtxld (v : View) (s : State) : Result := varOp v s fun c =>
  let d := c.oPair 1 c.x.a
  let p := d.toNat
  let status (s : State) (n : Nat) : State := s.frameWrite (c.frame p) 5 [BitVec.ofNat 8 n]
  if !c.roleIn [.collapsed, .fault] then illegalOperand
  else if c.idle then .ok (c.sysOp c.s .ctxld)
  else if d >>> 52 ≠ 0 then illegalOperand
  else if p % 4096 ≠ 0 then .error (.trap Trap.misaligned none)
  else match c.deviceRange p 256 with
    | .error e => .error e
    | .ok s =>
      let size := (s.frameDrop (c.frame p) 0 256).frameNat (c.frame p) 0x20 8
      match c.deviceRange p size with
      | .error e => .error e
      | .ok s =>
        let s : State := (s.served (.op c.f.key)).frameDrop (c.frame p) 0 256
        match s.headerTeam c.f.vd (c.frame p) with
        | none => .ok (c.sysOp (status s 2) .ctxld)
        | some t =>
          let was := match t.state with
            | .parked _ w => w
            | _ => 0
          if was = 0 then
            match s.grid t.grid with
            | none => .ok (c.sysOp (status s 2) .ctxld)
            | some g =>
              let s : State := s.copyFrame (c.frame p) (.pages g.swap (t.index * g.frameSz)) size
              .ok (c.sysOp ((status (s.putTeam { t with state := .swapped }) 0).charge c.f size) .ctxld)
          else
            match (s.owner c.f.vd).freeFrame size with
            | none => .ok (c.sysOp (status s 1) .ctxld)
            | some i =>
              let pa := (s.owner c.f.vd).frameAt i
              let s : State := (s.takeFrame c.f.vd i).copyFrame (c.frame p) (c.frame pa) size
              let st : TeamState := if was = 1 then .faulted pa else .ready pa
              .ok (c.sysOp ((status (s.putTeam { t with state := st }) 0).charge c.f size) .ctxld)

/-! ### Completion -/

/-- The oldest untaken walk request is taken. -/
def State.takeWalk (s : State) (vd : Nat) : Option (State × Nat × Nat) :=
  let o := s.owner vd
  (o.walks.find? fun r => !r.taken).map fun r =>
    (s.putOwner { o with
      walkHead := o.walkHead + 1
      walks := o.walks.map fun (q : WalkReq) => if q.slot = r.slot then { q with taken := true } else q }, o.walkAddr r.slot, r.handle)

/-- The oldest untaken fault record of a level is taken, its slot is freed, and a record that waits is posted. -/
def State.takeFault (s : State) (vd k : Nat) : Option (State × Nat × Nat) :=
  let o := s.owner vd
  let slot := o.vbase.toNat + 0x100 + 0x40 * k
  match k with
  | 0 =>
    match o.faultRing with
    | [] => none
    | r :: rs =>
      let a := Owner.ringBase o.fq + 64 * (o.faultHead % Owner.ringCap o.fq)
      some ((s.putOwner { o with faultRing := rs, faultHead := o.faultHead + 1 }).postWaiting vd, a, r.token)
  | 1 => o.level1.map fun r => (s.putOwner { o with level1 := none }, slot, r.token)
  | _ => o.level2.map fun r => (s.putOwner { o with level2 := none }, slot, r.token)

/-- The registers of a taken record. -/
def takePuts (d a tag : Nat) : List (Nat × Lanes) :=
  [(d, Lanes.tab fun _ => wd a), (d + 1, Lanes.tab fun _ => wd (a / 2 ^ 32)), (d + 2, Lanes.tab fun _ => wd tag)]

/-- A take, TLBPUT or TRESUME has completed: a service flight's is its owner's progress (R349). -/
def State.serviceDone (s : State) (f : Flight) : State := if f.role.isService then s.progressed f.vd else s

/-- A system operation leaves. -/
def State.sysDone (s : State) (o : SysOp) : State :=
  ({ s with sysOps := s.sysOps.filter fun x => x.key ≠ o.key }).complete o.flight o.flag Fl.none

/-- None of the operations is outstanding. -/
def State.allDone (s : State) (ks : List Nat) : Bool :=
  ks.all fun k => !s.outstanding k && !(s.mxq.any fun c => c.key = k)

/-- RWALK reads and writes its block. -/
def State.doRwalk (s : State) (f : Flight) (o : SysOp) (p v : Nat) : State :=
  let r := walkRange p v
  let as := (List.range r.2).map fun i => (s.owner f.vd).onPort r.1 + i
  match s.devHold as (.op o.key) with
  | some s' => s'
  | none =>
    let pol := if s.uncachedAt f.vd r.1 then 4 else 0
    let q := s.load f.vd f.core pol false 0 as
    let s : State := (q.1.count f.vd 0x11 r.2).served (.op o.key)
    if as.any (s.readBad pol) then (s.landPoison f.key Trap.dataPoison f.role.ownerLane o.pc).sysDone o
    else
      let w := walkStep p v q.2
      let put (i n : Nat) : Nat × Lanes := (o.dst + i, Lanes.tab fun _ => wd n)
      (s.landVar f.key o.mask [put 0 w.base, put 1 (w.base / 2 ^ 32), put 2 w.vbase, put 3 (w.vbase / 2 ^ 32), put 4 w.kind,
        put 5 w.units] o.pc).sysDone o

/-- A take completes, `taken` the state without the record; registers that it does not fit keep it from taking (03 R95). -/
def State.landTake (s : State) (f : Flight) (o : SysOp) (puts : List (Nat × Lanes)) (taken : State) : State :=
  (((if s.misfits f.key o.mask puts then s else taken).landVar f.key o.mask puts o.pc).sysDone o).serviceDone f

/-- Complete an owner instruction, or leave it: its queue is empty, or what it waits for has not come. -/
def State.ownerOp (s : State) (f : Flight) (o : SysOp) : State :=
  match o.kind with
  | .wqtake =>
    if o.mask = 0 then (s.sysDone o).serviceDone f
    else match s.takeWalk f.vd with
    | none => s
    | some (s', a, h) => s.landTake f o (takePuts o.dst a h) s'
  | .fqtake =>
    let k := match f.role with
      | .fault k => k
      | _ => 0
    if o.mask = 0 then (s.sysDone o).serviceDone f
    else match s.takeFault f.vd k with
    | none => s
    | some (s', a, t) => s.landTake f o (takePuts o.dst a t) s'
  | .rwalk p v =>
    if o.mask = 0 then s.sysDone o
    else s.doRwalk f o p.toNat v.toNat
  | .tlbkill ks => if s.allDone ks then s.sysDone o else s
  | .tlbput => (s.sysDone o).serviceDone f
  | .tresume t ks =>
    if !s.allDone ks || s.wcStuck f.key then s
    else
      let s : State := match (if o.mask = 0 then none else s.party f.vd t) with
        | some p => s.resumeParty f.vd p
        | none => s
      (s.sysDone o).serviceDone f
  | .ctxsv | .ctxld => s.sysDone o
  | _ => s

/-- CTXSV (R324). -/
def execCtxsv (x : XF) (s : State) : Result := opCtxsv (viewX 0x185 x) s

/-- CTXLD (R324). -/
def execCtxld (x : XF) (s : State) : Result := opCtxld (viewX 0x186 x) s

/-- OWNGET (R355). -/
def execOwnget (x : XF) (s : State) : Result := opOwnget (viewX 0x1A0 x) s

/-- OWNSET (R355). -/
def execOwnset (x : XF) (s : State) : Result := opOwnset (viewX 0x1A1 x) s

/-- LGET (R356). -/
def execLget (x : XF) (s : State) : Result := opLget (viewX 0x1A2 x) s

/-- LSET (R356). -/
def execLset (x : XF) (s : State) : Result := opLset (viewX 0x1A3 x) s

/-- XRET (R357). -/
def execXret (x : XF) (s : State) : Result := opXret (viewX 0x1A4 x) s

/-- WQTAKE (R358). -/
def execWqtake (x : XF) (s : State) : Result := opWqtake (viewX 0x1A5 x) s

/-- FQTAKE (R358). -/
def execFqtake (x : XF) (s : State) : Result := opFqtake (viewX 0x1A9 x) s

/-- RWALK (R359). -/
def execRwalk (x : XF) (s : State) : Result := opRwalk (viewX 0x1A6 x) s

/-- TLBPUT (R360). -/
def execTlbput (x : XF) (s : State) : Result := opTlbput (viewX 0x1A7 x) s

/-- TLBKILL (R361). -/
def execTlbkill (x : XF) (s : State) : Result := opTlbkill (viewX 0x1A8 x) s

/-- TRESUME (R362). -/
def execTresume (x : XF) (s : State) : Result := opTresume (viewX 0x1AA x) s

/-- OWNSTALL (R363). -/
def execOwnstall (x : XF) (s : State) : Result := opOwnstall (viewX 0x1AB x) s


end Sys2Proof.Machine
end

