-- ==== Sys2Proof/Machine/Launch.lean ====
section
/-!
DEFINITION. Launch and team instructions (14 R319 to R323): LAUNCH, LAUNCHI, SIGNAL, LAND and VARQ. CTXSV and CTXLD are in
Owner.lean.
-/

namespace Sys2Proof.Machine

/-! ### LAUNCH, SIGNAL (R320, R321) -/

/-- The virtual address in Va:Va+1 of the lowest active lane, checked and translated for `n` bytes as a KIND (R319). -/
def Ctx.objectAt (c : Ctx) (align n : Nat) (k : AccessKind) : Chk (Nat × List (Nat × Bool)) :=
  let va := (c.pairLow 1 c.x.a).toNat
  if vaMod ≤ va then illegalOperand
  else if va % align ≠ 0 then .error (.trap Trap.misaligned none)
  else match c.virtualOk va with
    | .error e => .error e
    | .ok () =>
      match c.s.translateRange c.f va n k c.low with
      | .error e => .error e
      | .ok ps => .ok (va, ps)

/-- The one access of these instructions. -/
def Ctx.oneAcc (c : Ctx) (ps : List (Nat × Bool)) (data : DWord) : LaneAcc :=
  ⟨c.low, ps.map Prod.fst, [], 0, data, 0, uncachedOf ps⟩

/-- LAUNCH and LAUNCHI: a release at .PA, then the record enters the queue (MemDone.lean, doLaunch). -/
def launchOp (v : View) (s : State) (isI : Bool) : Result := varOp v s fun c =>
  let op (as : List LaneAcc) (q : Nat) : State := c.enter { c.memOp .launch 2 4 as with dst := 248, disp := q }
  if c.f.em = 0 then .ok (op [] 0)
  else match c.objectAt 64 1 .store with
    | .error e => .error e
    | .ok (va, ps) =>
      let q := ((c.src 2 c.x.b).at c.low).toNat % 8
      .ok (op [c.oneAcc ps (dw va)] (if isI then q + 8 else q))

def opLaunch (v : View) (s : State) : Result := launchOp v s false
def opLaunchi (v : View) (s : State) : Result := launchOp v s true

/-- SIGNAL: ATOM.ADD.REL.SY of 0xFFFF_FFFF. -/
def opSignal (v : View) (s : State) : Result := varOp v s fun c =>
  let op (as : List LaneAcc) : State := c.enter { c.memOp .signal 2 5 as with dst := 248 }
  if c.f.em = 0 then .ok (op [])
  else match c.objectAt 8 4 .atomic with
    | .error e => .error e
    | .ok (_, ps) => .ok (op [c.oneAcc ps 0xFFFFFFFF])

/-! ### LAND (R322, R305) -/

def Variant.landing (v : Variant) (id : Nat) : Option Landing := kget Landing.id id v.landings

/-- The classes that a key's location takes. -/
def Variant.keyClasses (v : Variant) (k : LandKey) : List ShapeClass :=
  if k.loc = 0 then [v.classMap.getD k.reg .absent]
  else if k.loc = 1 then [v.classMap.getD k.reg .absent, v.classMap.getD (k.reg + 1) .absent]
  else []

/-- A pair of variants is switchable at a landing id (R305). -/
def switchable (v w : Variant) (id : Nat) : Bool :=
  match v.landing id, w.landing id with
  | some a, some b => v.isMatrix = w.isMatrix && a.keys.all fun k =>
      match kget LandKey.num k.num b.keys with
      | some l => k.loc = l.loc && k.slen = l.slen && v.keyClasses k = w.keyClasses l
      | none => true
  | _, _ => false

/-- The pair of a team's pending request is switchable at an id. -/
def State.pairAt (s : State) (t : Team) (id : Nat) : Bool :=
  match t.request, s.grid t.grid, s.variantOf t with
  | some r, some g, some v => match kget Variant.num r.target g.variants with
    | some w => switchable v w id
    | none => false
  | _, _, _ => false

/-- The first arrival at a LAND starts the count of R312. -/
def Team.arrived (t : Team) : Team :=
  { t with request := t.request.map fun r => { r with waited := some (r.waited.getD 0) } }

def opLand (v : View) (s : State) : Result := issue v s fun c =>
  let id := c.x.imm24.toNat
  if c.owner then illegalOperand
  else match c.team, c.variant with
    | some t, some w =>
      if (w.landing id).isNone then .error (.trap Trap.landingUnknown none)
      else if !c.s.pairAt t id then .ok (c.finish c.s .seq none)
      else .ok ((c.s.modTeam t.key Team.arrived).blockFlight c.f (.land id))
    | _, _ => .error (.trap Trap.landingUnknown none)

/-! ### VARQ (R323) -/

/-- The word of VARQ. -/
def Ctx.varqWord (c : Ctx) : Nat :=
  match c.team with
  | none => 0
  | some t =>
    let fixed := if (c.s.grid t.grid).map Grid.cls = some 1 then 64 else 0
    fixed + t.variant % 4 + match t.request with
      | some r => 4 + (if r.up then 8 else 0) + 16 * (r.target % 4)
      | none => 0

def outVarq (c : Ctx) : Chk FixedOut :=
  .ok ⟨Lanes.tab fun _ => wd c.varqWord, none, c.f.em, Fl.none⟩
def opVarq (v : View) (s : State) : Result := fixedOp 4 v s outVarq

/-! ### The constructors -/

/-- LAUNCH (R320). -/
def execLaunch (x : XF) (s : State) : Result := opLaunch (viewX 0x180 x) s

/-- LAUNCHI (R320). -/
def execLaunchi (x : XF) (s : State) : Result := opLaunchi (viewX 0x181 x) s

/-- SIGNAL (R321). -/
def execSignal (x : XF) (s : State) : Result := opSignal (viewX 0x182 x) s

/-- LAND (R322). -/
def execLand (x : XF) (s : State) : Result := opLand (viewX 0x183 x) s

/-- LAND_W32 (R322), as its X64 form with the cell's fixed modifiers (02 R63). -/
def execLandW32 (w : WF) (s : State) : Result := opLand (viewW 0x183 .land12 0x00 w) s

/-- VARQ (R323). -/
def execVarq (x : XF) (s : State) : Result := opVarq (viewX 0x184 x) s

end Sys2Proof.Machine
end

