-- ==== Sys2Proof/Machine/Time.lean ====
section
/-!
DEFINITION. What passes with a cycle of a partition (00 R5): the slice, the counters of its owner, the progress count, and
the counts of its teams.
-/

namespace Sys2Proof.Machine

/-- The level is bound above the core. -/
def Grid.boundAbove (g : Grid) (level : Nat) : Bool := 2 ≤ (g.levels.getD (level - 1) (0, 1)).1

/-- Every flight that has not ended is blocked at a BAR or WAITB of a level bound above the core (14 R313). -/
def State.blockedAbove (s : State) (t : Team) : Bool :=
  let fs := (s.teamFlights t.key).filter fun f => !f.ended
  match s.grid t.grid with
  | some g => fs ≠ [] && fs.all fun f => match f.block with
    | .barrier level _ => g.boundAbove level
    | _ => false
  | none => false

/-- A team's unhalted cycle (14 R302, R312, R313). -/
def State.tickTeam (s : State) (t : Team) : Team :=
  if s.teamRuns t then
    { t with
      issueTime := t.issueTime + 1
      blockedFor := if s.blockedAbove t then t.blockedFor + 1 else 0
      request := t.request.map fun (r : SwitchReq) => { r with waited := r.waited.map (· + 1) } }
  else t

/-- The active partition that a core belongs to (01 R19). -/
def State.partitionOfCore (s : State) (core : Nat) : Option Partition :=
  s.parts.find? fun p => p.active && p.halls.contains (hallOfCore core)

end Sys2Proof.Machine
end

