-- ==== Sys2Proof/Machine/Place.lean ====
section
/-!
DEFINITION. The dispatcher (14 R297, R298, R302, R306 to R314): dispatch points, placement, retirement, forward progress,
switch requests, remaps and migration.
-/

namespace Sys2Proof.Machine

/-! ### Regions (R237) -/

/-- The owner's live translations, of every level. -/
def State.entriesOf (s : State) (vd asid : Nat) : List TlbEntry :=
  ((s.l1tlb ++ s.l2tlb ++ s.l3tlb).map Prod.snd).filter fun e => e.vd = vd && e.asid = asid

def TlbEntry.maps (e : TlbEntry) (ln : Nat) : Bool := e.pa ≤ 128 * ln && 128 * ln < e.pa + e.size

/-- Some copy of the line carries the owner's tag. -/
def State.ownsCopy (s : State) (vd ln : Nat) : Bool :=
  s.lines.any (fun c => c.line = ln && c.vd = vd) || s.llc.any (fun c => c.line = ln && c.vd = vd)
    || s.wc.any (fun w => w.line = ln && w.vd = vd)
    || s.teams.any fun t => t.vd = vd && t.windows.any fun w => w.filled.any fun p => p.2 = ln

/-- A translation of the owner maps the line into one of the regions; or the owner has a copy that no translation maps any more,
which may be of them (log 17). -/
def State.inRegions (s : State) (vd asid : Nat) (rs : List (Nat × Nat)) (ln : Nat) : Bool :=
  let es := (s.entriesOf vd asid).filter fun e => e.maps ln
  if es = [] then s.ownsCopy vd ln
  else es.any fun e =>
    let va := e.va + (128 * ln - e.pa)
    rs.any fun r => va < r.1 + r.2 && r.1 < va + 128

/-- The lines of which some cache, window or write-combining buffer holds something. -/
def State.copiedLines (s : State) : List Nat :=
  ((s.lines.map CacheLine.line) ++ (s.llc.map LlcLine.line) ++ (s.wc.map WcLine.line)
    ++ s.teams.flatMap fun t => t.windows.flatMap fun w => w.filled.map Prod.snd).dedup

/-- Write every dirty copy of the regions back at .SY. -/
def State.cleanRegions (s : State) (vd asid : Nat) (rs : List (Nat × Nat)) : State :=
  (s.copiedLines.filter (s.inRegions vd asid rs)).foldl (fun s ln => (s.gatherLine ln).cleanLine vd 0 5 ln) s

/-- Drop every copy of the regions above the LLC, after writing back what is dirty. -/
def State.dropRegions (s : State) (vd asid : Nat) (rs : List (Nat × Nat)) : State :=
  (s.copiedLines.filter (s.inRegions vd asid rs)).foldl (fun s ln => (s.gatherLine ln).invalLine vd 0 4 ln) s

/-! ### The dispatch point (R297) -/

/-- A COUNT as a signed word is 0 or less. -/
def countMet (bs : List Byte) : Bool := (wd (leNat bs)).toInt ≤ 0

/-- Observe an edge, unless it has been observed satisfied. A walk that failed is forgotten, and the edge looked at again. -/
def SysWho.observe (w : SysWho) (e : Edge) (s : State) : State × Edge :=
  if e.satisfied then (s, e)
  else
    let r := w.run (w.read e.sig.toNat 4) s
    match r.2 with
    | .ok bs => (r.1, { e with satisfied := countMet bs })
    | .error _ => (r.1, e)

def SysWho.observeAll (w : SysWho) : List Edge → State → State × List Edge
  | [], s => (s, [])
  | e :: es, s =>
    let r := w.observe e s
    let q := w.observeAll es r.1
    (q.1, r.2 :: q.2)

/-- Two descriptors of one variant take the same room. -/
def Variant.sameRoom (a b : Variant) : Bool :=
  a.num = b.num && a.classMap = b.classMap && a.isMatrix = b.isMatrix && a.scratch = b.scratch

/-- What the dispatch point reads: the descriptors (R304), and the count of a LAUNCHI (R238). Descriptors that no longer
take the room that admission found are not taken (log 18). -/
def SysWho.dispatchReads (w : SysWho) (g : Grid) : SysM (List Variant × Nat) := do
  let vs ← w.kernel g.kernel.toNat
  let new := g.allow (vs.getD [])
  let same := new.length = g.variants.length && (new.zip g.variants).all fun p => p.1.sameRoom p.2
  let n ← if g.isI then do
      let b ← w.read (g.countVa.toNat / 4 * 4) 4
      pure (leNat b)
    else pure 0
  pure (if same then new else g.variants, n)

/-- A LAUNCHI's count in the place of its top extent (R320). -/
def Grid.withCount (g : Grid) (n : Nat) : Grid :=
  if !g.isI then g
  else
    let m := min n g.countMax
    let top := g.levels.length - 1
    let g : Grid := { g with
      clamped := g.countMax < n
      levels := listSet g.levels top ((g.levels.getD top (0, 0)).1, m) }
    { g with teams := g.teamCount }

/-- The grid is at its dispatch point. -/
def State.startGrid (s : State) (g : Grid) (vs : List Variant) (n : Nat) : State :=
  s.putGrid { g.withCount n with state := .dispatched, variants := vs, started := s.now g.vd }

/-- GRID_DISPATCH (R297). -/
def execGridDispatch (grid : Nat) (s : State) : Result :=
  match s.grid grid with
  | none => .next s
  | some g =>
    if g.state ≠ .admitted || (s.owner g.vd).state ≠ 1 then .next s
    else
      let asid := (s.owner g.vd).asid.toNat % 65536
      let w : SysWho := ⟨g.vd, asid, .grid g.key⟩
      let r := w.observeAll g.edgesIn s
      let g : Grid := { g with edgesIn := r.2, asid := asid }
      let s : State := r.1.putGrid g
      if !(g.edgesIn.all Edge.satisfied) then .next s
      else
        let s : State := s.dropRegions g.vd asid (g.edgesIn.flatMap Edge.regions)
        let q := w.run (w.dispatchReads g) s
        match q.2 with
        | .ok (vs, n) => .next (q.1.startGrid g vs n)
        | .error .waits => .next q.1
        | .error _ => if g.isI then .next q.1 else .next (q.1.startGrid g g.variants 0)

/-! ### Placement (R306 to R309, R313) -/

/-- The team of the grid is ready to be placed again: TRESUME has made it ready, or the generations its flights wait for have
completed. -/
def State.readyTeam (s : State) (t : Team) : Bool :=
  match t.state with
  | .ready _ => true
  | .swapped => (s.teamFlights t.key).all fun f => f.ended || match f.block with
    | .barrier level gen => s.barrierDone f level gen
    | _ => true
  | _ => false

/-- The teams of a unit that are off their core. -/
def State.offTeams (s : State) (g : Grid) (index : Nat) : List Team :=
  s.teams.filter fun t => t.grid = g.key && t.index / max 1 g.group = index / max 1 g.group && !t.holds && t.state ≠ .retired

/-- The next unit to place: saved teams that are ready, in the order of their saves, else the lowest that never started. -/
def State.nextUnit (s : State) (g : Grid) : Option (Nat × List Team) :=
  match s.teams.find? fun t => t.grid = g.key && s.readyTeam t && (s.offTeams g t.index).all s.readyTeam with
  | some t => some (t.index, s.offTeams g t.index)
  | none => if g.state = .dispatched && g.next < g.teams then some (g.next, []) else none

/-- Cores that a unit may take: with its mates, in its instance, and none where a team of the owner is still spilt (17
R381). -/
def State.unitCores (s : State) (g : Grid) (index : Nat) : List Nat :=
  let mates := s.teams.filter fun t => t.grid = g.key && t.index / max 1 g.group = index / max 1 g.group && t.holds
  (s.partOf g.vd).teamCores.filter fun c => mates.all (fun t => t.core = c) && s.instanceOk g index c
    && !(s.teams.any fun t => t.vd = g.vd && t.core = c && t.spills ≠ [])

/-- Where a unit fits: variants and cores in their order. -/
def State.findPlace (s : State) (g : Grid) (wss : List (List Variant)) (cores : List Nat) (claims : Bool) :
    Option (Nat × List Variant × List Place × Plan) :=
  wss.findSome? fun ws => cores.findSome? fun c =>
    (s.fitOn c g ws claims).map fun x => (c, ws, x.1, x.2)

/-- What is free is taken first, then claims are made (17 R381). -/
def State.choosePlace (s : State) (g : Grid) (wss : List (List Variant)) (cores : List Nat) :
    Option (Nat × List Variant × List Place × Plan) :=
  match s.findPlace g wss cores false with
  | some x => some x
  | none => s.findPlace g wss cores true

/-- A page of a team's swap frame that lies outside the balustrade (R307; 19 R404). -/
def State.swapBad (s : State) (g : Grid) (index : Nat) : Option Nat :=
  ((g.swap.drop (index * g.frameSz / 4096)).take (g.frameSz / 4096)).find? fun p => ((s.owner g.vd).balustrade p 4096).isNone

/-- An address on each page of a frame. -/
def Frame.heads (fr : Frame) (size : Nat) : List Nat := (List.range ((size + 4095) / 4096)).map fun i => fr.addr (4096 * i)

/-- The same of the frames that hold saved teams. -/
def State.frameHeads (s : State) (ts : List Team) : List Nat :=
  ts.flatMap fun t => ((s.teamFrame t).map fun fr => fr.heads (s.ctxSize t)).getD []

/-- A saved team is placed again; a fault frame is freed. -/
def State.placeOld (s : State) (t : Team) (core : Nat) (p : Place) (v : Variant) : State :=
  match t.state with
  | .ready pa =>
    let n := s.ctxSize t
    let s : State := (s.restoreTeam t.key core p v.bodies).freeFrame t.vd pa
    (s.count t.vd 0x13 n).chargeTime t.vd 0x12
  | _ => s.restoreTeam t.key core p v.bodies

/-! A grid whose teams a migration image of another device has brought (19 R410; log 20): its record and descriptors are read
anew before its teams are placed. -/

/-- The grid as its record and descriptors give it; a top extent of 0 is a LAUNCHI's. -/
def SysWho.rebuild (w : SysWho) (g : Grid) : SysM Grid := do
  let p ← w.page .store g.va.toNat
  let pa2 ← w.second g.va.toNat
  let st ← get
  let q : Queued := ⟨g.key, g.queue, g.va, p.1, false, .flight⟩
  let b ← w.phys ((List.range 256).map fun i => let a := ((gridOf q w.vd pa2 []).recAddr i).getD 0; (a, st.s.uncachedAt w.vd a))
  let l := fieldAt b 8 1
  let h := gridOf { q with isI := 2 ≤ l && bits (levelEntry b (l - 1)) 23 0 = 0 } w.vd pa2 b
  let es ← w.edges (fieldAt b 0x58 8) (fieldAt b 0x0C 1 + fieldAt b 0x0D 1)
  let vs ← w.kernel (fieldAt b 0 8)
  let h : Grid := { h with
    state := .dispatched, variants := h.allow (vs.getD []), edgesIn := es.take (fieldAt b 0x0C 1), edgesOut := es.drop (fieldAt b 0x0C 1)
    asid := w.asid, accepted := g.accepted, started := g.started }
  let h : Grid := { h with frameSz := h.frameSize }
  let n ← if h.isI then w.read (h.countVa.toNat / 4 * 4) 4 else pure []
  let pages ← if fieldAt b 0x40 8 = 0 then pure [] else w.swapPages (fieldAt b 0x40 8) (fieldAt b 0x48 8)
  pure { h.withCount (leNat n) with swap := pages }

/-- The number of a team among its grid's, from the level numbers in a context's header (14 R315). -/
def State.savedIndex (s : State) (g : Grid) (a : Nat) : Nat :=
  let lvl (n : Nat) : Nat := s.frameNat (.at a) (0x60 + 4 * n) 4
  (List.range g.levels.length).foldl (fun (x : Nat × Nat) i => (x.1 + lvl (i + 1) * x.2, x.2 * g.ext (i + 1))) (0, 1) |>.1 / max 1 g.flights

/-- One of its teams: its number, and flights to be read from its context. -/
def State.rebuildTeam (s : State) (g : Grid) (t : Team) : State :=
  match t.state, kget Variant.num t.variant g.variants with
  | .ready a, some v =>
    let k := s.nextKey
    let fs := (List.range g.flights).map fun i =>
      { Flight.fresh (k + i) t.key i g.vd t.core 0 .lane (v.code &&& pcMask) v.classMap v.waitTab with halted := true }
    ({ s with nextKey := k + g.flights, flights := s.flights ++ fs } : State).putTeam { t with
      index := s.savedIndex g a
      mx := if v.isMatrix then some { MxCore.reset t.core with team := some t.key } else none }
  | _, _ => s

/-- The grid in place of what the image named, its teams with it; those of higher numbers are taken not to have started. -/
def State.rebuilt (s : State) (g : Grid) : State × Grid :=
  let s : State := (s.teams.filter fun t => t.grid = g.key).foldl (fun s t => s.rebuildTeam g t) s
  let g : Grid := { g with next := (s.teams.filter fun t => t.grid = g.key).foldl (fun n t => max n (t.index + 1)) 0 }
  (s.putGrid g, g)

/-- Read again what an image has only named. -/
def State.reread (s : State) (g : Grid) : State × Option Grid :=
  let w : SysWho := ⟨g.vd, (s.owner g.vd).asid.toNat % 65536, .grid g.key⟩
  let r := w.run (w.rebuild g) s
  match r.2 with
  | .ok h => let x := r.1.rebuilt h; (x.1, some x.2)
  | .error _ => (r.1, none)

/-- The macro images of the grid's variants read again for a placement (03 R92); none while a walk or a transfer holds a read.
Images that cannot be read stand as they were (log 88). -/
def State.withImages (s : State) (g : Grid) : State × Option Grid :=
  if g.variants = [] then s.reread g
  else if g.variants.all fun v => v.mused = 0 then (s, some g)
  else
    let w : SysWho := ⟨g.vd, (s.owner g.vd).asid.toNat % 65536, .grid g.key⟩
    let r := w.run (w.images g.variants) s
    match r.2 with
    | .ok vs => (r.1.putGrid { g with variants := vs }, some { g with variants := vs })
    | .error .waits => (r.1, none)
    | .error _ => (r.1, some g)

/-- In which variants a unit may be placed, richest first: those it has, or the allowed ones (R307). -/
def State.unitVariants (s : State) (g : Grid) (olds : List Team) : List (List Variant) :=
  if olds = [] then
    (if g.cls = 1 then g.variants.filter fun v => g.vstar = some v.num else g.variants).map fun v => List.replicate (max 1 g.group) v
  else [olds.filterMap s.variantOf]

/-- Place the grid's next unit, on one core alone if it is given; none where nothing can be placed. -/
def State.placeNext (s : State) (g : Grid) (only : Option Nat) : Option State :=
  match s.nextUnit g with
  | none => none
  | some (index, olds) =>
    let m := max 1 g.group
    let cores := (s.unitCores g index).filter fun c => only = none || only = some c
    let handles := (s.teams.filter fun t => t.vd = g.vd && t.state ≠ .retired).length
    if g.variants = [] || (olds = [] && 4096 < handles + m) then none
    else match olds.findSome? s.frameBad with
      | some a => some (s.stallOwner g.vd 2 0 0xFF 0 0 a)
      | none =>
        match s.choosePlace g (s.unitVariants g olds) cores with
        | none => none
        | some (core, ws, ps, plan) =>
          match s.devHold (s.frameHeads olds) (.sys (.grid g.key)) with
          | some s => some s
          | none =>
            let s : State := (s.carryOut plan).served (.sys (.grid g.key))
            let place (i : Nat) : Place := ps.getD i ⟨[], 0⟩
            let s : State := if olds = [] then s.putGrid { g with next := g.next + m } else s
            some ((List.range ps.length).foldl (fun s i => match ws[i]?, olds[i]? with
              | some v, some t => s.placeOld t core (place i) v
              | some v, none => s.startTeam g v (index + i) core (place i)
              | none, _ => s) s)

/-- Grids of the owner that were admitted earlier and have reached their dispatch points. -/
def State.earlierGrids (s : State) (g : Grid) : List Grid :=
  (s.grids.takeWhile fun x => x.key ≠ g.key).filter fun x => x.vd = g.vd && x.state = .dispatched

/-! ### Retirement (R298) -/

/-- The team has run more than the worst case of a class-1 grid. -/
def State.overran (s : State) (t : Team) : Bool :=
  match s.grid t.grid, s.variantOf t with
  | some g, some v => g.cls = 1 && v.wcet < t.issueTime
  | _, _ => false

/-- A team that overruns marks its grid (R302). -/
def State.noteOverrun (s : State) (t : Team) : State :=
  match s.grid t.grid with
  | some g => if s.overran t then s.putGrid { g with overrun := true } else s
  | none => s

/-- TEAM_RETIRE (R298). -/
def execTeamRetire (team : Nat) (s : State) : Result :=
  match s.team team with
  | none => .next s
  | some t => if (s.owner t.vd).state = 1 && s.teamDone t then .next ((s.noteOverrun t).retireTeam t) else .next s

/-- Every team of the grid has retired. -/
def State.gridDone (s : State) (g : Grid) : Bool :=
  g.state = .dispatched && g.teams ≤ g.next && (s.teams.filter fun t => t.grid = g.key).all fun t => t.state = .retired

/-- STATUS at retirement (R295). -/
def Grid.doneCode (g : Grid) : Nat := if g.overrun then 0x13 else if g.sigfail then 0x12 else if g.clamped then 0x11 else 0x10

/-- Where the COUNTs of the outgoing edges lie; one that is not mapped for writing is left. -/
def SysWho.counts (w : SysWho) (es : List Edge) : SysM (List (Option Nat)) :=
  es.mapM fun e => tryCatch (do
    let p ← w.page .atomic e.sig.toNat
    pure (some p.1)) fun st => match st with
      | .refuse _ _ _ => pure none
      | st => throw st

/-- The bytes that retirement writes: COUNTs, STATUS and the host's entry. -/
def State.retireBytes (s : State) (g : Grid) (cs : List (Option Nat)) : List Nat :=
  (cs.filterMap id).flatMap (fun a => (List.range 4).map fun i => a + i)
    ++ ((List.range 4).filterMap fun i => g.recAddr (0x68 + i))
    ++ match g.source with
      | .host q _ _ => s.ringBytes g.vd q
      | .flight => []

/-- The grid leaves: STATUS, the host's entry, its teams and barriers. -/
def State.endGrid (s : State) (g : Grid) : State :=
  let s : State := s.recWrite g 0x68 (leBytes 4 g.doneCode)
  let s : State := s.hostEntry g g.doneCode
  let s : State := s.putGrid { g with state := .retired }
  { s with
    teams := s.teams.filter fun t => t.grid ≠ g.key
    barriers := s.barriers.filter fun b => b.grid ≠ g.key
    recs := s.recs.filter fun r => r.grid ≠ 2 * g.key }

/-- GRID_RETIRE (R298). -/
def execGridRetire (grid : Nat) (s : State) : Result :=
  match s.grid grid with
  | none => .next s
  | some g =>
    if !s.gridDone g || (s.owner g.vd).state ≠ 1 then .next s
    else
      let w : SysWho := ⟨g.vd, (s.owner g.vd).asid.toNat % 65536, .grid g.key⟩
      let r := w.run (w.counts g.edgesOut) s
      match r.2 with
      | .error _ => .next r.1
      | .ok cs =>
        let s := r.1
        match s.devHold (s.retireBytes g cs) (.sys (.grid g.key)) with
        | some s => .next s
        | none =>
          let s : State := s.cleanRegions g.vd g.asid (g.edgesOut.flatMap Edge.regions)
          let s : State := (cs.filterMap id).foldl (fun s a => s.countDown g.vd a) s
          .next ((s.endGrid { g with sigfail := cs.any Option.isNone }).served (.sys (.grid g.key)))

/-- WCET_OVERRUN (R302). -/
def execWcetOverrun (team : Nat) (s : State) : Result :=
  match s.team team with
  | some t => .next (s.noteOverrun t)
  | none => .next s

/-! ### Forward progress (R313) -/

/-- Every flight of the unit has been blocked for 2^16 cycles, and the unit is in place. -/
def State.stuck (s : State) (t : Team) : Bool :=
  s.teamRuns t && (s.groupOf t).all fun u => u.state = .retired || (u.state = .resident && 65536 ≤ u.blockedFor && s.blockedAbove u)

/-- FORWARD_PROGRESS_SWAP (R313): the unit is saved to its swap frames, once its accesses are performed (09 R239), and a ready
unit of the grid takes its place. -/
def execForwardProgressSwap (team : Nat) (s : State) : Result :=
  match (s.team team).bind fun t => (s.grid t.grid).map fun g => (t, g) with
  | none => .next s
  | some (t, g) =>
    if !s.stuck t || (s.nextUnit g).isNone then .next s
    else match s.withImages g with
      | (s, none) => .next s
      | (s, some g) =>
        let us := (s.groupOf t).filter fun u => u.state = .resident
        let frame (u : Team) : Frame := .pages g.swap (u.index * g.frameSz)
        let s : State := us.foldl (fun s u => s.release u.key) s
        if us.any fun u => !s.released u.key then .next s
        else match us.findSome? fun u => s.swapBad g u.index with
          | some a => .next (s.stallOwner g.vd 2 0 0xFF 0 0 a)
          | none =>
            match s.devHold (us.flatMap fun u => (frame u).heads g.frameSz) (.sys (.grid g.key)) with
            | some s => .next s
            | none =>
              let s : State := us.foldl (fun s u => s.saveTeam u.key (frame u) 2 .swapped) (s.served (.sys (.grid g.key)))
              .next ((s.placeNext g (some t.core)).getD s)

/-! ### Moving a team (R314) -/

/-- Forwarding entries of a core whose arrivals are still to come. -/
def State.liveForwards (s : State) (core : Nat) : List (Nat × List Nat) :=
  s.forwards.filter fun p => p.1 = core && p.2.any s.outstanding

/-- What a team has outstanding at a move: its memory operations and copies. -/
def State.outstandingOf (s : State) (tk : Nat) : List Nat :=
  let ks := (s.teamFlights tk).map Flight.key
  ((s.memOps.filter fun o => ks.contains o.flight).map MemOp.key)
    ++ (s.copies.filter fun c => c.team = tk && c.state ≠ .done).map Copy.key

/-- The flight as a move leaves it (R98). -/
def Flight.moved (f : Flight) (core quad : Nat) : Flight :=
  { f.halt with core := core, quad := quad, lastIssue := none, waitCount := 0, yielding := none }

/-- Move a team's context to a place on a core, whose control store holds its image; on another core its banks are reloaded.
What it leaves behind, the caller has noted. A move withdraws its request (R310). -/
def State.moveTeam (s : State) (tk core : Nat) (p : Place) (image : List (Nat × List DWord)) : State :=
  let s : State := s.quiesce tk
  let out := s.outstandingOf tk
  match s.team tk with
  | none => s
  | some t =>
    let old := t.core
    let s : State := s.leaveCore t
    match s.team tk with
    | none => s
    | some t =>
      let s : State := { s with
        forwards := (s.forwards.filter fun p => p.2.any s.outstanding) ++ if out = [] || old = core then [] else [(old, out)] }
      let t' : Team := { t with
        core := core
        base := p.base
        mx := none
        request := none
        bodies := image }
      let s : State := (s.putTeam t').occupy t' []
      let s : State := match t.mx with
        | some m => s.putMx { m with core := core, reload := if old = core then m.reload else [0, 1] }
        | none => s
      s.enterQuads ((s.teamFlights tk).map fun f => f.moved core (4 * core + p.quads.getD f.index 0))

/-- Flights of a team go on if they may. -/
def State.resumeTeam (s : State) (tk : Nat) : State := s.resumeAll fun f => !f.role.isService && f.team = tk

/-- MIGRATION (R314): the unit moves whole to another core of its instance, where it fits in what is free, once its accesses are
performed (09 R239). -/
def execMigration (team core : Nat) (s : State) : Result :=
  match (s.team team).bind fun t => (s.grid t.grid).map fun g => (t, g) with
  | none => .next s
  | some (t, g) =>
    let us := (s.groupOf t).filter fun u => u.state ≠ .retired
    let ok := s.teamRuns t && us.all (fun u => u.state = .resident) && core ≠ t.core && (s.partOf t.vd).teamCores.contains core
      && us.all (fun u => s.instanceOk g u.index core) && (s.liveForwards t.core).length + us.length ≤ 4
    if !ok then .next s
    else match s.withImages g with
      | (s, none) => .next s
      | (s, some g) =>
        let s : State := us.foldl (fun s u => s.release u.key) s
        if us.any fun u => !s.released u.key then .next s
        else
          let us := us.filterMap fun u => s.team u.key
          let vs := us.filterMap s.variantOf
          match s.fitOn core g vs false with
          | none => .next s
          | some (ps, _) =>
            let s : State := (List.range us.length).foldl (fun s i => match us[i]? with
              | some u => s.moveTeam u.key core (ps.getD i ⟨[], 0⟩) ((vs[i]?.map Variant.bodies).getD [])
              | none => s) (us.foldl (fun s u => s.occupy u u.scratch) s)
            .next (us.foldl (fun s u => s.resumeTeam u.key) s)

/-! ### Switch requests (R310, R312) -/

/-- The state without some teams' holdings. -/
def State.without (s : State) (ks : List Nat) : State := { s with teams := s.teams.filter fun t => !ks.contains t.key }

/-- Where a team fits in another variant, its own holding counted as free: its core, else another of its instance; teams of a
unit that is placed whole stay together. -/
def State.targetPlace (s : State) (g : Grid) (t : Team) (w : Variant) : Option (Nat × Place) :=
  let s' := s.without [t.key]
  let cores := t.core :: if g.group ≤ 1 then (s'.unitCores g t.index).filter fun c => c ≠ t.core && s.instanceOk g t.index c else []
  cores.findSome? fun c => (s'.fitOn c g [w] false).bind fun x => (x.1.head?).map fun p => (c, p)

/-- The pair is switchable at some landing. -/
def canSwitch (v w : Variant) : Bool := v.landings.any fun l => switchable v w l.id

/-- A placed team that may be asked: it holds no request. -/
def State.mayAsk (t : Team) : Bool := t.holds && t.request.isNone

/-- The team's variant may switch to another. -/
def State.switchTo (s : State) (t : Team) (w : Variant) : Bool := (s.variantOf t).any fun v => canSwitch v w

/-- A team's upgrade to a variant is open. -/
def State.mayUpgrade (s : State) (g : Grid) (t : Team) (w : Variant) : Bool :=
  w.num < t.variant && State.mayAsk t && (s.targetPlace g t w).isSome && s.switchTo t w

/-- The first `k` teams, lowest indices first, that satisfy `enough` together with those chosen. -/
def firstChoice (enough : List Team → Bool) : Nat → List Team → List Team → Option (List Team)
  | 0, _, acc => if enough acc then some acc else none
  | _ + 1, [], _ => none
  | k + 1, t :: ts, acc =>
    match firstChoice enough k ts (acc ++ [t]) with
    | some x => some x
    | none => firstChoice enough (k + 1) ts acc

/-- With these teams in these variants, the waiting unit fits on the core in one of the ways given. -/
def State.roomAfter (s : State) (g : Grid) (core : Nat) (wss : List (List Variant)) (ds : List (Team × Variant)) : Bool :=
  let r := (s.without (ds.map fun d => d.1.key)).roomOn core
  wss.any fun ws => (Room.placeList g.flights (ds.map Prod.snd ++ ws) r).isSome

/-- The poorer variants to which a team may be asked to switch, or the one that it is asked for. -/
def State.poorer (s : State) (g : Grid) (t : Team) : List Variant :=
  match t.request with
  | some r => g.variants.filter fun w => w.num = r.target
  | none => g.variants.filter fun w => t.variant < w.num && s.switchTo t w

/-- Some choice of targets for the teams, beside those chosen, makes room. -/
def State.makeRoom (s : State) (g : Grid) (core : Nat) (wss : List (List Variant)) : List Team → List (Team × Variant) → Bool
  | [], ds => s.roomAfter g core wss ds
  | t :: ts, ds => (s.poorer g t).any fun w => s.makeRoom g core wss ts (ds ++ [(t, w)])

/-- The fewest teams of a core, lowest indices first, whose downgrades make room, the pending ones among them. -/
def State.downgrades (s : State) (g : Grid) (core : Nat) (wss : List (List Variant)) : Option (List Team) :=
  let on := (s.teams.filter fun t => t.grid = g.key && t.core = core && t.holds).insertionSort fun a b => a.index ≤ b.index
  let pend := on.filter fun t => t.request.any fun r => !r.up
  let free := on.filter fun t => State.mayAsk t && s.poorer g t ≠ []
  (List.range (free.length + 1)).findSome? fun k => firstChoice (fun ds => s.makeRoom g core wss ds []) k free pend

/-- Units of the grid that wait to be placed. -/
def State.waitingUnits (s : State) (g : Grid) : Nat :=
  (if g.state = .dispatched then (g.teams - g.next) / max 1 g.group else 0)
    + ((s.teams.filter fun t => t.grid = g.key && s.readyTeam t).map fun t => t.index / max 1 g.group).dedup.length

/-- One core is asked for each waiting unit. -/
def State.mayAskCore (s : State) (g : Grid) (core : Nat) : Bool :=
  let asked := ((s.teams.filter fun t => t.grid = g.key && t.request.any fun r => !r.up).map Team.core).dedup
  asked.contains core || asked.length < s.waitingUnits g

/-- The team is the next to be asked to downgrade, and to that variant: with it the others of its core can make room (log 18). -/
def State.mayDowngrade (s : State) (g : Grid) (t : Team) (w : Variant) : Bool :=
  t.variant < w.num && s.mayAskCore g t.core && (s.placeNext g none).isNone && match s.nextUnit g with
    | none => false
    | some (index, olds) =>
      let wss := s.unitVariants g olds
      (s.unitCores g index).contains t.core && match s.downgrades g t.core wss with
        | none => false
        | some ds => (ds.find? fun d => d.request.isNone).map Team.key = some t.key
          && (s.poorer g t).contains w && s.makeRoom g t.core wss (ds.filter fun d => d.key ≠ t.key) [(t, w)]

/-- A request posted; flights that wait at a LAND have arrived. -/
def State.post (s : State) (t : Team) (target : Nat) (up : Bool) : State :=
  let here := (s.teamFlights t.key).any fun f => match f.block with
    | .land _ => true
    | _ => false
  s.putTeam { t with request := some ⟨target, up, if here then some 0 else none⟩ }

/-- SWITCH_REQUEST_POST (R310). -/
def execSwitchRequestPost (team target : Nat) (s : State) : Result :=
  match (s.team team).bind fun t => (s.grid t.grid).map fun g => (t, g) with
  | none => .next s
  | some (t, g) =>
    match kget Variant.num target g.variants with
    | none => .next s
    | some w =>
      let lower := s.teams.filter fun u => u.grid = t.grid && u.index < t.index
      let up := s.mayUpgrade g t w && lower.all fun u => g.variants.all fun x => !s.mayUpgrade g u x
      if g.cls ≠ 0 then .next s
      else if up then .next (s.post t target true)
      else if s.mayDowngrade g t w then .next (s.post t target false)
      else .next s

/-- The landing ids at which flights of a team that have not ended wait; none where one does not wait at a switchable one. -/
def State.gathered (s : State) (t : Team) : Option (List (Flight × Nat)) :=
  ((s.teamFlights t.key).filter fun f => !f.ended).mapM fun f => match f.block with
    | .land id => if s.pairAt t id then some (f, id) else none
    | _ => none

/-- SWITCH_WITHDRAW_TIMEOUT (R312). -/
def execSwitchWithdrawTimeout (team : Nat) (s : State) : Result :=
  match s.team team with
  | none => .next s
  | some t =>
    match t.request.bind SwitchReq.waited with
    | some n => if 4096 ≤ n && (s.gathered t).isNone then .next (s.putTeam { t with request := none }) else .next s
    | none => .next s

/-! ### The remap (R311) -/

/-- The flights' flags and the team's copies, batches and matrix commands are complete. -/
def State.remapReady (s : State) (t : Team) : Bool :=
  (s.teamFlights t.key).all (fun f => f.flags.all (· = 0)) && t.batches.all (· = 0)
    && s.copies.all (fun c => c.team ≠ t.key || c.state = .done) && s.mxq.all fun c => c.team ≠ t.key

/-- The keys of a target entry, each with its source. -/
def keyPairs (src dst : Landing) : List (LandKey × LandKey) :=
  dst.keys.filterMap fun k => (kget LandKey.num k.num src.keys).map fun o => (o, k)

/-- A flight's registers from the keys of its landing. -/
def Flight.remapRegs (f : Flight) (ps : List (LandKey × LandKey)) : List (Nat × RegVal) :=
  ps.flatMap fun p =>
    if p.2.loc = 0 then [(p.2.reg, f.reg p.1.reg)]
    else if p.2.loc = 1 then [(p.2.reg, f.reg p.1.reg), (p.2.reg + 1, f.reg (p.1.reg + 1))]
    else []

/-- A flight in the target variant at its landing. -/
def Flight.remap (f : Flight) (w : Variant) (src dst : Landing) : Flight :=
  { f with
    regs := (f.remapRegs (keyPairs src dst)).foldl (fun rs r => kset Prod.fst r rs) []
    classMap := w.classMap
    waitTable := w.waitTab
    block := .none
    pc := dst.pc &&& pcMask }

/-- The scratchpad ranges that a landing carries, with the states of their granules. -/
def Team.remapScratch (old : Team) (t : Team) (ps : List (LandKey × LandKey)) : Team :=
  (ps.filter fun p => p.2.loc = 2).foldl (fun (t : Team) p =>
    let t : Team := { t with scratch := t.scratch.puts (bytesAt p.2.soff (old.scratch.read p.1.soff p.2.slen)) }
    (List.range (p.2.slen / 16)).foldl (fun t i => t.setGran (p.2.soff / 16 + i) (old.gran (p.1.soff / 16 + i))) t) t

/-- The team, all its flights gathered, goes on in the target variant. -/
def State.remap (s : State) (t : Team) (v w : Variant) (fs : List (Flight × Nat)) (core : Nat) (p : Place) : State :=
  let s : State := fs.foldl (fun s f => s.land f.1.key none) (s.closeWindows t.key)
  let s : State := { s with quads := s.quads.map fun (q : Quad) =>
    if q.lastTeam = t.key then { q with latches := List.replicate 4 (Lanes.tab fun _ => 0) } else q }
  let s : State := fs.foldl (fun s x => match s.flight x.1.key, v.landing x.2, w.landing x.2 with
    | some f, some a, some b => s.putFlight (f.remap w a b)
    | _, _, _ => s) s
  let pairs := fs.flatMap fun x => match v.landing x.2, w.landing x.2 with
    | some a, some b => keyPairs a b
    | _, _ => []
  match s.team t.key with
  | none => s
  | some t =>
    let new : Team := t.remapScratch { t with variant := w.num, request := none, windows := [], scratch := [], granules := [] } pairs
    (((s.occupy t t.scratch).putTeam new).moveTeam t.key core p w.bodies).resumeTeam t.key

/-- LANDING_REMAP (R311): a target that fits nowhere withdraws the request. -/
def execLandingRemap (team : Nat) (s : State) : Result :=
  match (s.team team).bind fun t => (s.grid t.grid).bind fun g => (s.variantOf t).bind fun v => t.request.map fun r => (t, g, v, r) with
  | none => .next s
  | some (t, g, v, r) =>
    match s.gathered t, kget Variant.num r.target g.variants with
    | some fs, some w =>
      if !s.teamRuns t || fs = [] || !s.remapReady t then .next s
      else match s.withImages g with
        | (s, none) => .next s
        | (s, some g) =>
          let w := (kget Variant.num w.num g.variants).getD w
          let s : State := s.release t.key
          match (s.team t.key).bind fun t => (s.gathered t).map fun fs => (t, fs) with
          | none => .next s
          | some (t, fs) =>
            match s.targetPlace g t w with
            | none => .next (s.putTeam { t with request := none })
            | some (core, p) =>
              if !s.released t.key || (core ≠ t.core && 4 ≤ (s.liveForwards t.core).length) then .next s
              else .next (s.remap t v w fs core p)
    | _, _ => .next s

end Sys2Proof.Machine
end

