-- ==== Sys2Proof/Machine/System.lean ====
section
/-!
DEFINITION. Owners in their partition (17 R376 to R390; 15 R349): CNTR, QOSQ, ERRQ, slices, way units, errors and their blast
sets, and the completion of the instructions that have their own conditions.
-/

namespace Sys2Proof.Machine

/-! ### CNTR, QOSQ, ERRQ (R387 to R390) -/

/-- What CNTR waits for: the flight's earlier memory, copy and matrix instructions. -/
def State.worksOf (s : State) (k : Nat) : List Nat :=
  ((s.memOps.filter fun o => o.flight = k).map MemOp.key) ++ ((s.copies.filter fun c => c.flight = k && c.state ≠ .done).map Copy.key)
    ++ (s.mxq.filter fun c => c.flight = k).map MxCmd.key

def opCntr (v : View) (s : State) : Result := varOp v s fun c =>
  let k := c.x.c.toNat
  if 0x18 < k || (0x0C ≤ k && k < 0x10) then illegalOperand
  else .ok (c.sysOp c.s (.cntr k (c.s.worksOf c.f.key)))

def opQosq (v : View) (s : State) : Result := varOp v s fun c =>
  let k := c.x.c.toNat
  if 0x18 < k || (4 ≤ k && k < 8) then illegalOperand else .ok (c.sysOp c.s (.qosq k))

/-- Registers that ERRQ writes. -/
def errqRegs (d k : Nat) : List Nat := if k = 1 then (List.range 4).map fun i => d + i else [d]

def opErrq (v : View) (s : State) : Result := varOp v s fun c =>
  let k := c.x.c.toNat
  let d := c.x.d.toNat
  let ok := k < 3 && (if k = 1 then d % 2 = 0 && d ≤ 236 && (List.range 4).all fun i => c.f.cls (d + i) = .general else true)
  if ok then .ok (c.sysOp c.s (.errq k)) else illegalOperand

/-- Counter `k` of an owner at a read (R383): what it holds of the LLC and its floor are computed then. -/
def State.counterNow (s : State) (vd k : Nat) : DWord :=
  let mine := s.llc.filter fun l => l.vd = vd
  if k = 6 then dw (llcSectors mine) else if k = 7 then dw mine.length else if k = 0x18 then dw (s.owner vd).floor
  else (s.owner vd).counters.getD k 0

/-- Item `k` of QOSQ (R389). -/
def State.qosNow (s : State) (vd k : Nat) : Nat :=
  let o := s.owner vd
  if k = 0 then o.floor + 256 * o.minw + 65536 * o.maxw
  else if k = 1 then o.slice
  else if k = 2 then min (s.round vd) 0xFFFFFFFF
  else if k = 3 then (s.partOf vd).left
  else min (o.misscurve.getD (k - 8) 0) 0xFFFFFFFF

/-- The same value in every lane. -/
def allLanes (n : Nat) : Lanes := Lanes.tab fun _ => wd n

/-- ERRQ's effect and values. -/
def State.errTake (s : State) (vd k : Nat) : State × List Nat :=
  let o := s.owner vd
  if k = 0 then (s, [o.errors.length])
  else if k = 2 then (s.putOwner { o with errDropped := 0 }, [o.errDropped])
  else match o.errors with
    | [] => (s, [0, 0, 0, 0])
    | r :: rs => (s.putOwner { o with errors := rs }, [r.struct + 256 * r.kind + 65536 * r.unit, 0, r.addr, r.addr / 2 ^ 32])

/-- Complete a CNTR, QOSQ or ERRQ, or leave it. -/
def State.systemOp (s : State) (f : Flight) (o : SysOp) : State :=
  let land (s : State) (regs : List Nat) (vs : List Nat) : State :=
    (s.landVar f.key o.mask ((List.range regs.length).map fun i => (regs.getD i 0, allLanes (vs.getD i 0))) o.pc).sysDone o
  match o.kind with
  | .cntr k ks =>
    if o.mask = 0 then land s (pairRegs o.dst) []
    else if !s.allDone ks || s.wcStuck f.key then s
    else
      let s : State := s.drainWc f.key
      let n := (s.counterNow f.vd k).toNat
      land s (pairRegs o.dst) [n, n / 2 ^ 32]
  | .qosq k => land s [o.dst] [s.qosNow f.vd k]
  | .errq k =>
    if o.mask = 0 then land s (errqRegs o.dst k) []
    else
      let r := s.errTake f.vd k
      let puts := (List.range (errqRegs o.dst k).length).map fun i => ((errqRegs o.dst k).getD i 0, allLanes (r.2.getD i 0))
      land (if s.misfits f.key o.mask puts then s else r.1) (errqRegs o.dst k) r.2
  | _ => s

/-- CNTR (R388). -/
def execCntr (x : XF) (s : State) : Result := opCntr (viewX 0x1C0 x) s

/-- QOSQ (R389). -/
def execQosq (x : XF) (s : State) : Result := opQosq (viewX 0x1C1 x) s

/-- ERRQ (R390). -/
def execErrq (x : XF) (s : State) : Result := opErrq (viewX 0x1C2 x) s

/-- MEMORY_COMPLETE (08 R193): an operation completes, or stays where it is not its turn. -/
def execMemoryComplete (op : Nat) (s : State) : Result :=
  match s.memOp op with
  | some o => .next (s.tryOp o)
  | none =>
    match s.sysOps.find? fun o => o.key = op with
    | none => .next s
    | some o =>
      match s.flight o.flight with
      | none => .next { s with sysOps := s.sysOps.filter fun x => x.key ≠ op }
      | some f => .next (match o.kind with
        | .cntr _ _ | .qosq _ | .errq _ => s.systemOp f o
        | _ => s.ownerOp f o)

/-! ### Progress (15 R349) -/

/-- NO_PROGRESS_STALL (15 R349). -/
def execNoProgressStall (vd : Nat) (s : State) : Result :=
  let o := s.owner vd
  if o.state = 1 && 2 ^ 20 ≤ o.progress then .next (s.stallOwner vd 5 0 0xFF 0 0 0) else .next s

/-! ### Slices (R379 to R382) -/

/-- The owner has work (R379). -/
def State.hasWork (s : State) (o : Owner) : Bool :=
  s.teams.any (fun t => t.vd = o.vd && t.state ≠ .retired) || s.grids.any (fun g => g.vd = o.vd && g.state ≠ .retired)
    || o.launchQ ≠ [] || o.walks ≠ [] || o.faultRing ≠ [] || o.faultWait ≠ [] || o.level1.isSome || o.level2.isSome

/-- SLICE_END (R380): the slice has run out, or its owner no longer runs. -/
def execSliceEnd (part : Nat) (s : State) : Result :=
  let p := s.part part
  match p.turn with
  | none => .next s
  | some slot =>
    let os := (s.ownersOf part).filter fun o => o.slot = slot
    if p.left ≠ 0 && os.any fun o => o.state = 1 then .next s
    else
      let s : State := s.haltAll fun f => os.any fun o => o.vd = f.vd
      .next (s.modPart part fun (p : Partition) => { p with turn := none, lastTurn := slot })

/-- The owner whose slice is next: slots ascending after the last, round and round. -/
def State.nextOwner (s : State) (part : Nat) : Option Owner :=
  let p := s.part part
  (List.range 24).findSome? fun i =>
    let slot := (p.lastTurn + 1 + i) % 24
    (s.ownersOf part).find? fun o => o.slot = slot && o.state = 1 && s.hasWork o

/-! ### Floors (R376, R379) -/

/-- Misses at `w` way units. -/
def Owner.missAt (o : Owner) (w : Nat) : Nat := o.misscurve.getD w 0

def sumFloors (os : List Owner) : Nat := os.foldl (fun n o => n + o.floor) 0

/-- The first owner of a list that is best by `key`, the list in slot order. -/
def bestBy (key : Owner → Nat) (better : Nat → Nat → Bool) : List Owner → Option Owner
  | [] => none
  | o :: os => some (os.foldl (fun b x => if better (key x) (key b) then x else b) o)

def Owner.gain (o : Owner) : Nat := o.missAt o.floor - o.missAt (o.floor + 1)
def Owner.loss (o : Owner) : Nat := o.missAt (o.floor - 1) - o.missAt o.floor

/-- A floor lies between the host's floor and ceiling. -/
def Owner.clampFloor (o : Owner) : Owner := { o with floor := max o.minw (min o.floor o.maxw) }

/-- Floors lowered until they sum to at most 16, each time that of the owner which loses least by it, to its MINW at the least (log
92). -/
def shedWays : Nat → List Owner → List Owner
  | 0, os => os
  | n + 1, os =>
    if sumFloors os ≤ 16 then os
    else match bestBy Owner.loss (fun a b => a < b) (os.filter fun o => min o.minw o.hostMinw < o.floor) with
      | none => os
      | some r => shedWays n (os.map fun o => if o.vd = r.vd then { o with floor := o.floor - 1 } else o)

/-- The owners of a partition that have started, in slot order: those that have a floor. -/
def State.startedOf (s : State) (part : Nat) : List Owner :=
  ((s.ownersOf part).filter fun o => o.state ≠ 0).insertionSort fun a b => a.slot ≤ b.slot

def State.shedFloors (s : State) (part : Nat) : State :=
  if sumFloors (s.startedOf part) ≤ 16 then s else (shedWays 400 (s.startedOf part)).foldl State.putOwner s

/-- The slice length that a value of SLICE stands for (19 R402). -/
def sliceOf (n : Nat) : Nat := if 2 ^ 16 ≤ n && n ≤ 2 ^ 26 then n else Config.defaultSlice

/-- What the host has written for the owner's slice and way units takes effect. -/
def Owner.takeHost (o : Owner) : Owner :=
  ({ o with slice := sliceOf o.hostSlice, minw := o.hostMinw, maxw := o.hostMaxw } : Owner).clampFloor

def State.takeHost (s : State) (vd : Nat) : State :=
  (s.putOwner (s.owner vd).takeHost).shedFloors (s.owner vd).part

/-! ### A slice begins (R381) -/

/-- A spilt team takes its room again, in what is free or with claims, and its parts are read back (log 16). -/
def State.restoreSpilt (s : State) (t : Team) : State :=
  match s.grid t.grid, s.variantOf t with
  | some g, some v =>
    let s' := s.without [t.key]
    let x := match s'.fitOn t.core g [v] false with
      | some x => some x
      | none => s'.fitOn t.core g [v] true
    match x with
    | some (p :: _, plan) =>
      let s : State := (s.carryOut plan).unspill t.key
      let s : State := s.modTeam t.key fun t => { t with base := p.base }
      let s : State := match s.team t.key with
        | some t => s.occupy t []
        | none => s
      let ks := (s.teamFlights t.key).map Flight.key
      let s : State := { s with quads := s.quads.map fun (q : Quad) => { q with order := q.order.filter fun k => !ks.contains k } }
      (s.enterQuads ((s.teamFlights t.key).map fun (f : Flight) => { f with quad := 4 * t.core + p.quads.getD f.index 0 })).resumeTeam t.key
    | _ => s
  | _, _ => s

/-- The spilt teams of an owner that its faults do not hold. -/
def State.spiltTeams (s : State) (vd : Nat) : List Team := s.teams.filter fun t => t.vd = vd && t.state = .spilt

/-- Halted flights in place resume, class-1 grids first. -/
def State.resumeOwner (s : State) (vd : Nat) : State :=
  let first (f : Flight) : Bool := ((s.team f.team).bind fun t => s.grid t.grid).map Grid.cls = some 1
  let s : State := s.resumeAll fun f => f.vd = vd && !f.role.isService && first f
  s.resumeAll fun f => f.vd = vd

/-- SLICE_START (R381). -/
def execSliceStart (part : Nat) (s : State) : Result :=
  let p := s.part part
  if !p.active || p.dead || p.turn.isSome then .next s
  else match s.nextOwner part with
    | none => .next s
    | some o =>
      let s : State := s.takeHost o.vd
      let s : State := s.modPart part fun (p : Partition) => { p with turn := some o.slot, left := sliceOf o.hostSlice }
      let s : State := s.resumeOwner o.vd
      .next ((s.spiltTeams o.vd).foldl State.restoreSpilt s)

/-- TEAM_PLACE (14 R307): a spilt team of the grid takes its room again, or the grid's next unit is placed, when no earlier
grid of the owner has one that can be placed. -/
def execTeamPlace (grid : Nat) (s : State) : Result :=
  match s.grid grid with
  | none => .next s
  | some g =>
    if g.state ≠ .dispatched || !s.ownerRuns g.vd then .next s
    else match (s.spiltTeams g.vd).find? fun t => t.grid = g.key with
      | some t => .next (s.restoreSpilt t)
      | none =>
        if (s.earlierGrids g).any fun x => (s.placeNext x none).isSome then .next s
        else match s.withImages g with
          | (s, none) => .next s
          | (s, some g) => .next ((s.placeNext g none).getD s)

/-! ### Way units (R376, R378) -/

/-- One move of the allocator, none where it stops. -/
def moveWay (os : List Owner) : Option (List Owner) :=
  let give (vd : Nat) (os : List Owner) : List Owner := os.map fun o => if o.vd = vd then { o with floor := o.floor + 1 } else o
  let take (vd : Nat) (os : List Owner) : List Owner := os.map fun o => if o.vd = vd then { o with floor := o.floor - 1 } else o
  let takers := os.filter fun o => o.floor < o.maxw
  if sumFloors os < 16 then
    match bestBy Owner.gain (fun a b => b < a) takers with
    | some g => if 0 < g.gain then some (give g.vd os) else none
    | none => none
  else
    match bestBy Owner.loss (fun a b => a < b) (os.filter fun o => o.minw < o.floor) with
    | none => none
    | some r =>
      match bestBy Owner.gain (fun a b => b < a) (takers.filter fun o => o.vd ≠ r.vd) with
      | some g => if r.loss < g.gain then some (give g.vd (take r.vd os)) else none
      | none => none

def moveWays : Nat → List Owner → List Owner
  | 0, os => os
  | n + 1, os =>
    match moveWay os with
    | some os => moveWays n os
    | none => os

/-- WAY_ALLOCATION (R378). -/
def execWayAllocation (part : Nat) (s : State) : Result :=
  let p := s.part part
  if p.llcAccesses < 2 ^ 20 then .next s
  else
    let os := (s.startedOf part).map fun o => ({ o with minw := o.hostMinw, maxw := o.hostMaxw } : Owner).clampFloor
    let os := moveWays 4 (shedWays 400 os)
    let s : State := os.foldl (fun s o => s.putOwner { o with misscurve := List.replicate 17 0 }) s
    .next (s.putPart { p with llcAccesses := p.llcAccesses - 2 ^ 20 })

/-! ### Errors (R385, R386) -/

def errorCode : ErrorStruct → Nat
  | .llcData => 1 | .llcTag => 2 | .l3Tlb => 3 | .l2Data => 4 | .l2Tag => 5 | .l2TlbEntry | .l1TlbEntry => 6 | .atriumEntry => 7 | .memory => 8
  | .coreReg | .coreScratch | .coreAccum | .coreL1 => 0x0A | .dispatcher => 0x0B | .atriumShared => 0x0C

/-- KIND: 1 data, 2 state. -/
def errorKind : ErrorStruct → Nat
  | .llcData | .l2Data | .memory | .coreReg | .coreScratch | .coreAccum | .coreL1 => 1
  | _ => 2

/-- A record for each owner of the blast set, and the report to the host. -/
def State.deliver (s : State) (e : ErrorSite) (blast : List Nat) : State :=
  let kind := errorKind e.struct
  let r : ErrorRec := ⟨errorCode e.struct, kind, e.unit, if kind = 1 then e.addr / 128 * 128 else 0⟩
  let s : State := (blast.dedup).foldl (fun s vd =>
    let s : State := s.modOwner vd fun o =>
      if o.errors.length < 16 then { o with errors := o.errors ++ [r] } else { o with errDropped := o.errDropped + 1 }
    s.raiseEvent vd 1) s
  s.tell (.error (errorCode e.struct) e.unit e.addr)

/-- The bytes of a line. -/
def lineBytes (ln : Nat) : List Nat := (List.range 128).map fun i => 128 * ln + i

/-- An LLC line is lost: its dirty bytes go to HBM poisoned, and it stands clean and poisoned, or leaves. -/
def State.loseLlc (s : State) (l : LlcLine) (drop : Bool) : State :=
  let s : State := if l.dirty = 0 then s else s.writeBack l.line l.bytes l.dirty l.dirty
  let lost (m : LlcLine) : LlcLine := if m.line = l.line then { m with dirty := 0, bad := BitVec.allOnes 128 } else m
  { s with llc := if drop then s.llc.filter (fun m => m.line ≠ l.line) else s.llc.map lost }

/-- A line of an L1 or L2 is lost: its dirty bytes, and those of the LLC below it, go to memory poisoned, and it stands clean and
poisoned, or leaves. -/
def State.loseUpper (s : State) (c : CacheLine) (drop : Bool) : State :=
  let s : State := if c.state ≠ .M then s
    else
      let dirty := s.llcDirty c.line ||| c.dirty
      { s.writeBack c.line c.data dirty dirty with llc := s.llc.filter fun m => m.line ≠ c.line }
  let lost (m : CacheLine) : CacheLine :=
    if m.cache = c.cache && m.line = c.line then { m with
      state := if m.state = .M then .S else m.state
      dirty := 0
      bad := BitVec.allOnes 128 } else m
  { s with lines := if drop then s.lines.filter (fun m => !(m.cache = c.cache && m.line = c.line)) else s.lines.map lost }

/-- The team on a core that holds a byte of its scratchpad. -/
def State.scratchHolder (s : State) (core a : Nat) : Option Team :=
  s.teams.find? fun t => t.core = core && t.holds && t.base ≤ a && a < t.base + s.scratchOf t

/-- The oldest packet of a queue fails with 0x22 (19 R400). -/
def State.losePacket (s : State) (vd q : Nat) : State :=
  match (((s.owner vd).queue q).packets.head?).map packetOf with
  | some p => s.endPacket vd q p 0x22
  | none => s

/-- Owners and queues that hold entries in the atrium: packets read and not yet acted on. -/
def State.atriumEntries (s : State) : List (Nat × Nat) :=
  s.owners.flatMap fun o => ((List.range 8).filter fun q => (o.queue q).packets ≠ []).map fun q => (o.vd, q)

/-- Every packet of a queue fails. -/
def State.losePackets (s : State) (vd q : Nat) : Nat → State
  | 0 => s
  | n + 1 => if ((s.owner vd).queue q).packets = [] then s else (s.losePacket vd q).losePackets vd q n

/-- A register is lost: its flight raises DATA_POISON before its next issue. -/
def State.loseReg (s : State) (core addr : Nat) : State × List Nat :=
  let q := s.quad (4 * core + addr / 4096 % 4)
  match (q.order[addr / 256 % 16]?).bind s.flight with
  | none => (s, [])
  | some f =>
    let n := s.free
    let any (l : Nat) : Word := Config.freeWord n (50 + l)
    let v : RegVal := match f.cls (addr % 256) with
      | .uniform => .uniform (any 0)
      | .affine => .affine (any 0) (any 1)
      | _ => .general (Lanes.tab any)
    let s : State := s.drawn.putFlight { f.setReg (addr % 256) v with poisoned := f.poisoned ++ [⟨9, lowestLane f.em, f.pc⟩] }
    (s, [f.vd])

/-- The TLB entry that an error names, by its TLB and an address that it maps. -/
def errTlb (e : ErrorSite) (p : Nat × TlbEntry) : Bool := p.1 = e.unit && p.2.va ≤ e.addr && e.addr < p.2.va + p.2.size

/-- What an error discards, and its blast set (R385). -/
def State.strike (s : State) (e : ErrorSite) : State × List Nat :=
  let ln := e.addr / 128
  match e.struct with
  | .llcData =>
    match kget LlcLine.line ln s.llc with
    | some l => (s.loseLlc l false, [l.vd])
    | none => (s, [])
  | .llcTag =>
    let ls := s.llc.filter fun l => setOf l.line = (e.unit, e.addr)
    (ls.foldl (fun s l => s.loseLlc l true) s, ls.map LlcLine.vd)
  | .l3Tlb =>
    let es := s.l3tlb.filter fun p => p.1 = e.unit
    ({ s with l3tlb := s.l3tlb.filter fun p => p.1 ≠ e.unit }, es.map fun p => p.2.vd)
  | .l2Data =>
    match s.lines.find? fun c => c.cache = .l2 e.unit && c.line = ln with
    | some c => (s.loseUpper c false, [c.vd])
    | none => (s, [])
  | .l2Tag =>
    let cs := s.lines.filter fun c => c.cache = .l2 e.unit && Config.l2Set c.line = e.addr
    (cs.foldl (fun s c => s.loseUpper c true) s, cs.map CacheLine.vd)
  | .l2TlbEntry => ({ s with l2tlb := s.l2tlb.filter fun p => !errTlb e p }, [])
  | .l1TlbEntry => ({ s with l1tlb := s.l1tlb.filter fun p => !errTlb e p }, [])
  | .memory =>
    (s.memPoison ((List.range e.len).map fun i => e.addr + i),
      (s.owners.filter fun o => (o.balustrade e.addr 1).isSome).map Owner.vd)
  | .dispatcher => (s.modPart e.unit fun p => { p with dead := true }, (s.ownersOf e.unit).map Owner.vd)
  | .atriumEntry =>
    let vd := e.unit / 8
    let q := e.unit % 8
    if ((s.owner vd).queue q).packets = [] then (s, []) else (s.losePacket vd q, [vd])
  | .atriumShared =>
    let es := s.atriumEntries
    let parts := (es.map fun x => (s.owner x.1).part).dedup
    (es.foldl (fun s x => s.losePackets x.1 x.2 4096) s, parts.flatMap fun p => (s.ownersOf p).map Owner.vd)
  | .coreReg => s.loseReg e.unit e.addr
  | .coreScratch =>
    match s.scratchHolder e.unit e.addr with
    | some t => (s.scratchEngine t.key [] .poisonedError (gransOf ((List.range e.len).map fun i => e.addr - t.base + i)), [t.vd])
    | none => (s, [])
  | .coreAccum =>
    let m := s.mxCore e.unit
    match m.team.bind s.team with
    | some t => (s.putMx (m.setPoison e.addr (some 9)), [t.vd])
    | none => (s, [])
  | .coreL1 =>
    match s.lines.find? fun c => c.cache = .l1 e.unit && c.line = ln with
    | some c => (s.loseUpper c false, [c.vd])
    | none => (s, [])

/-- UNCORRECTABLE_ERROR (R385, R386). -/
def execUncorrectableError (e : ErrorSite) (s : State) : Result :=
  let r := s.strike e
  .next (r.1.deliver e r.2)

/-- CORRECTABLE_ERROR (R385): reported to the host alone. -/
def execCorrectableError (unit addr : Nat) (s : State) : Result := .next (s.tell (.error 0 unit addr))

end Sys2Proof.Machine
end

