-- ==== Sys2Proof/Machine/Host.lean ====
section
/-!
DEFINITION. The host's commands to an owner (15 R331 to R333, R352; 19 R397, R402 to R404, R409, R410): owner start, stall,
resume, reset, balustrade writes, interrupts, pause and the migration image.
-/

namespace Sys2Proof.Machine

/-! ### Commands (R403) -/

/-- OPSTAT.BUSY. -/
def Owner.busy (o : Owner) : Bool := o.opBusy || o.balDropping.isSome

/-- A command refused: OPSTAT result 1. -/
def State.refuse (s : State) (vd : Nat) : State := s.modOwner vd fun o => { o with opResult := 1 }

/-- A command in the states where it is accepted. -/
def State.command (s : State) (vd : Nat) (ok : Owner → Bool) (act : State → State) : State :=
  let o := s.owner vd
  if o.busy || !ok o then s.refuse vd else act (s.modOwner vd fun o => { o with opResult := 0 })

/-! ### Owner start (R331 to R333) -/

def Held.isHost : Held → Bool
  | .host _ | .bar2 _ => true
  | _ => false

/-- Every 2 MiB region of the exposure, A and whole (19 R406); host accesses that were held go on waiting. -/
def Owner.wholeRegions (o : Owner) : List XferEntry :=
  (List.range (rangesSize o.exposure / 2 ^ 21)).map fun i =>
    let held := ((o.entries.filter fun e => e.offset / 2 ^ 21 = i).flatMap XferEntry.held).filter Held.isHost
    (⟨2 ^ 21 * i, 2 ^ 21, false, none, false, held, []⟩ : XferEntry).next

/-- SMAP of the vestibule header. -/
def State.serviceMap (s : State) (vd : Nat) : List ShapeClass := classesOf ((List.range 60).map fun i => s.vestByte vd (0x50 + i))

/-- The owner as the header loads it. -/
def State.fromHeader (s : State) (vd : Nat) : Owner :=
  let o := s.owner vd
  let at' (off : Nat) : DWord := o.vbase + dw (s.vestNat vd off 8)
  { o with
    tvec := at' 0x18, wq := at' 0x20, fq := at' 0x28, fpool := at' 0x30, tree := at' 0x38
    asid := wd (s.vestNat vd 0x40 4 % 65536), sbuf := dw (s.vestNat vd 0x48 8) }

/-- The checks of owner start. -/
def State.headerOk (s : State) (vd : Nat) : Bool :=
  let o := s.owner vd
  let size := o.vlimit.toNat - o.vbase.toNat
  let smap := s.serviceMap vd
  let gens := (classRegs smap .general).length
  let n (off : Nat) : Nat := s.vestNat vd off 8
  let h := s.fromHeader vd
  o.vbase.toNat % 65536 = 0 && 0x8400 ≤ size && s.vestNat vd 0 2 = 0x5643 && s.vestNat vd 2 1 = 1
    && s.vestNat vd 3 1 = gens && 1 ≤ gens && gens ≤ 64 && scalarBytes smap ≤ 1024
    && n 0x08 < size && n 0x10 < size && n 0x18 < size && n 0x38 < size
    && h.ringOk h.wq && h.ringOk h.fq && (s.poolOk h h.fpool).isSome
    && (o.balustrade o.vbase.toNat size).isSome

/-- The quadrant of an owner's service flights: four owners to a quadrant, sixteen to a service core. -/
def State.serviceQuad (s : State) (o : Owner) : Nat := 4 * ((s.part o.part).svc.getD (o.slot / 16) 0) + o.slot % 16 / 4

def serviceRoles : List Role := [.walk, .fault 0, .fault 1, .fault 2]

/-- Place the four service flights, halted until the owner's slice. -/
def State.placeService (s : State) (vd : Nat) : State :=
  let o := s.owner vd
  let q := s.serviceQuad o
  let k := s.nextKey
  let pc (r : Role) : DWord := o.vbase + dw (s.vestNat vd (if r = .walk then 0x08 else 0x10) 8)
  let smap := s.serviceMap vd
  let fs := (List.range 4).map fun i =>
    let r := serviceRoles.getD i .walk
    { Flight.fresh (k + i) 0 i vd (coreOfQuad q) q r (pc r &&& pcMask) smap (List.replicate 8 0) with halted := true }
  ({ s with nextKey := k + 4 } : State).enterQuads fs

/-- A start of the owner (R333): the header is checked, and the owner starts or stalls with VESTIBULE. -/
def State.startOwner (s : State) (vd : Nat) : State :=
  s.command vd (fun o => o.state = 0 && o.enable && (s.part o.part).active) fun s =>
    let s : State := s.modOwner vd fun o => { o.takeHost with
      floor := o.hostMinw, counters := List.replicate 25 0, misscurve := List.replicate 17 0, shadows := [], entries := o.wholeRegions
      xferBusy := false, xferPend := none }
    if !s.headerOk vd then (s.stallOwner vd 6 0 0xFF 0 0 (s.owner vd).vbase.toNat).shedFloors (s.owner vd).part
    else
      let h := s.fromHeader vd
      let n := (s.poolOk h h.fpool).getD 0
      let s : State := s.putOwner { h with state := 1, reason := 0, progress := 0 }
      (((s.shedFloors h.part).setPool vd h.fpool n).placeService vd).resumeAll fun f => f.vd = vd

/-- VDCTL_START (R333). -/
def execVdctlStart (vd : Nat) (s : State) : Result := .next (s.startOwner vd)

/-! ### Stall and resume (R351, R352) -/

/-- A stall by the host (R403). -/
def State.stallCmd (s : State) (vd : Nat) : State :=
  s.command vd (fun o => o.state = 1) fun s => s.stallOwner vd 7 0 0xFF 0 0 0

/-- OPCTL_STALL (R403). -/
def execOpctlStall (vd : Nat) (s : State) : Result := .next (s.stallCmd vd)

/-- Reasons that the host may resume (R350). -/
def resumable (reason : Nat) : Bool := reason = 5 || reason = 7 || 0x80 ≤ reason

/-- The owner runs again: its halted flights continue, and its queues are read on. -/
def State.goOn (s : State) (vd : Nat) : State :=
  let s : State := s.modOwner vd fun o => { o with state := 1, reason := 0, progress := 0 }
  (s.resumeOwner vd).pullAll vd

/-- A stalled owner resumes (R352). -/
def State.resumeCmd (s : State) (vd : Nat) : State :=
  s.command vd (fun o => o.state = 2 && resumable o.reason) fun s => s.goOn vd

/-- OPCTL_RESUME (R352). -/
def execOpctlResume (vd : Nat) (s : State) : Result := .next (s.resumeCmd vd)

/-! ### Reset (R402) -/

/-- The owner's flights, teams and grids. -/
def State.flightsOf (s : State) (vd : Nat) : List Nat := (s.flights.filter fun f => f.vd = vd).map Flight.key
def State.teamsOf (s : State) (vd : Nat) : List Team := s.teams.filter fun t => t.vd = vd
def State.gridsOf (s : State) (vd : Nat) : List Nat := (s.grids.filter fun g => g.vd = vd).map Grid.key

/-- Take away everything that the owner's work consists of. -/
def State.endWork (s : State) (vd : Nat) : State :=
  let fs := s.flightsOf vd
  let ts := (s.teamsOf vd).map Team.key
  let gs := s.gridsOf vd
  let mine (k : Nat) : Bool := fs.contains k
  { s with
    flights := s.flights.filter fun f => f.vd ≠ vd
    quads := s.quads.map fun (q : Quad) => { q with order := q.order.filter fun k => !mine k }
    memOps := s.memOps.filter fun o => !mine o.flight
    vfu := s.vfu.filter fun o => !mine o.flight
    sysOps := s.sysOps.filter fun o => !mine o.flight
    copies := s.copies.filter fun c => !mine c.flight
    pins := s.pins.filter fun p => !(s.mxq.any fun c => c.key = p.cmd && mine c.flight)
    mxq := s.mxq.filter fun c => !mine c.flight
    mx := s.mx.filter fun m => match m.team with
      | some t => !ts.contains t
      | none => true
    wc := s.wc.filter fun w => w.vd ≠ vd
    recs := s.recs.filter fun r => !(gs.contains (r.grid / 2) && r.grid % 2 = 0) && r.grid ≠ 2 * vd + 1
    l1tlb := s.l1tlb.filter fun e => e.2.vd ≠ vd
    l2tlb := s.l2tlb.filter fun e => e.2.vd ≠ vd
    l3tlb := s.l3tlb.filter fun e => e.2.vd ≠ vd
    teams := s.teams.filter fun t => t.vd ≠ vd
    residue := ((s.teams.filter fun t => t.vd = vd && t.holds).foldl (fun s t => s.occupy t t.scratch) s).residue
    grids := s.grids.filter fun g => g.vd ≠ vd
    barriers := s.barriers.filter fun b => !gs.contains b.grid
    cur := s.cur.bind fun k => if mine k then none else some k }

/-- The owner's dirty lines, in L1, L2, the LLC and its stash windows, are written back; its gathered stores with them. -/
def State.cleanOwner (s : State) (vd : Nat) : State :=
  let s : State := (s.wc.filter fun w => w.vd = vd).foldl (fun s w =>
    ({ s with wc := s.wc.filter (· ≠ w) } : State).cohWrite w.vd .llc w.bytes) s
  let s : State := (s.teamsOf vd).foldl (fun s t => s.closeWindows t.key) s
  let lns := ((s.lines.filter fun c => c.vd = vd && c.state = .M).map CacheLine.line)
    ++ (s.llc.filter fun l => l.vd = vd && l.dirty ≠ 0).map LlcLine.line
  lns.foldl State.flushLine s

/-- Number of bits set among 16. -/
def bitCount (b : BitVec 16) : Nat := ((List.range 16).filter fun i => b.getLsbD i).length

/-- The fields that are read at owner start, as the host has written them (R402). -/
def Owner.takeCfg (o : Owner) : Owner :=
  let c := o.hostCfg
  { o with
    part := c.part, slot := c.slot, port := c.port, enable := c.enable, vbase := c.vbase, vlimit := c.vlimit
    spillBase := c.spillBase, spillStride := c.spillStride, expose := c.expose }

/-- The owner's registers while a reset of its virtual device runs: no work, its queues disabled, its counters 0, its pending
interrupts discarded; what the host has configured stays. -/
def Owner.cleared (o : Owner) : Owner :=
  let c := Owner.reset o.vd
  { o with
    opBusy := true, dropInt := o.dropInt + dw (bitCount o.pba), balDropping := none
    tvec := c.tvec, wq := c.wq, fq := c.fq, fpool := c.fpool, tree := c.tree, asid := c.asid, sbuf := c.sbuf, held := 0, nframes := 0
    state := 4, reason := 0, pba := 0
    queues := o.queues.map fun (h : HostQueue) => { h with en := false, packets := [], pending := 0, entries := 0 }
    launchQ := [], walks := [], walkHead := 0, walkTail := 0, walkSeq := 0, misses := [], missed := [], faultRing := [], faultHead := 0
    faultTail := 0, faultWait := [], level1 := none, level2 := none, suspTokens := [0, 0], faultSeq := 0, frames := [], progress := 0
    counters := c.counters, floor := 0, errors := [], errDropped := 0, shadows := [], misscurve := c.misscurve
    entries := o.entries.map fun (e : XferEntry) =>
      ({ e with held := e.held.filter Held.isHost, owed := e.owed.filter Held.isHost } : XferEntry).next }

/-- A reset of a virtual device begins: STATE is 4, the owner's dirty lines are written back, and its work ends (R402, R403).
What signals while it runs is discarded (R409). -/
def State.beginReset (s : State) (vd : Nat) : State :=
  let s : State := s.modOwner vd fun o => { o with state := 4, opBusy := true }
  ((s.cleanOwner vd).endWork vd).modOwner vd Owner.cleared

/-- A reset of the virtual device (R402). -/
def State.resetCmd (s : State) (vd : Nat) : State :=
  s.command vd (fun o => o.state < 4) fun s => s.beginReset vd

/-- OPCTL_RESET (R402). -/
def execOpctlReset (vd : Nat) (s : State) : Result := .next (s.resetCmd vd)

/-- FUNCTION_LEVEL_RESET (R402). -/
def execFunctionLevelReset (vd : Nat) (s : State) : Result := .next (s.beginReset vd)

/-! ### Balustrade writes (R404; 21 R425) -/

/-- Whether a range meets another. -/
def meets (a n b m : Nat) : Bool := a < b + m && b < a + n

/-- The host may give the owner this range: no HBM outside its partition's channel groups, no LPDDR-6 outside its
second-tier range (21 R425). -/
def State.balMay (s : State) (vd : Nat) (value : DWord) : Bool :=
  match balRange value with
  | none => true
  | some (b, n, _) =>
    let p := s.partOf vd
    let gs := if p.active then p.groups else []
    let hbm := (List.range 32).all fun g => gs.contains g || !meets b n (Config.groupBytes * g) Config.groupBytes
    let lo := 0x8000000000
    let t2 := if p.active then p.t2 else (0, 0)
    let hi := max b lo
    let top := min (b + n) (lo + 2 ^ 40)
    hbm && (top ≤ hi || (lo + 2 ^ 30 * t2.1 ≤ hi && top ≤ lo + 2 ^ 30 * (t2.1 + t2.2)))

/-- Bits [3:2] of an entry are zero (15 R337). -/
def balMask : DWord := ~~~12

/-- A balustrade write begins: the owner's translations are dropped, its walk requests are stale, and the entry takes its value, with
bits [3:2] zero. -/
def State.balBegin (s : State) (vd n : Nat) (value : DWord) : State :=
  let r := s.dropEntries vd (fun _ => true) (fun _ => true)
  let users := r.1.usersOf vd r.2
  r.1.modOwner vd fun o => { o with bal := listSet o.bal n (value &&& balMask), balDropping := some users }

/-- A write of a balustrade entry (R404): it waits while BUSY is 1. -/
def State.writeBal (s : State) (vd n : Nat) (value : DWord) : State :=
  let o := s.owner vd
  if 64 ≤ n || !s.balMay vd value then s
  else if o.busy then s.putOwner { o with balWaiting := o.balWaiting ++ [(n, value)] }
  else s.balBegin vd n value

/-- BAL_WRITE (R404). -/
def execBalWrite (vd n : Nat) (value : BitVec 64) (s : State) : Result := .next (s.writeBal vd n value)

/-- Writes that wait take effect in order, once BUSY is 0. -/
def State.balNext (s : State) (vd : Nat) : State :=
  let o := s.owner vd
  match o.balWaiting with
  | [] => s
  | w :: ws => if o.busy then s else (s.putOwner { o with balWaiting := ws }).balBegin vd w.1 w.2

/-- The reset of an owner ends, as the schedule has it: STATE is 0, BUSY clears, and what the host has written meanwhile of the
fields of owner start stands (R402, R403; log 63). -/
def State.endReset (s : State) (vd : Nat) : State :=
  let o := s.owner vd
  if o.state ≠ 4 then s else (s.putOwner { o.takeCfg with state := 0, opBusy := false }).balNext vd

/-- BAL_DROP_DONE (R404): BUSY clears when what translated through a dropped entry has completed. -/
def execBalDropDone (vd : Nat) (s : State) : Result :=
  match (s.owner vd).balDropping with
  | none => .next s
  | some ks => if s.allDone ks then .next ((s.modOwner vd fun o => { o with balDropping := none }).balNext vd) else .next s

/-! ### Interrupts (R409) -/

/-- Send the pending messages of unmasked vectors, if delivery is on. -/
def State.sendPending (s : State) (vd : Nat) : State :=
  (List.range 16).foldl (fun s v =>
    let o := s.owner vd
    if o.pba.getLsbD v && !o.msixMask.getLsbD v && !o.hvDesched && o.state < 3 then
      (s.putOwner { o with pba := o.pba &&& ~~~(BitVec.ofNat 16 (2 ^ v)) }).tell (.msix vd v)
    else s) s

/-- A write of HVSTATE: messages held back are sent when delivery is on again (R409). -/
def State.writeHvstate (s : State) (vd : Nat) (w : Word) : State :=
  (s.modOwner vd fun o => { o with hvState := bits w.toNat 1 0 }).sendPending vd

/-- HVSTATE_WRITE (R409). -/
def execHvstateWrite (vd : Nat) (value : BitVec 32) (s : State) : Result := .next (s.writeHvstate vd value)

/-- The masks as the table's control words have them. -/
def Owner.masksOf (o : Owner) : Owner :=
  { o with msixMask := BitVec.ofNat 16 ((List.range 16).foldl (fun n v =>
      if (o.msixTable.getD (16 * v + 12) 0).getLsbD 0 then n + 2 ^ v else n) 0) }

/-- MSIX_VECTOR_UNMASK (R409). -/
def execMsixVectorUnmask (vd vector : Nat) (s : State) : Result :=
  if 16 ≤ vector then .next s
  else .next ((s.modOwner vd fun o =>
    let i := 16 * vector + 12
    { o with
      msixTable := listSet o.msixTable i (o.msixTable.getD i 0 &&& 0xFE)
      msixMask := o.msixMask &&& ~~~(BitVec.ofNat 16 (2 ^ vector)) }).sendPending vd)

/-! ### Pause (R410) -/

/-- A copy of the owner is paused on a fault. -/
def State.copyPaused (s : State) (vd : Nat) : Bool :=
  s.copies.any fun c => (s.flightsOf vd).contains c.flight && match c.state with
    | .faulted | .paused _ => true
    | _ => false

/-- The team's array and tiles are as its sequencer left them on its core, so that a command it has stopped can go on (12
R277). -/
def State.arrayInPlace (s : State) (c : MxCmd) : Bool :=
  match s.team c.team with
  | some t => t.onCore && (s.mxCore t.core).team = some t.key && (s.mxCore t.core).reload = []
  | none => false

/-- A pause (R410): as a stall with reason HOST, but STATE is 3 and BUSY stays 1 until the owner's work has drained. A command
that the sequencer has stopped in place goes on, since started commands complete (15 R351). -/
def State.pauseCmd (s : State) (vd : Nat) : State :=
  s.command vd (fun o => o.state = 1 && !s.copyPaused vd) fun s =>
    let s : State := s.haltAll fun f => f.vd = vd
    let s : State := s.devWrite (bytesAt ((s.owner vd).onPort ((s.owner vd).vbase.toNat + 0x100)) (stallRecord 7 0 0xFF 0 0 0 (s.now vd)))
    let s : State := { s with mxq := s.mxq.map fun (c : MxCmd) =>
      if (s.flightsOf vd).contains c.flight && s.arrayInPlace c then { c with paused := false } else c }
    let s : State := s.modOwner vd fun o => { o with state := 3, opBusy := true }
    (s.raiseEvent vd 0).tell (.stall vd)

/-- OPCTL_PAUSE (R410). -/
def execOpctlPause (vd : Nat) (s : State) : Result := .next (s.pauseCmd vd)

/-- RWALK reads memory; the other instructions of its class make no access that a pause waits for. -/
def SysKind.reads : SysKind → Bool
  | .rwalk _ _ => true
  | _ => false

/-- Every started copy, matrix command and memory access of the owner has completed; an LDS.WAIT may go on waiting, and a stopped
command whose array is not in place is part of its team's saved state. -/
def State.ownerDrained (s : State) (vd : Nat) : Bool :=
  let fs := s.flightsOf vd
  s.copies.all (fun c => !fs.contains c.flight || !c.state.started)
    && s.mxq.all (fun c => !fs.contains c.flight || !c.started || (c.paused && !s.arrayInPlace c))
    && s.memOps.all (fun o => !fs.contains o.flight || o.kind.waits)
    && s.sysOps.all (fun o => !fs.contains o.flight || !o.kind.reads)
    && s.vfu.all (fun o => !fs.contains o.flight)
    && s.flights.all (fun f => f.vd ≠ vd || f.early = [])

/-- PAUSE_DRAINED (R410). -/
def execPauseDrained (vd : Nat) (s : State) : Result :=
  let o := s.owner vd
  if o.state = 3 && o.opBusy && s.ownerDrained vd then .next ((s.putOwner { o with opBusy := false }).balNext vd) else .next s

/-- An unpause (R403): the flights and doorbells go on, and pending messages are sent. -/
def State.unpauseCmd (s : State) (vd : Nat) : State :=
  s.command vd (fun o => o.state = 3) fun s => (s.goOn vd).sendPending vd

/-- OPCTL_UNPAUSE (R403). -/
def execOpctlUnpause (vd : Nat) (s : State) : Result := .next (s.unpauseCmd vd)

/-! ### The migration image (R410) -/

/-- The fields of owner start as the owner has them. -/
def Owner.cfg (o : Owner) : PfConfig := ⟨o.part, o.slot, o.port, o.enable, o.vbase, o.vlimit, o.spillBase, o.spillStride, o.expose⟩

/-- The PF block of an owner, 1 KiB, with these fields of owner start; write-only fields are 0 (R402). -/
def Owner.pfBytes (o : Owner) (c : PfConfig) : List Byte :=
  leBytes 4 (c.part + 16 * c.slot + 512 * c.port + if c.enable then 1024 else 0) ++ leBytes 4 0
    ++ leBytes 8 c.vbase.toNat ++ leBytes 8 c.vlimit.toNat ++ leBytes 4 o.hostSlice ++ leBytes 4 0
    ++ leBytes 4 (o.hostMinw + 256 * o.hostMaxw) ++ leBytes 4 0 ++ leBytes 8 c.spillBase.toNat ++ leBytes 8 c.spillStride.toNat
    ++ leBytes 4 o.hvState ++ leBytes 4 0
    ++ leBytes 4 0 ++ leBytes 4 ((if o.busy then 1 else 0) + 16 * o.opResult) ++ leBytes 8 o.migAddr.toNat ++ leBytes 8 o.migSize.toNat
    ++ leBytes 8 o.dropInt.toNat ++ leBytes 8 o.xferCnt.toNat ++ List.replicate 24 0
    ++ c.expose.flatMap (fun e => leBytes 8 e.1.toNat ++ leBytes 8 e.2.toNat) ++ o.pairs.flatMap (fun p => leBytes 8 p.toNat)
    ++ List.replicate 224 0 ++ o.bal.flatMap fun e => leBytes 8 e.toNat

/-- Owner registers 0x00 to 0x0F; those of flights are 0. -/
def Owner.regBytes (o : Owner) : List Byte :=
  [o.vbase, o.vlimit, o.tvec, o.wq, o.fq, o.fpool, o.tree, o.asid.setWidth 64, 0, 0, 0, 0, 0, 0, dw o.held, o.sbuf].flatMap fun r =>
    leBytes 8 r.toNat

/-- A queue's 32 bytes: the word of QTAIL holds QHEAD below, and above it the completion index and, in bit 31, the phase
(log 20). -/
def HostQueue.bytes (h : HostQueue) : List Byte :=
  leBytes 8 h.qbase.toNat ++ leBytes 4 (h.logn + (if h.en then 256 else 0) + if h.pending ≠ 0 then 512 else 0)
    ++ leBytes 4 (h.qhead % 65536 + 65536 * (h.cqwrite % 32768) + if h.phase then 2 ^ 31 else 0) ++ leBytes 4 h.qhead
    ++ leBytes 4 h.cqhead ++ leBytes 8 h.cqbase.toNat

def HostQueue.ofBytes (h : HostQueue) (bs : List Byte) : HostQueue :=
  let n (o k : Nat) : Nat := leNat ((bs.drop o).take k)
  { h with
    qbase := dw (n 0 8), cqbase := dw (n 24 8), logn := bits (n 8 4) 3 0, en := bits (n 8 4) 8 8 = 1
    qhead := n 16 4, qtail := n 16 4, cqhead := n 20 4, cqwrite := bits (n 12 4) 30 16, phase := bits (n 12 4) 31 31 = 1
    ring := n 0 8 / 64 * 64, cring := n 24 8 / 16 * 16, elogn := bits (n 8 4) 3 0 }

/-- A record of the error log in 32 bytes, its words as ERRQ gives them (17 R390; log 20). -/
def ErrorRec.bytes (r : ErrorRec) : List Byte :=
  leBytes 4 (r.struct + 256 * r.kind + 65536 * r.unit) ++ leBytes 4 0 ++ leBytes 8 r.addr ++ List.replicate 16 0
def errorOf (bs : List Byte) : ErrorRec :=
  let n (o k : Nat) : Nat := leNat ((bs.drop o).take k)
  ⟨n 0 1, n 1 1, n 2 2, n 8 8⟩

/-- The teams of an owner that an image holds. -/
def State.liveTeams (s : State) (vd : Nat) : List Team := (s.teamsOf vd).filter fun t => t.state ≠ .retired

def page4K (n : Nat) : Nat := (n + 4095) / 4096 * 4096

/-- Write one team's context at an address: its frame's bytes, or the team as it stands, halted. -/
def State.imageTeam (s : State) (t : Team) (a : Nat) : State :=
  match s.teamFrame t with
  | some fr => s.copyFrame fr (.at a) (s.ctxSize t)
  | none =>
    match s.grid t.grid, s.variantOf t with
    | some g, some v =>
      let c := g.teamShape v
      let s : State := s.saveCtx (.at a) (s.teamHead t g t.reason) c (s.teamFlights t.key) v.classMap (some t)
      if t.spills.contains .array then
        s.frameWrite (.at a) (c.off 4) (s.frameRead (s.spillFrame t) (c.off 4) (c.off 6 - c.off 4))
      else s
    | _, _ => s

/-- Write one service flight's context. -/
def State.imageService (s : State) (f : Flight) (a : Nat) : State :=
  s.saveCtx (.at a) ⟨0, 3, 0, 0, List.replicate 8 0, s.now f.vd⟩ (shapeOf f.classMap 1 0 false) [f] f.classMap none

/-- Where each context of an image lies, and where the image ends. -/
def placesFrom : Nat → List Nat → List Nat × Nat
  | a, [] => ([], a)
  | a, n :: ns => let r := placesFrom (a + page4K n) ns; (a :: r.1, r.2)

def serviceSize (f : Flight) : Nat := (shapeOf f.classMap 1 0 false).size

def State.serviceFlights (s : State) (vd : Nat) : List Flight := serviceRoles.filterMap fun r => s.serviceFlight vd r

/-- The team as LOAD will find it: its context is in the image, unless it lies in the owner's own memory. -/
def Team.inImage (t : Team) (a : Nat) : Team :=
  match t.state with
  | .resident | .spilt => { t with state := .ready a, spills := [] }
  | .held => { t with state := .faulted a, spills := [] }
  | _ => t

/-- What the device keeps of an owner besides the image. -/
def State.migration (s : State) (vd base : Nat) (places : List Nat) : Migration :=
  let ts := s.liveTeams vd
  let fs := s.flightsOf vd
  let gs := s.gridsOf vd
  { addr := base
    owner := s.owner vd
    grids := s.grids.filter fun g => g.vd = vd
    teams := ((List.range ts.length).filterMap fun i => (ts[i]?).map fun t =>
        let t : Team := if t.mx.isNone && (s.mxCore t.core).team = some t.key then { t with mx := some (s.mxCore t.core) } else t
        t.inImage (places.getD i 0))
      ++ (s.teamsOf vd).filter fun t => t.state = .retired
    flights := s.flights.filter fun f => f.vd = vd
    barriers := s.barriers.filter fun b => gs.contains b.grid
    memOps := s.memOps.filter fun o => fs.contains o.flight
    sysOps := s.sysOps.filter fun o => fs.contains o.flight
    copies := s.copies.filter fun c => fs.contains c.flight
    mxq := s.mxq.filter fun c => fs.contains c.flight }

/-- A save (R410): the image is written at MIGADDR. -/
def State.saveCmd (s : State) (vd : Nat) : State :=
  s.command vd (fun o => o.state = 3) fun s =>
    let base := (s.owner vd).onPort (s.owner vd).migAddr.toNat
    let s : State := ((s.liveTeams vd).filter Team.holds).foldl (fun s t => s.quiesce t.key) s
    let ts := s.liveTeams vd
    let svc := s.serviceFlights vd
    let (ps, stop) := placesFrom (base + 0x1000) (ts.map s.ctxSize ++ svc.map serviceSize)
    let o := s.owner vd
    let s : State := s.putOwner { o with migSize := dw (stop - base) }
    let head := leBytes 2 0x4D56 ++ leBytes 2 1 ++ leBytes 4 ps.length ++ leBytes 8 (stop - base) ++ List.replicate 48 0
      ++ o.regBytes ++ (s.owner vd).pfBytes (s.owner vd).cfg ++ o.queues.flatMap HostQueue.bytes ++ leBytes 8 o.pba.toNat
      ++ ((List.range 25).map (s.counterNow vd)).flatMap (fun c => leBytes 8 c.toNat) ++ (o.errors.take 16).flatMap ErrorRec.bytes
    let s : State := s.frameWrite (.at base) 0 (head ++ List.replicate (0x1000 - head.length) 0)
    let s : State := (List.range ts.length).foldl (fun s i => match ts[i]? with
      | some t => s.imageTeam t (ps.getD i 0)
      | none => s) s
    let s : State := (List.range svc.length).foldl (fun s i => match svc[i]? with
      | some f => s.imageService f (ps.getD (ts.length + i) 0)
      | none => s) s
    { s with saved := kset Migration.addr (s.migration vd base ps) s.saved }

/-- OPCTL_SAVE (R410). -/
def execOpctlSave (vd : Nat) (s : State) : Result := .next (s.saveCmd vd)

/-- Bytes of an image. -/
def State.image (s : State) (base o n : Nat) : List Byte := s.frameRead (.at base) o n

/-- The image is one that this owner may take: its configuration is the destination's. -/
def State.imageOk (s : State) (o : Owner) (base : Nat) : Bool :=
  let b := o.pfBytes o.cfg
  let same (off n : Nat) : Bool := s.image base (0x0C0 + off) n = (b.drop off).take n
  leNat (s.image base 0 2) = 0x4D56 && leNat (s.image base 2 2) = 1 && same 0x008 16 && same 0x080 64 && same 0x200 512

/-- The owner as the image restores it. -/
def State.imageOwner (s : State) (o : Owner) (base : Nat) : Owner :=
  let n (off k : Nat) : Nat := leNat (s.image base off k)
  let reg (i : Nat) : DWord := dw (n (0x40 + 8 * i) 8)
  { o with
    tvec := reg 2, wq := reg 3, fq := reg 4, fpool := reg 5, tree := reg 6, asid := (reg 7).setWidth 32, sbuf := reg 15, held := 0
    queues := (List.range 8).map fun q => (o.queues.getD q HostQueue.reset).ofBytes (s.image base (0x4C0 + 32 * q) 32)
    pba := o.pba ||| BitVec.ofNat 16 (n 0x5C0 2)
    counters := (List.range 25).map fun k => dw (n (0x5C8 + 8 * k) 8)
    errors := ((List.range 16).map fun i => errorOf (s.image base (0x690 + 32 * i) 32)).filter fun r => r.struct ≠ 0
    nframes := leNat (s.bytes (bits (reg 5).toNat 51 12 * 4096) 4)
    entries := o.wholeRegions, state := 3, reason := 0, floor := o.hostMinw }

/-- A wait for a walk that was outstanding at SAVE looks up again. -/
def Flight.lookAgain (f : Flight) : Flight :=
  match f.block with
  | .walk va k l => { f with block := .lookup va k l }
  | _ => f

/-- Service flights restored from the last contexts of an image. -/
def State.loadService (s : State) (vd base first : Nat) (old : List Flight) : State :=
  let o := s.owner vd
  let q := s.serviceQuad o
  let smap := s.serviceMap vd
  let c := shapeOf smap 1 0 false
  let k := s.nextKey
  let fs := (List.range 4).map fun i =>
    let r := serviceRoles.getD i .walk
    let f := (old.find? fun f => f.role = r).getD (Flight.fresh (k + i) 0 i vd 0 0 r 0 smap (List.replicate 8 0))
    { (s.loadFlight (.at (base + first + i * page4K c.size)) c smap 0 f).lookAgain with
      vd := vd, core := coreOfQuad q, quad := q, halted := true }
  ({ s with nextKey := k + 4 } : State).enterQuads fs

/-- Where `n` contexts lie from an address on. -/
def State.contextsAt (s : State) : Nat → Nat → List Nat
  | 0, _ => []
  | n + 1, a => a :: s.contextsAt n (a + page4K (s.frameNat (.at a) 0x20 8))

/-- The teams of an image that another device has written, each ready with its context in the image, under grids of which the
headers name the records alone; those are read again before the teams are placed (log 20). -/
def State.loadTeams (s : State) (vd : Nat) (as : List Nat) : State :=
  let n (a o k : Nat) : Nat := s.frameNat (.at a) o k
  let vas := (as.map fun a => n a 8 8).dedup
  let k := s.nextKey
  let grids := (List.range vas.length).map fun i =>
    { gridOf ⟨k + i, 0, dw (vas.getD i 0), 0, false, .flight⟩ vd none [] with state := .dispatched }
  let teams := (List.range as.length).map fun j =>
    let a := as.getD j 0
    { Team.fresh (k + vas.length + j) (k + vas.idxOf (n a 8 8)) j vd 0 (n a 2 1) with handle := n a 6 2, state := .ready a }
  { s with nextKey := k + vas.length + as.length, grids := s.grids ++ grids, teams := s.teams ++ teams }

/-- A load (R410): refused when the image's configuration differs; else the owner is restored, paused. On
the device that saved it, its grids and its teams' waiting work come from what the device keeps, once the owner it was has ended;
else its teams come from the image (log 20). -/
def State.loadCmd (s : State) (vd : Nat) : State :=
  let base := (s.owner vd).onPort (s.owner vd).migAddr.toNat
  s.command vd (fun o => o.state = 0 && s.imageOk o base) fun s =>
    let o := s.owner vd
    let nctx := leNat (s.image base 4 4)
    let size := leNat (s.image base 8 8)
    let svc := page4K (shapeOf (s.serviceMap vd) 1 0 false).size
    let kept := (kget Migration.addr base s.saved).bind fun m =>
      if m.owner.vd = vd && m.flights.all (fun f => (s.flight f.key).isNone) && m.teams.all (fun t => (s.team t.key).isNone)
          && (m.teams.filter fun t => t.state ≠ .retired).length + 4 = nctx then some m else none
    match kept with
    | none =>
      let s : State := s.loadTeams vd (s.contextsAt (nctx - 4) (base + 0x1000))
      ((s.putOwner (s.imageOwner o base)).shedFloors o.part).loadService vd base (size - 4 * svc) []
    | some m =>
      let w := m.owner
      let o : Owner := { o with
        launchQ := w.launchQ, walkHead := w.walkHead, walkTail := w.walkHead, walkSeq := w.walkSeq, faultRing := w.faultRing
        faultHead := w.faultHead, faultTail := w.faultTail, faultWait := w.faultWait, level1 := w.level1, level2 := w.level2
        suspTokens := w.suspTokens, faultSeq := w.faultSeq, frames := w.frames, errDropped := w.errDropped, queues := w.queues }
      let s : State := (s.putOwner (s.imageOwner o base)).shedFloors o.part
      let s : State := { s with
        grids := s.grids ++ m.grids
        teams := s.teams ++ m.teams
        flights := s.flights ++ ((m.flights.filter fun f => !f.role.isService).map fun f => { f.lookAgain with halted := true })
        barriers := s.barriers ++ m.barriers
        memOps := s.memOps ++ m.memOps
        sysOps := s.sysOps ++ m.sysOps
        copies := s.copies ++ m.copies
        mxq := s.mxq ++ m.mxq
        saved := kdel Migration.addr base s.saved }
      s.loadService vd base (size - 4 * svc) (m.flights.filter fun f => f.role.isService)

/-- OPCTL_LOAD (R410). -/
def execOpctlLoad (vd : Nat) (s : State) : Result := .next (s.loadCmd vd)

end Sys2Proof.Machine
end

