-- ==== Sys2Proof/Machine/Expose.lean ====
section
/-!
DEFINITION. Exposed memory from the host's side (19 R396, R402, R405 to R408, R411; 20 R412): requests for ownership,
transfers, CXL.mem and BAR2 accesses, snoops, and blocks that arrive from a peer.
-/

namespace Sys2Proof.Machine

/-! ### Requests (R406) -/

/-- XFERSTAT after a request: BUSY, ERR with its event, the state and SPLIT. -/
def State.xferStat (s : State) (vd : Nat) (busy err isP split : Bool) : State :=
  let s : State := s.modOwner vd fun o => { o with xferBusy := busy, xferErr := err, xferP := isP, xferSplit := split }
  if err then s.raiseEvent vd 3 else s

/-- The entry of an exposure offset. -/
def Owner.entryAt (o : Owner) (off : Nat) : Option XferEntry := o.entries.find? fun e => e.covers (off / 4096 * 4096)

def regionOf (off : Nat) : Nat := off / 2 ^ 21 * 2 ^ 21
def XferEntry.whole (e : XferEntry) : Bool := e.len = 2 ^ 21

/-- A request in error: the state that it leaves is that of the entry it names, if there is one. -/
def State.xferBad (s : State) (vd off : Nat) : State :=
  let e := (s.owner vd).entryAt off
  s.xferStat vd false true ((e.map XferEntry.isP).getD false) ((e.map fun e => !e.whole).getD false)

/-- No transfer of the entry runs, and no access to it is owed its turn. -/
def XferEntry.idle (e : XferEntry) : Bool := e.transfer.isNone && e.owed = []

/-- The entries of a region. -/
def Owner.regionEntries (o : Owner) (off : Nat) : List XferEntry := o.entries.filter fun e => regionOf e.offset = regionOf off

/-- Split a region into its 512 entries. -/
def State.xferSplitAt (s : State) (vd : Nat) (e : XferEntry) : State :=
  let parts := (List.range 512).map fun i => ({ e with offset := e.offset + 4096 * i, len := 4096 } : XferEntry)
  let s : State := if !e.whole then s
    else s.modOwner vd fun o => { o with entries := o.entries.flatMap fun x => if x.offset = e.offset then parts else [x] }
  s.xferStat vd false false e.isP true

/-- Merge the entries of a region, where they agree. -/
def State.xferMergeAt (s : State) (vd off : Nat) (e : XferEntry) : State :=
  let base := regionOf off
  let es := (s.owner vd).regionEntries off
  if e.whole then s.xferStat vd false false e.isP false
  else if es.any fun x => x.isP ≠ e.isP then s.xferBad vd off
  else
    let merged : XferEntry := ⟨base, 2 ^ 21, e.isP, none, false, es.flatMap XferEntry.held, []⟩
    let s : State := s.modOwner vd fun o => { o with
      entries := o.entries.flatMap fun x => if regionOf x.offset ≠ base then [x] else if x.offset = base then [merged] else [] }
    s.xferStat vd false false e.isP false

/-- Transfer an entry by request: BUSY until it completes. -/
def State.xferTo (s : State) (vd : Nat) (toP : Bool) (e : XferEntry) : State :=
  if e.isP = toP then s.xferStat vd false false e.isP !e.whole
  else
    let e : XferEntry := { e with transfer := some (toP, if toP then [] else e.hostLines), request := true }
    (s.putEntry vd e).xferStat vd true false (s.owner vd).xferP !e.whole

/-- A request whose op is 1 split, 2 merge, 3 transfer to P, 4 transfer to A. It waits, BUSY, while an entry that it concerns is in
transfer or owes an access its turn (log 64). -/
def State.xferAct (s : State) (vd op off : Nat) : State :=
  let o := s.owner vd
  match o.entryAt off with
  | none => s.xferBad vd off
  | some e =>
    let es := if op = 2 then o.regionEntries off else [e]
    if es.any fun x => !x.idle then
      (s.putOwner { o with xferPend := some (op, off) }).xferStat vd true false o.xferP o.xferSplit
    else match op with
      | 1 => s.xferSplitAt vd e
      | 2 => s.xferMergeAt vd off e
      | 3 => s.xferTo vd true e
      | _ => s.xferTo vd false e

/-- A write of XFERREQ, ignored while BUSY is 1; a reserved op is an error. -/
def State.xferReq (s : State) (vd op off : Nat) : State :=
  if (s.owner vd).xferBusy then s
  else if op = 0 || 4 < op then s.xferBad vd off
  else s.xferAct vd op off

/-- A request that waits is looked at again. -/
def State.xferRetry (s : State) (vd : Nat) : State :=
  match (s.owner vd).xferPend with
  | none => s
  | some (op, off) => (s.modOwner vd fun o => { o with xferPend := none }).xferAct vd op off

/-- XFERREQ_SPLIT (R406). -/
def execXferreqSplit (vd : Nat) (offset : Nat) (s : State) : Result := .next (s.xferReq vd 1 offset)

/-- XFERREQ_MERGE (R406). -/
def execXferreqMerge (vd : Nat) (offset : Nat) (s : State) : Result := .next (s.xferReq vd 2 offset)

/-- XFERREQ_TO_P (R407). -/
def execXferreqToP (vd : Nat) (offset : Nat) (s : State) : Result := .next (s.xferReq vd 3 offset)

/-- XFERREQ_TO_A (R407). -/
def execXferreqToA (vd : Nat) (offset : Nat) (s : State) : Result := .next (s.xferReq vd 4 offset)

/-! ### Accesses from the host -/

def accAt : HostAccess → Nat
  | .read o _ => o
  | .write o _ => o
def accLen : HostAccess → Nat
  | .read _ n => n
  | .write _ bs => bs.length

/-- The physical addresses of an access's bytes, none past the exposure. -/
def Owner.exposed (o : Owner) (a : HostAccess) : List (Option Nat) :=
  (List.range (accLen a)).map fun i => rangesAt o.exposure (accAt a + i)

/-- The bytes of a write that reach the exposure. -/
def Owner.exposedWrites (o : Owner) (a : HostAccess) : List (Nat × Byte) :=
  match a with
  | .read _ _ => []
  | .write off bs => (List.range bs.length).filterMap fun i => (rangesAt o.exposure (off + i)).map fun p => (p, bs.getD i 0)

/-- The entries that an access touches. -/
def Owner.entriesOf (o : Owner) (a : HostAccess) : List XferEntry :=
  o.entries.filter fun e => accAt a < e.offset + e.len && e.offset < accAt a + accLen a

/-- A CXL.mem access performed: a read's bytes go back, a write's reach memory. -/
def State.hostAccess (s : State) (vd : Nat) (a : HostAccess) : State :=
  let o := s.owner vd
  match a with
  | .read _ _ => s.tell (.readData vd ((o.exposed a).map fun p => (p.map s.byte).getD 0))
  | .write _ _ => s.devWrite (o.exposedWrites a)

/-- A CXL.mem access: held, and the cause of a transfer to P, while an entry that it touches is A or in transfer (R407). -/
def State.cxlAccess (s : State) (vd : Nat) (a : HostAccess) : State :=
  let o := s.owner vd
  match (o.entriesOf a).find? fun e => !e.isP || e.transfer.isSome with
  | none => s.hostAccess vd a
  | some e => s.putEntry vd ({ e with held := e.held ++ [.host a] } : XferEntry).next

/-- The port of a virtual device is in plain PCIe mode, without CXL.cache and CXL.mem (R394). -/
def State.plain (s : State) (vd : Nat) : Bool := s.pcie.getD (s.owner vd).port false

/-- HOST_CXL_MEM_ACCESS (R402, R407): a decoder with no valid HDMTGT reaches no exposure; in minimal mode, and on a port in plain
PCIe mode, there is no such traffic (R394; 21 R421). -/
def execHostCxlMemAccess (decoder : Nat) (acc : HostAccess) (s : State) : Result :=
  let w := s.hdmTgt.getD decoder 0
  let vd := bits w.toNat 8 0
  if s.mgmt.minimal || s.pcie.all id || (w.getLsbD 31 && s.plain vd) then .next s
  else if !w.getLsbD 31 then
    let s : State := s.tell (.noTarget decoder)
    .next (match acc with
      | .read _ n => s.tell (.readData vd (List.replicate n 0))
      | .write _ _ => s)
  else .next (s.cxlAccess vd acc)

/-- An access performed at .SY with a tag (R405; 17 R373): the physical addresses of its bytes, and those it writes. -/
def State.windowAccess (s : State) (vd tag : Nat) (as : List (Option Nat)) (ws : List (Nat × Byte)) (a : HostAccess) : State :=
  match a with
  | .read _ _ =>
    let r := s.load tag 288 2 false 0 (as.filterMap id)
    r.1.tell (.readData vd (as.map fun p => (p.map fun x => r.1.readByte (if r.1.uncachedAt tag x then 4 else 2) x).getD 0))
  | .write _ _ => s.sysWrite tag ws

/-- A BAR2 access performed (R405). -/
def State.barAccess (s : State) (vd : Nat) (a : HostAccess) : State :=
  s.windowAccess vd vd ((s.owner vd).exposed a) ((s.owner vd).exposedWrites a) a

/-- A write waits for pins (12 R280). -/
def State.barWaits (s : State) (vd : Nat) (a : HostAccess) : Bool := ((s.owner vd).exposedWrites a).any fun w => s.pinned (w.1 / 128)

/-- A BAR2 access: held while the host has one of its bytes, else performed. -/
def State.bar2 (s : State) (vd : Nat) (a : HostAccess) : State :=
  (s.devHold (((s.owner vd).exposed a).filterMap id) (.bar2 a)).getD (s.barAccess vd a)

/-- A physical-function access to memory, by physical address, with the tag of a partition's pseudo-owner (17 R373). The manual
names such accesses, and no window that carries them (log 93). -/
def State.pfAccess (s : State) (p : Nat) (a : HostAccess) : State :=
  let as := (List.range (accLen a)).map fun i => accAt a + i
  let ws := match a with
    | .read _ _ => []
    | .write at' bs => bytesAt at' bs
  (s.modOwner (pseudoOwner p) fun o => { o with part := p }).windowAccess (pseudoOwner p) (pseudoOwner p) (as.map some) ws a

/-- BAR2_ACCESS (R405): on the port that VDCFG.PORT does not select it is an Unsupported Request (R395), and in minimal mode there
are no virtual functions (21 R421). From 384 up `vd` stands for the physical function and a partition. -/
def execBar2Access (vd : Nat) (acc : PortAccess) (s : State) : Result :=
  if 384 ≤ vd then .next (s.pfAccess (vd - 384) acc.access)
  else if s.mgmt.minimal then .next s
  else if acc.port ≠ (s.owner vd).port then .next (s.tell (.unsupported acc.port vd))
  else if s.barWaits vd acc.access then .next s
  else .next (s.bar2 vd acc.access)

/-! ### Transfers (R407, R408) -/

/-- The physical lines of an entry. -/
def Owner.entryLines (o : Owner) (e : XferEntry) : List Nat :=
  (List.range (e.len / 128)).filterMap fun i => (rangesAt o.exposure (e.offset + 128 * i)).map fun a => a / 128

/-- Gathered stores to a line reach memory with the transfer. -/
def State.drainGathered (s : State) (ln : Nat) : State :=
  let ws := s.wc.filter fun w => w.line = ln
  ({ s with wc := s.wc.filter fun w => w.line ≠ ln } : State).memPut (ws.flatMap WcLine.bytes)

/-- Serve held accesses in order up to the first of the other side, which begins the next transfer. Those of the device's own
instructions and engines are performed by their own events, and are owed their turn. -/
def State.serveHeld (s : State) (vd off : Nat) : List Held → State
  | [] => s
  | w :: ws =>
    match kget XferEntry.offset off (s.owner vd).entries with
    | none => s
    | some e =>
      if w.isCxl ≠ e.isP then s.putEntry vd ({ e with held := w :: ws } : XferEntry).next
      else match w with
        | .host a => (s.cxlAccess vd a).serveHeld vd off ws
        | .bar2 a => (s.bar2 vd a).serveHeld vd off ws
        | .post o a bs => (s.heldPost o a bs).serveHeld vd off ws
        | w => (s.putEntry vd { e with owed := e.owed ++ [w] }).serveHeld vd off ws

/-- What is owed its turn can still be performed as things stand: its flight or team has not halted, its owner runs. -/
def State.mayServe (s : State) (vd : Nat) : Held → Bool
  | .op k => match s.memOp k, s.mxCmd k, s.flight k with
    | some _, _, _ => true
    | _, some c, _ => ((s.team c.team).map s.teamRuns).getD false
    | _, _, some f => !f.halted && !f.ended
    | _, _, _ => s.sysOps.any fun o => o.key = k
  | .sys (.reload core) => ((s.mxCore core).team.bind s.team).any s.teamRuns
  | .sys (.peer _) => (s.owner vd).state ≠ 0
  | .sys _ => (s.owner vd).state = 1
  | .copy k => (s.copy k).any fun c => c.state.started
  | _ => true

/-- With no transfer under way: an access that was owed its turn, and whose maker has halted since, is owed it no longer; the first
held access then begins the next transfer, and a waiting request is looked at again (R406, R408; log 64). -/
def State.xferGoOn (s : State) (vd : Nat) (e : XferEntry) : State :=
  (s.putEntry vd ({ e with owed := e.owed.filter (s.mayServe vd) } : XferEntry).next).xferRetry vd

/-- XFER_COMPLETE (R407): `entry` is the exposure offset at which the entry starts. In plain PCIe mode a host has no lines to give
back. -/
def execXferComplete (vd : Nat) (entry : Nat) (s : State) : Result :=
  let o := s.owner vd
  match kget XferEntry.offset entry o.entries with
  | none => .next s
  | some e =>
    match e.transfer with
    | none => .next (s.xferGoOn vd e)
    | some (toP, lines) =>
      let lns := if toP then o.entryLines e else []
      if (lines ≠ [] && !s.plain vd) || lns.any s.pinned then .next s
      else
        let s : State := lns.foldl (fun s ln => (s.flushLine ln).drainGathered ln) s
        let s : State := s.putEntry vd { e with isP := toP, transfer := none, request := false, held := [] }
        let s : State := s.modOwner vd fun o => { o with xferCnt := o.xferCnt + 1 }
        let s : State := if e.request then s.xferStat vd false false toP !e.whole else s
        .next (((s.serveHeld vd entry e.held).pullAll vd).xferRetry vd)

/-- BIRSP_RECEIVED (R407): a host's answer for one 64-byte line, with its dirty bytes, which go to HBM unencoded (20 R412). -/
def execBirspReceived (vd entry line : Nat) (dirty : Option (List (BitVec 8))) (s : State) : Result :=
  let o := s.owner vd
  match kget XferEntry.offset entry o.entries with
  | none => .next s
  | some e =>
    match e.transfer with
    | some (false, lines) =>
      if !lines.contains line then .next s
      else
        let ws := match dirty with
          | some bs => (List.range 64).filterMap fun i => (rangesAt o.exposure (line + i)).map fun p => (p, bs.getD i 0)
          | none => []
        .next ((s.devWrite ws).putEntry vd { e with transfer := some (false, lines.filter (· ≠ line)) })
    | _ => .next s

/-- HOST_SNOOP (R396): a host snoop of either half of a host line acts on the whole device line. It waits for pins (12 R280), and
there is none on a port in plain PCIe mode (R394). -/
def execHostSnoop (line : Nat) (invalidate : Bool) (s : State) : Result :=
  if 128 * line < 2 ^ 51 || s.pinned line || s.pcie.getD (if 128 * line < 2 ^ 64 then 0 else 1) false then .next s
  else if invalidate then .next (s.flushLine line)
  else .next ((s.recallLine line).shareLine line)

/-! ### Blocks from a peer (R411) -/

/-- The pages of a block. -/
def peerPageList (b : PeerBlock) : List Nat :=
  ((List.range b.bytes.length).map fun i => (b.va.toNat + i) % vaMod / 4096).dedup

/-- Translate a block's pages as the owner's system accesses are: where they lie, none while a walk runs, `false` where it
failed. -/
def State.peerPages (s : State) (b : PeerBlock) (ps : List Nat) : State × Option (List (Nat × Nat × Bool)) × Bool :=
  let asid := (s.owner b.vd).asid.toNat % 65536
  ps.foldl (fun (x : State × Option (List (Nat × Nat × Bool)) × Bool) p =>
    let q := x.1.sysLook b.vd asid (4096 * p) .copyWrite (.peer b)
    match q.2 with
    | .at pa uc => (q.1, x.2.1.map (· ++ [(p, pa, uc)]), x.2.2)
    | .waits => (q.1, none, x.2.2)
    | .fails => (q.1, none, false)) (s, some [], true)

/-- The pairing of this owner and the sending owner counts. -/
def State.peerPaired (s : State) (b : PeerBlock) : Bool :=
  s.pairCounts b.vd b.link && pairVd ((s.owner b.vd).pairs.getD b.link 0) = b.farVd

/-- PEER_BLOCK_ARRIVAL (R411): performed at .SY with the owner's tag, or refused with no fault record. -/
def execPeerBlockArrival (b : PeerBlock) (s : State) : Result :=
  let reply (s : State) (ok : Bool) : State := (s.forget b.vd (.peer b)).tell (.peerReply b.link b.vd ok)
  if !s.peerPaired b || (s.owner b.vd).state = 0 then .next (reply s false)
  else match s.peerPages b (peerPageList b) with
    | (s, _, false) => .next (reply s false)
    | (s, none, true) => .next s
    | (s, some ps, true) =>
      let ws := (List.range b.bytes.length).map fun i => ((pagePhys ps ((b.va.toNat + i) % vaMod)).1, b.bytes.getD i 0)
      if ws.any fun w => s.pinned (w.1 / 128) then .next s
      else match s.devHold (ws.map Prod.fst) (.sys (.peer b)) with
        | some s => .next s
        | none => .next (reply ((s.sysWrite b.vd ws).served (.sys (.peer b))) true)

end Sys2Proof.Machine
end

