-- ==== Sys2Proof/Machine/Crypto.lean ====
section
/-!
DEFINITION. SHA-256 and RSASSA-PKCS1-v1_5 verification, which the hash and signature accelerator performs (21 R416).
The manual names both and does not define them: log 21.
-/

namespace Sys2Proof.Machine

/-! ### SHA-256 -/

def shaK : List Word :=
  [0x428a2f98, 0x71374491, 0xb5c0fbcf, 0xe9b5dba5, 0x3956c25b, 0x59f111f1, 0x923f82a4, 0xab1c5ed5]
    ++ [0xd807aa98, 0x12835b01, 0x243185be, 0x550c7dc3, 0x72be5d74, 0x80deb1fe, 0x9bdc06a7, 0xc19bf174]
    ++ [0xe49b69c1, 0xefbe4786, 0x0fc19dc6, 0x240ca1cc, 0x2de92c6f, 0x4a7484aa, 0x5cb0a9dc, 0x76f988da]
    ++ [0x983e5152, 0xa831c66d, 0xb00327c8, 0xbf597fc7, 0xc6e00bf3, 0xd5a79147, 0x06ca6351, 0x14292967]
    ++ [0x27b70a85, 0x2e1b2138, 0x4d2c6dfc, 0x53380d13, 0x650a7354, 0x766a0abb, 0x81c2c92e, 0x92722c85]
    ++ [0xa2bfe8a1, 0xa81a664b, 0xc24b8b70, 0xc76c51a3, 0xd192e819, 0xd6990624, 0xf40e3585, 0x106aa070]
    ++ [0x19a4c116, 0x1e376c08, 0x2748774c, 0x34b0bcb5, 0x391c0cb3, 0x4ed8aa4a, 0x5b9cca4f, 0x682e6ff3]
    ++ [0x748f82ee, 0x78a5636f, 0x84c87814, 0x8cc70208, 0x90befffa, 0xa4506ceb, 0xbef9a3f7, 0xc67178f2]

def shaInit : List Word :=
  [0x6a09e667, 0xbb67ae85, 0x3c6ef372, 0xa54ff53a, 0x510e527f, 0x9b05688c, 0x1f83d9ab, 0x5be0cd19]

/-- A number from bytes, the first the most significant. -/
def beNat (bs : List Byte) : Nat := bs.foldl (fun n b => 256 * n + b.toNat) 0

/-- The `n` bytes of a number, the most significant first. -/
def beBytes (n v : Nat) : List Byte := (leBytes n v).reverse

/-- The schedule, latest word first, extended `n` times. -/
def shaExtend : Nat → List Word → List Word
  | 0, ws => ws
  | n + 1, ws =>
    let w (i : Nat) : Word := ws.getD (i - 1) 0
    let s0 := (w 15).rotateRight 7 ^^^ (w 15).rotateRight 18 ^^^ ((w 15) >>> 3)
    let s1 := (w 2).rotateRight 17 ^^^ (w 2).rotateRight 19 ^^^ ((w 2) >>> 10)
    shaExtend n ((w 16 + s0 + w 7 + s1) :: ws)

def shaRound (h : List Word) (kw : Word × Word) : List Word :=
  let v (i : Nat) : Word := h.getD i 0
  let s1 := (v 4).rotateRight 6 ^^^ (v 4).rotateRight 11 ^^^ (v 4).rotateRight 25
  let ch := (v 4 &&& v 5) ^^^ (~~~(v 4) &&& v 6)
  let t1 := v 7 + s1 + ch + kw.1 + kw.2
  let s0 := (v 0).rotateRight 2 ^^^ (v 0).rotateRight 13 ^^^ (v 0).rotateRight 22
  let maj := (v 0 &&& v 1) ^^^ (v 0 &&& v 2) ^^^ (v 1 &&& v 2)
  [t1 + s0 + maj, v 0, v 1, v 2, v 3 + t1, v 4, v 5, v 6]

/-- One block of 64 bytes. -/
def shaBlock (h : List Word) (b : List Byte) : List Word :=
  let ws := (List.range 16).map fun i => wd (beNat ((b.drop (4 * i)).take 4))
  let sched := (shaExtend 48 ws.reverse).reverse
  (h.zip ((shaK.zip sched).foldl shaRound h)).map fun p => p.1 + p.2

def shaBlocks : Nat → List Word → List Byte → List Word
  | 0, h, _ => h
  | n + 1, h, bs => shaBlocks n (shaBlock h (bs.take 64)) (bs.drop 64)

def sha256 (bs : List Byte) : List Byte :=
  let zeros := (119 - bs.length % 64) % 64
  let padded := bs ++ [0x80] ++ List.replicate zeros 0 ++ beBytes 8 (8 * bs.length)
  (shaBlocks (padded.length / 64) shaInit padded).flatMap fun w => beBytes 4 w.toNat

/-! ### Signatures -/

/-- s^65537 mod n. -/
def rsaPublic (s n : Nat) : Nat := (List.range 16).foldl (fun x _ => x * x % n) (s % n) * s % n

/-- The encoded message of a SHA-256 digest in 384 bytes. -/
def pkcs1 (digest : List Byte) : List Byte :=
  let info : List Byte := [0x30, 0x31, 0x30, 0x0d, 0x06, 0x09, 0x60, 0x86, 0x48, 0x01] ++ [0x65, 0x03, 0x04, 0x02, 0x01, 0x05, 0x00, 0x04, 0x20]
  [0x00, 0x01] ++ List.replicate 330 0xFF ++ [0x00] ++ info ++ digest

/-- The signature of a digest under a modulus. -/
def rsaVerify (modulus sig digest : List Byte) : Bool :=
  let n := beNat modulus
  let s := beNat sig
  s < n && rsaPublic s n = beNat (pkcs1 digest)

end Sys2Proof.Machine
end

