-- ==== Sys2Proof/Machine/Mgmt.lean ====
section
/-!
DEFINITION. The management core's blocks and the package (21 R414 to R427, R430): the first stage, the watchdog, the hash and
signature accelerator, the flash controller, the DOE mailbox, partitions, arcade links, clocks and heat.
-/

namespace Sys2Proof.Machine

def State.setMgmt (s : State) (g : Mgmt → Mgmt) : State := { s with mgmt := g s.mgmt }

/-! ### The address map (R414) -/

def romBytes : Nat := 0x10000
def sramBase : Nat := 0x10000000
def sramBytes : Nat := 0x80000
def flashBase : Nat := 0x40000000
def flashBytes : Nat := 0x4000000

/-- The byte at an address of ROM, SRAM or flash; none elsewhere. -/
def Mgmt.byteAt (m : Mgmt) (a : Nat) : Option Byte :=
  if a < romBytes then some (m.rom.get a)
  else if sramBase ≤ a && a < sramBase + sramBytes then some (m.sram.get (a - sramBase))
  else if flashBase ≤ a && a < flashBase + flashBytes then some (m.flash.get (a - flashBase))
  else none

/-- A range as the accelerator reads it; none on a bus error. -/
def Mgmt.range (m : Mgmt) (a n : Nat) : Option (List Byte) :=
  let bs := (List.range n).map fun i => m.byteAt (a + i)
  if bs.all Option.isSome then some (bs.map fun b => b.getD 0) else none

def Mgmt.flashWord (m : Mgmt) (o : Nat) : Nat := leNat (m.flash.read o 4)

/-! ### The accelerator (R416, R417) -/

def Mgmt.measure (m : Mgmt) (i : Nat) (digest : List Byte) : Mgmt :=
  { m with meas := listSet m.meas i (sha256 (m.meas.getD i [] ++ digest)) }

def Mgmt.hsaStart (m : Mgmt) (op : HsaOp) : Mgmt := if m.hsaBusy = .none then { m with hsaBusy := op } else m

def hsaStart (op : HsaOp) (s : State) : Result := .next (s.setMgmt fun m => m.hsaStart op)

/-- HSA_HASH (R416). -/
def execHsaHash (s : State) : Result := hsaStart .hash s

/-- HSA_VERIFY (R416). -/
def execHsaVerify (s : State) : Result := hsaStart .verify s

/-- HSA_EXTEND (R416). -/
def execHsaExtend (s : State) : Result := hsaStart .extend s

/-- PASS, and ERR. -/
def Mgmt.verify (m : Mgmt) : Mgmt :=
  let idx := m.hsaIdx.toNat
  if 3 < idx then { m with hsaPass := false, hsaErr := 1 }
  else match m.range m.hsaKey.toNat 384, m.range m.hsaSrc.toNat 384 with
    | some key, some sig =>
      { m with
        hsaErr := 0
        hsaPass := !m.revoke.getLsbD idx && sha256 key = m.fuseKey.getD idx [] && rsaVerify key sig m.dig }
    | _, _ => { m with hsaPass := false, hsaErr := 2 }

/-- HSA_OP_DONE (R416). The digest of a HASH that met a bus error is a free value (log 21). -/
def execHsaOpDone (s : State) : Result :=
  let m := s.mgmt
  match m.hsaBusy with
  | .none => .next s
  | .hash =>
    match m.range m.hsaSrc.toNat m.hsaLen.toNat with
    | some bs => .next { s with mgmt := { m with dig := sha256 bs, hsaErr := 0, hsaBusy := .none } }
    | none =>
      let n := s.free
      let dig : List Byte := (List.range 32).map fun i => (Config.freeWord n (100 + i)).setWidth 8
      .next ({ s with mgmt := { m with dig := dig, hsaErr := 2, hsaBusy := .none } } : State).drawn
  | .verify => .next { s with mgmt := { m.verify with hsaBusy := .none } }
  | .extend =>
    if 7 < m.hsaIdx.toNat then .next { s with mgmt := { m with hsaErr := 1, hsaBusy := .none } }
    else .next { s with mgmt := { m.measure m.hsaIdx.toNat m.dig with hsaErr := 0, hsaBusy := .none } }

/-! ### The flash controller (R418, R421) -/

def Mgmt.flcStart (m : Mgmt) : Mgmt := { m with flcBusy := true }

def State.flcStart (s : State) : State := s.setMgmt Mgmt.flcStart

/-- FLC_WRITE_WORD (R418). -/
def execFlcWriteWord (s : State) : Result := .next s.flcStart

/-- MGMT_FLC_WRITE_WORD (R421): the host's mirror works in minimal mode alone. -/
def execMgmtFlcWriteWord (s : State) : Result := .next (if s.mgmt.minimal then s.flcStart else s)

/-- FLC_WRITE_DONE (R418). The word that a failed write leaves is a free value (log 21). -/
def execFlcWriteDone (ok : Bool) (s : State) : Result :=
  let m := s.mgmt
  if !m.flcBusy then .next s
  else
    let a := m.flcAddr.toNat / 4 * 4
    let fits := a + 4 ≤ flashBytes
    let w : Word := if ok then m.flcData else Config.freeWord s.free 42
    let flash := if fits then m.flash.puts (bytesAt a (leBytes 4 w.toNat)) else m.flash
    .next ({ s with mgmt := { m with flash := flash, flcBusy := false, flcErr := !ok || !fits } } : State).drawn

/-! ### DOE (R422) -/

/-- DMTF value types of the measurement blocks 1 to 8. -/
def measType (i : Nat) : Nat := [0x00, 0x01, 0x03, 0x02, 0x01, 0x01, 0x01, 0x01].getD (i - 1) 0

/-- The first stage's answer to the pending request. -/
def Mgmt.answer (m : Mgmt) : List Byte :=
  let b (i : Nat) : Nat := (m.rx.getD i 0).toNat
  let idx := b 3
  let known := idx = 0xF0 || (1 ≤ idx && idx ≤ 8)
  if 4 ≤ m.rxlen.toNat && b 0 = 0x13 && b 1 = 0xE0 && b 2 % 2 = 0 && known then
    let value := if idx = 0xF0 then leBytes 4 m.bootReason.toNat else m.meas.getD (idx - 1) []
    let v := value.length
    let kind := if idx = 0xF0 then 0x85 else measType idx
    [0x13, 0x60, 0, 0, 1] ++ leBytes 3 (v + 7) ++ [BitVec.ofNat 8 idx, 1] ++ leBytes 2 (v + 3) ++ [BitVec.ofNat 8 kind] ++ leBytes 2 v
      ++ value ++ List.replicate 34 0
  else [0x13, 0x7F, 0x07, BitVec.ofNat 8 (b 1)]

/-- The first stage serves a pending request. -/
def Mgmt.serveDoe (m : Mgmt) : Mgmt :=
  if m.rxlen = 0 then m
  else
    let a := m.answer
    { m with sent := m.sent ++ [a], tx := a ++ m.tx.drop a.length, rxlen := 0 }

/-- DOE_REQUEST (R422): in minimal mode the first stage answers it. -/
def execDoeRequest (bytes : List (BitVec 8)) (s : State) : Result :=
  let m := s.mgmt
  if m.rxlen ≠ 0 || bytes = [] || 1024 < bytes.length || !m.powered then .next s
  else
    let m : Mgmt := { m with rx := bytes ++ m.rx.drop bytes.length, rxlen := wd bytes.length }
    .next { s with mgmt := if m.minimal && m.started && !m.halted then m.serveDoe else m }

/-- The core sends `len` bytes of the transmit buffer. -/
def Mgmt.doeSend (m : Mgmt) (len : Nat) : Mgmt :=
  { m with sent := m.sent ++ [(List.range (min len 1024)).map fun i => m.tx.getD i 0] }

/-- DOE_TX_SEND (R422). -/
def execDoeTxSend (len : BitVec 32) (s : State) : Result := .next (s.setMgmt fun m => m.doeSend len.toNat)

def Mgmt.writeRxlen (m : Mgmt) (value : Word) : Mgmt := if value = 0 then { m with rxlen := 0 } else m

/-- DOE_RX_RELEASE (R422). -/
def execDoeRxRelease (value : BitVec 32) (s : State) : Result := .next (s.setMgmt fun m => m.writeRxlen value)

/-! ### Package start (R419, R420) -/

/-- The first stage leaves the device in minimal mode. -/
def Mgmt.enterMinimal (m : Mgmt) (reason : Nat) : Mgmt := ({ m with bootReason := wd reason, minimal := true } : Mgmt).serveDoe

/-- An image slot: the reason it is refused for, or the core's blocks once its image has been verified and measured. -/
def Mgmt.trySlot (m : Mgmt) (slot : Nat) : Nat × Mgmt :=
  let n (o : Nat) : Nat := m.flashWord (slot + o)
  let size := n 8
  if n 0 ≠ 0x31465843 || size = 0 || size % 8 ≠ 0 || 0x6FF00 < size then (3, m)
  else if n 4 < m.minver.toNat then (6, m)
  else
    let img := m.flash.read slot (0x100 + size)
    let key := flashBase + slot + 0x100 + size
    let m : Mgmt := { m with
      sram := m.sram.puts (bytesAt 0 img)
      dig := sha256 img
      hsaSrc := dw (key + 0x180), hsaLen := dw (0x100 + size), hsaKey := dw key, hsaIdx := wd (n 12) }
    let m := m.verify
    if !m.hsaPass then (2, m)
    else (0, { m.measure 1 m.dig with hsaIdx := 1, hsaErr := 0 })

/-- The first stage; `bad`: the flash write of FAILCNT fails, and leaves this word. -/
def Mgmt.firstStage (m : Mgmt) (bad : Option Word) : Mgmt :=
  let m := m.measure 0 (sha256 (m.rom.read 0 romBytes))
  let req := m.rstreq
  let m : Mgmt := { m with rstreq := 0, started := true, powered := true }
  let count := if req = 3 then 0 else m.flashWord 0
  if req = 2 then m.enterMinimal 7
  else if 3 ≤ count then m.enterMinimal 1
  else
    let m : Mgmt := { m with
      flcAddr := 0, flcData := wd (count + 1), flcErr := bad.isSome
      flash := m.flash.puts (bytesAt 0 (leBytes 4 ((bad.map BitVec.toNat).getD (count + 1)))) }
    if bad.isSome then m.enterMinimal 5
    else
      let a := m.trySlot 0x10000
      let b := if a.1 = 0 then a else a.2.trySlot 0x100000
      if b.1 ≠ 0 then b.2.enterMinimal b.1
      else
        let m := ({ b.2 with bootReason := 0 } : Mgmt).serveDoe
        { m with wdog := 2000, pc := 0x10000100 }

/-- PACKAGE_START (R419). Whether the flash write of FAILCNT fails, and the word that it then leaves, are free (log 21). -/
def execPackageStart (s : State) : Result :=
  if s.mgmt.started then .next s
  else .next ({ s with mgmt := s.mgmt.firstStage (if Config.freeBit s.free 41 then some (Config.freeWord s.free 42) else none) } : State).drawn

/-! ### Resets (R415, R419, R423, R427) -/

/-- A package reset: all registers at their reset values, no partition, no owner work; RSTREQ, the flash and the fuses keep
their contents. What memory and SRAM hold is kept (log 81). -/
def State.packageReset (s : State) (req : Word) : State :=
  let m := s.mgmt
  { State.reset with
    agenda := s.agenda, focus := s.focus, free := s.free, nextKey := s.nextKey
    mem := s.mem, poison := s.poison, t2size := s.t2size, pcie := s.pcie, host := s.host
    residue := ((s.teams.filter Team.holds).foldl (fun s t => s.occupy t t.scratch) s).residue
    mgmt := { Mgmt.reset with
      rom := m.rom, sram := m.sram, flash := m.flash, fuseKey := m.fuseKey, revoke := m.revoke, minver := m.minver
      rstreq := req, sent := m.sent, temp := m.temp, power := m.power } }

/-- Power is removed: flash and fuses alone keep their contents. -/
def State.powerOff (s : State) (trip : Bool) : State :=
  let s : State := s.packageReset 0
  { s with mem := [], poison := [], residue := [], mgmt := { s.mgmt with sram := [], powered := false, trip := trip } }

/-- MGMT.RESET takes a value: 1 plain, 2 minimal, 3 retry (R423). -/
def State.resetPackage (s : State) (v : Nat) : State := s.packageReset (wd v)

/-- MGMT_RESET_PLAIN (R423). -/
def execMgmtResetPlain (s : State) : Result := .next (s.resetPackage 1)

/-- MGMT_RESET_MINIMAL (R423). -/
def execMgmtResetMinimal (s : State) : Result := .next (s.resetPackage 2)

/-- MGMT_RESET_RETRY (R423). -/
def execMgmtResetRetry (s : State) : Result := .next (s.resetPackage 3)

/-- WATCHDOG_EXPIRY (R419): while it runs. -/
def execWatchdogExpiry (s : State) : Result := .next (if s.mgmt.wdog = 0 then s else s.packageReset s.mgmt.rstreq)

/-- A millisecond passes: MGMT.PWR takes the package's average power over it (R423), and the watchdog counts down and at its end resets
the package (R415, R419). How often it comes the schedule says (log 41). -/
def State.millisecond (s : State) (watts : Nat) : State :=
  let s : State := s.setMgmt fun m => { m with power := watts }
  if s.mgmt.wdog = 1 then s.packageReset s.mgmt.rstreq else s.setMgmt fun m => { m with wdog := m.wdog - 1 }

/-- POWER_LOSS (R419). -/
def execPowerLoss (s : State) : Result := .next (s.powerOff false)

/-! ### Control registers (R415, R430) -/

def Mgmt.writeWdog (m : Mgmt) (value : Word) : Mgmt :=
  if 1 ≤ value.toNat && value.toNat ≤ 65535 then { m with wdog := value.toNat } else m

def Mgmt.writeBootok (m : Mgmt) (value : Word) : Mgmt := if value = 1 then { m with bootok := true, wdog := 0 } else m
def Mgmt.writeMinimal (m : Mgmt) (value : Word) : Mgmt := if value = 1 then { m with minimal := true } else m
def Mgmt.writeRstreq (m : Mgmt) (value : Word) : Mgmt := if value = 0 then { m with rstreq := 0 } else m

/-- WDOG_WRITE (R415). -/
def execWdogWrite (value : BitVec 32) (s : State) : Result := .next (s.setMgmt fun m => m.writeWdog value)

/-- BOOTOK_WRITE (R415). -/
def execBootokWrite (value : BitVec 32) (s : State) : Result := .next (s.setMgmt fun m => m.writeBootok value)

/-- MINIMAL_WRITE (R415). -/
def execMinimalWrite (value : BitVec 32) (s : State) : Result := .next (s.setMgmt fun m => m.writeMinimal value)

/-- RSTREQ_CLEAR (R415). -/
def execRstreqClear (value : BitVec 32) (s : State) : Result := .next (s.setMgmt fun m => m.writeRstreq value)

/-- mstatus after a trap: MPIE takes MIE, MIE is 0, MPP is machine mode. -/
def trapStatus (w : DWord) : DWord := (w &&& ~~~(0x1888 : DWord)) ||| (if w.getLsbD 3 then 0x1880 else 0x1800)

/-- The core takes an exception: it traps to mtvec, or halts where mtvec is 0. -/
def Mgmt.exception (m : Mgmt) (cause epc tval : DWord) : Mgmt :=
  let m : Mgmt := { m with mepc := epc, mcause := cause, mtval := tval, mstatus := trapStatus m.mstatus }
  if m.mtvec = 0 then { m with halted := true } else { m with pc := m.mtvec &&& ~~~(3 : DWord) }

/-- MGMT_EXCEPTION (R430). -/
def execMgmtException (cause epc tval : BitVec 64) (s : State) : Result :=
  if s.mgmt.halted then .next s else .next (s.setMgmt fun m => m.exception cause epc tval)

/-! ### Partitions (R424) -/

def wordBits (w : Word) (n : Nat) : List Nat := (List.range n).filter fun i => w.getLsbD i

/-- The partition with its resources as the block names them. -/
def Partition.taken (p : Partition) : Partition :=
  { Partition.reset p.num with
    phalls := p.phalls, pchgrp := p.pchgrp, psvc := p.psvc, parc := p.parc, ppower := p.ppower, patq := p.patq, pt2 := p.pt2
    active := true
    halls := wordBits p.phalls 24, groups := wordBits p.pchgrp 32
    svc := bits p.psvc.toNat 8 0 :: if p.psvc.getLsbD 31 then [bits p.psvc.toNat 24 16] else []
    arc := wordBits p.parc 12, atq := p.patq.toNat, t2 := (bits p.pt2.toNat 15 0, bits p.pt2.toNat 31 16), power := p.ppower.toNat }

def share (a b : List Nat) : Bool := a.any b.contains

/-- The code with which APPLY ends. -/
def State.applyCode (s : State) (p : Partition) : Nat :=
  let q := p.taken
  let act := s.parts.filter fun x => x.active && x.num ≠ p.num
  let owners := (s.owners.filter fun o => o.enable && o.part = p.num).length
  let sum (f : Partition → Nat) : Nat := act.foldl (fun n x => n + f x) (f q)
  if s.mgmt.minimal then 1
  else if p.active then 2
  else if q.halls = [] || q.groups = [] then 3
  else if act.any (fun x => share x.halls q.halls || share x.groups q.groups || share x.arc q.arc
      || (q.t2.2 ≠ 0 && x.t2.2 ≠ 0 && meets q.t2.1 q.t2.2 x.t2.1 x.t2.2))
    || 1024 < sum Partition.atq || (q.t2.2 ≠ 0 && s.t2size < q.t2.1 + q.t2.2) then 4
  else if q.svc.any (fun c => !q.halls.contains (hallOfCore c)) || (16 < owners && q.svc.length < 2) || 24 < owners then 5
  else if q.power < 30 * q.halls.length + 17 * q.groups.length || 1450 < sum Partition.power then 6
  else 0

/-- A partition block's 128 bytes as they read. -/
def Partition.block (p : Partition) : List Byte :=
  [p.phalls, p.pchgrp, p.psvc, p.parc, p.ppower, p.patq, 0, wd ((if p.active then 1 else 0) + 256 * p.result), p.pt2].flatMap
      (fun w => leBytes 4 w.toNat) ++ List.replicate 92 0

/-- APPLY (R424): once it is accepted the second stage measures the 16 blocks (R417). -/
def State.applyPart (s : State) (part : Nat) : State :=
  if 16 ≤ part then s
  else
    let p := s.part part
    match s.applyCode p with
    | 0 =>
      let s : State := s.putPart p.taken
      if s.mgmt.halted then s
      else s.setMgmt fun m => m.measure 3 (sha256 ((List.range 16).flatMap fun i => (s.part i).block))
    | c => s.putPart { p with result := c }

/-- PCTL_APPLY (R424). -/
def execPctlApply (part : Nat) (s : State) : Result := .next (s.applyPart part)

/-- TEARDOWN (R424). -/
def State.teardownPart (s : State) (part : Nat) : State :=
  if 16 ≤ part then s
  else
    let p := s.part part
    if s.owners.any fun o => o.part = part && o.state ≠ 0 then s.putPart { p with result := 2 }
    else s.putPart { Partition.reset part with
      phalls := p.phalls, pchgrp := p.pchgrp, psvc := p.psvc, parc := p.parc, ppower := p.ppower, patq := p.patq, pt2 := p.pt2 }

/-- PCTL_TEARDOWN (R424). -/
def execPctlTeardown (part : Nat) (s : State) : Result := .next (s.teardownPart part)

/-! ### Arcade links (19 R411; 11 R266) -/

/-- LINK_TRAINING (R411): two ends with one identity do not train. -/
def execLinkTraining (link : Nat) (far : FarEnd) (s : State) : Result :=
  if 12 ≤ link then .next s
  else if far.identity.toNat = s.mgmt.arcid.toNat % 4096 then .next (s.putLink (Link.reset link))
  else .next (s.putLink ⟨link, true, far.identity, far.pairs, false⟩)

/-- LINK_FAILURE (11 R266): the link is down, and its active copies end with PEER_DOWN at their next block. -/
def execLinkFailure (link : Nat) (s : State) : Result :=
  let s : State := s.putLink { s.link link with up := false, failed := true }
  let mine := s.copies.filter fun c => c.form = .cpyp && c.dst.link = link && c.state = .active && c.next < c.units
  .next (mine.foldl (fun s c => let u := c.unit c.next; s.putCopy (c.failed u.first 0x32 (u.first / 64))) s)

/-! ### Clocks and heat (R426, R427) -/

def clockSteps : List Nat := [700, 630, 560, 490, 420, 350]
def stepDown (mhz : Nat) : Nat := (clockSteps.find? fun c => c < mhz).getD 350
def stepUp (mhz : Nat) : Nat := (clockSteps.reverse.find? fun c => mhz < c).getD 700

/-- The clock at which the partition runs: one step below while it is held by heat. -/
def Partition.mhz (p : Partition) : Nat := if p.hot then stepDown p.clock else p.clock

/-- CLOCK_STEP_SAMPLE (R426): 100 samples of 10 µs make the 1 ms. -/
def execClockStepSample (part watts : Nat) (s : State) : Result :=
  let p := s.part part
  if !p.active then .next s
  else if p.power < watts then .next (s.putPart { p with clock := stepDown p.clock, below := 0 })
  else if 100 * watts < 95 * p.power then
    if p.below + 1 < 100 then .next (s.putPart { p with below := p.below + 1 })
    else .next (s.putPart { p with clock := stepUp p.clock, below := 0 })
  else .next (s.putPart { p with below := 0 })

def Partition.inGallery (p : Partition) (g : Nat) : Bool := p.active && p.halls.any fun h => galleryOfHall h = g

/-- THERMAL_HOLD (R427): a gallery's temperature; above 100 °C its partitions are held, until it falls below 95 °C. -/
def execThermalHold (gallery celsius : Nat) (s : State) : Result :=
  let s : State := s.setMgmt fun m => { m with temp := listSet m.temp gallery celsius }
  let cool (p : Partition) : Bool := (List.range 4).all fun g => !p.inGallery g || s.mgmt.temp.getD g 0 < 95
  .next { s with parts := s.parts.map fun (p : Partition) =>
    if !p.inGallery gallery then p
    else if 100 < celsius then { p with hot := true }
    else if p.hot && cool p then { p with hot := false } else p }

/-- THERMAL_TRIP (R427): the gallery is at 110 °C with all its partitions at 350 MHz; the 100 ms are the schedule's. -/
def execThermalTrip (gallery : Nat) (s : State) : Result :=
  if 110 ≤ s.mgmt.temp.getD gallery 0 && (s.parts.all fun p => !p.inGallery gallery || p.mhz = 350) then .next (s.powerOff true)
  else .next s

end Sys2Proof.Machine
end

