-- ==== Sys2Proof/Machine/Regs.lean ====
section
/-!
DEFINITION. Reads and writes of the device's registers (19 R397, R402; 21 R414 to R416, R418, R423, R424).
-/

namespace Sys2Proof.Machine

/-- A value with `n` bytes from byte `k` replaced. -/
def patchBytes (len old k n v : Nat) : Nat :=
  let bs := leBytes len old
  leNat ((List.range len).map fun i => if k ≤ i && i < k + n then (leBytes n v).getD (i - k) 0 else bs.getD i 0)

def patch64 (d : DWord) (k : Nat) (w : Word) : DWord := dw (patchBytes 8 d.toNat k 4 w.toNat)

/-! ### The management core (R414 to R416, R418) -/

/-- Bytes of the transmit buffer. -/
def setBytes (len : Nat) (old : List Byte) (at' : Nat) (bs : List Byte) : List Byte :=
  (List.range len).map fun i => if at' ≤ i && i < at' + bs.length then bs.getD (i - at') 0 else old.getD i 0

/-- A write of the management core, of `n` bytes. -/
def Mgmt.store (m : Mgmt) (a n v : Nat) : Mgmt :=
  let bs := leBytes n v
  let in8 (base : Nat) (d : DWord) : DWord := dw (patchBytes 8 d.toNat (a - base) n v)
  let in4 (base : Nat) (d : Word) : Word := wd (patchBytes 4 d.toNat (a - base) n v)
  let at8 (base : Nat) : Bool := base ≤ a && a < base + 8
  let at4 (base : Nat) : Bool := base ≤ a && a < base + 4 && n ≤ 4
  if sramBase ≤ a && a + n ≤ sramBase + sramBytes then { m with sram := m.sram.puts (bytesAt (a - sramBase) bs) }
  else if a % n ≠ 0 || (n ≠ 1 && n ≠ 4 && n ≠ 8) then m
  else if at8 0x20000000 then { m with hsaSrc := in8 0x20000000 m.hsaSrc }
  else if at8 0x20000008 then { m with hsaLen := in8 0x20000008 m.hsaLen }
  else if at8 0x20000010 then { m with hsaKey := in8 0x20000010 m.hsaKey }
  else if at4 0x20000018 then { m with hsaIdx := in4 0x20000018 m.hsaIdx }
  else if at4 0x20001000 then { m with flcAddr := in4 0x20001000 m.flcAddr }
  else if at4 0x20001004 then { m with flcData := in4 0x20001004 m.flcData }
  else if at4 0x20002000 then { m with bootReason := in4 0x20002000 m.bootReason }
  else if 0x20002800 ≤ a && a + n ≤ 0x20002C00 then { m with tx := setBytes 1024 m.tx (a - 0x20002800) bs }
  else m

def devBase : Nat := 0x20000000
def devBytes : Nat := 0x3000

/-- Byte `k` of a value, little-endian. -/
def byteOf (v k : Nat) : Byte := BitVec.ofNat 8 (v / 256 ^ k)

/-- The accelerator's block. -/
def Mgmt.hsaByte (m : Mgmt) (o : Nat) : Byte :=
  let stat := (if m.hsaBusy = .none then 0 else 1) + (if m.hsaPass then 2 else 0) + 256 * m.hsaErr
  if o < 0x08 then byteOf m.hsaSrc.toNat o
  else if o < 0x10 then byteOf m.hsaLen.toNat (o - 0x08)
  else if o < 0x18 then byteOf m.hsaKey.toNat (o - 0x10)
  else if o < 0x1C then byteOf m.hsaIdx.toNat (o - 0x18)
  else if 0x20 ≤ o && o < 0x24 then byteOf stat (o - 0x20)
  else if 0x40 ≤ o && o < 0x60 then m.dig.getD (o - 0x40) 0
  else if 0x100 ≤ o && o < 0x200 then (m.meas.getD ((o - 0x100) / 32) []).getD (o % 32) 0
  else if 0x200 ≤ o && o < 0x280 then (m.fuseKey.getD ((o - 0x200) / 32) []).getD (o % 32) 0
  else if 0x280 ≤ o && o < 0x284 then byteOf m.revoke.toNat (o - 0x280)
  else if 0x284 ≤ o && o < 0x288 then byteOf m.minver.toNat (o - 0x284)
  else 0

/-- The flash controller's block. -/
def Mgmt.flcByte (m : Mgmt) (o : Nat) : Byte :=
  if o < 0x04 then byteOf m.flcAddr.toNat o
  else if o < 0x08 then byteOf m.flcData.toNat (o - 0x04)
  else if o = 0x0C then byteOf ((if m.flcBusy then 1 else 0) + (if m.flcErr then 2 else 0)) 0
  else 0

/-- The control block. -/
def Mgmt.controlByte (m : Mgmt) (o : Nat) : Byte :=
  if o < 0x04 then byteOf m.bootReason.toNat o
  else if o < 0x08 then byteOf m.rstreq.toNat (o - 0x04)
  else if o = 0x08 then (if m.minimal then 1 else 0)
  else if 0x0C ≤ o && o < 0x10 then byteOf m.wdog (o - 0x0C)
  else if o = 0x10 then (if m.bootok then 1 else 0)
  else if 0x20 ≤ o && o < 0x24 then byteOf m.rxlen.toNat (o - 0x20)
  else if 0x400 ≤ o && o < 0x800 then m.rx.getD (o - 0x400) 0
  else if 0x800 ≤ o && o < 0xC00 then m.tx.getD (o - 0x800) 0
  else 0

/-- A byte of the three register blocks. -/
def Mgmt.devByte (m : Mgmt) (a : Nat) : Byte :=
  let o := a % 0x1000
  if a / 0x1000 = 0x20000 then m.hsaByte o
  else if a / 0x1000 = 0x20001 then m.flcByte o
  else if a / 0x1000 = 0x20002 then m.controlByte o
  else 0

def inBlocks (a : Nat) : Bool := devBase ≤ a && a < devBase + devBytes

/-- An aligned load of `n` bytes; outside the map, and of a size that a block does not accept, it reads zero. -/
def Mgmt.load (m : Mgmt) (a n : Nat) : Nat :=
  if inBlocks a then if n = 2 then 0 else leNat ((List.range n).map fun i => m.devByte (a + i))
  else leNat ((List.range n).map fun i => (m.byteAt (a + i)).getD 0)

/-- A word written to a register; `four`: by a 4-byte write, which OP and WDOG alone accept. -/
def Mgmt.writeWord (m : Mgmt) (a : Nat) (w : Word) (four : Bool) : Mgmt :=
  if a = 0x2000001C then
    if !four then m
    else if w = 1 then m.hsaStart .hash
    else if w = 2 then m.hsaStart .verify
    else if w = 3 then m.hsaStart .extend
    else m
  else if a = 0x20001008 then if four && w = 1 then m.flcStart else m
  else if a = 0x20002004 then m.writeRstreq w
  else if a = 0x20002008 then m.writeMinimal w
  else if a = 0x2000200C then if four then m.writeWdog w else m
  else if a = 0x20002010 then m.writeBootok w
  else if a = 0x20002020 then m.writeRxlen w
  else if a = 0x20002024 then m.doeSend w.toNat
  else m.store a 4 w.toNat

/-- An aligned store of `n` bytes. In a register block a write of 8 bytes, but to a register of 8 or the transmit buffer, writes the
low and then the high word, and a write of one byte the word with that byte replaced (DEDUCED, log 22). -/
def Mgmt.write (m : Mgmt) (a n v : Nat) : Mgmt :=
  if !inBlocks a || a % n ≠ 0 then m.store a n v
  else if n = 4 then m.writeWord a (wd v) true
  else if n = 8 && (a < 0x20000018 || 0x20002800 ≤ a) then m.store a 8 v
  else if n = 8 then (m.writeWord a (wd v) false).writeWord (a + 4) (wd (v / 2 ^ 32)) false
  else if n = 1 then
    let b := a / 4 * 4
    m.writeWord b (wd (patchBytes 4 (m.load b 4) (a - b) 1 v)) false
  else m

/-! ### The virtual function (R397) -/

/-- A word of a queue's registers. -/
def State.queueWord (s : State) (vd q r : Nat) (w : Word) : State :=
  let h := (s.owner vd).queue q
  if r < 8 then s.putQueue vd q { h with qbase := patch64 h.qbase r w }
  else if r = 0x08 then s.writeQctl vd q w
  else if r = 0x0C then s.writeQtail vd q w.toNat
  else if r = 0x14 then s.writeCqhead vd q w.toNat
  else if 0x18 ≤ r then s.putQueue vd q { h with cqbase := patch64 h.cqbase (r - 0x18) w }
  else s

/-- A word of the MSI-X table: masks follow its control words. -/
def State.tableWord (s : State) (vd i : Nat) (w : Word) : State :=
  (s.modOwner vd fun o =>
    ({ o with msixTable := (bytesAt i (leBytes 4 w.toNat)).foldl (fun t b => listSet t b.1 b.2) o.msixTable } : Owner).masksOf).sendPending vd

/-- A 4-byte write of BAR0, but for XFERREQ. -/
def State.vfWord (s : State) (vd off : Nat) (w : Word) : State :=
  if off = 0x004 then s.writeVdevt vd w
  else if off = 0x008 then (if w.getLsbD 0 then s.startOwner vd else s)
  else if 0x100 ≤ off && off < 0x200 then s.queueWord vd ((off - 0x100) / 32) ((off - 0x100) % 32) w
  else if 0x1000 ≤ off && off < 0x1100 then s.tableWord vd (off - 0x1000) w
  else s

/-- A write of XFERREQ: its op and the offset it names (R406). -/
def State.writeXferreq (s : State) (vd : Nat) (value : DWord) : State :=
  s.xferReq vd (bits value.toNat 2 0) (bits value.toNat 51 12 * 4096)

/-- An aligned write of BAR0; 8 bytes are the low word, then the high one. -/
def State.vfWrite (s : State) (vd off size : Nat) (v : DWord) : State :=
  if off = 0x408 then s.writeXferreq vd (if size = 8 then v else (loWord v).setWidth 64)
  else
    let s : State := s.vfWord vd off (loWord v)
    if size = 8 then s.vfWord vd (off + 4) (hiWord v) else s

/-- VDSTAT. -/
def Owner.vdstat (o : Owner) : Nat := o.state + (if o.state = 2 then 256 * o.reason else 0) + 65536 * o.errors.length

/-- LINKSTAT: the links that are up, and those that are paired at both ends (R411). -/
def State.linkstat (s : State) (vd : Nat) : Nat :=
  (List.range 12).foldl (fun v n =>
    v + (if (s.link n).up then 2 ^ n else 0) + (if s.pairCounts vd n then 2 ^ (12 + n) else 0)) 0

/-- XFERSTAT (R406). -/
def Owner.xferstat (o : Owner) : Nat :=
  (if o.xferBusy then 1 else 0) + (if o.xferErr then 2 else 0) + (if o.xferP then 4 else 0) + (if o.xferSplit then 8 else 0)

/-- A word of a queue's registers as read. -/
def HostQueue.word (h : HostQueue) (r : Nat) : Nat :=
  match r with
  | 0x00 => h.qbase.toNat % 2 ^ 32
  | 0x04 => h.qbase.toNat / 2 ^ 32
  | 0x08 => h.logn + (if h.en then 256 else 0) + (if h.pending ≠ 0 then 512 else 0)
  | 0x10 => h.qhead
  | 0x14 => h.cqhead
  | 0x18 => h.cqbase.toNat % 2 ^ 32
  | 0x1C => h.cqbase.toNat / 2 ^ 32
  | _ => 0

/-- A word of BAR0 as read; reserved and write-only offsets read 0. -/
def State.vfWordRead (s : State) (vd off : Nat) : Nat :=
  let o := s.owner vd
  if off = 0x000 then o.vdstat
  else if off = 0x004 then o.vdevt.toNat
  else if 0x100 ≤ off && off < 0x200 then (o.queue ((off - 0x100) / 32)).word ((off - 0x100) % 32)
  else if off = 0x400 then s.linkstat vd
  else if off = 0x410 then o.xferstat
  else if 0x1000 ≤ off && off < 0x1100 then leNat ((o.msixTable.drop (off - 0x1000)).take 4)
  else if off = 0x1800 then o.pba.toNat
  else 0

/-- The functions' registers take aligned accesses of 4 and 8 bytes; a read of any other reads 0 (R397). -/
def regOk (off size : Nat) : Bool := (size = 4 || size = 8) && off % size = 0

def readWords (word : Nat → Nat) (off size : Nat) : Nat :=
  if !regOk off size then 0 else word off + if size = 8 then 2 ^ 32 * word (off + 4) else 0

/-- What a read of BAR0 returns; it has no side effect. -/
def State.vfRead (s : State) (vd off size : Nat) : Nat := readWords (s.vfWordRead vd) off size

/-! ### The physical function (R402, R423, R424) -/

/-- The MINW values of the partition's owners would not sum above 16, with these of one of them (17 R376). -/
def State.waysFit (s : State) (vd part minw : Nat) : Bool :=
  ((s.ownersOf part).filter fun o => o.vd ≠ vd).foldl (fun n o => n + o.hostMinw) minw ≤ 16

/-- WAYS takes a setting of 0 to 16 way units with MINW at most MAXW, and the MINW values within 16; any other is dropped (17
R376; log 92). -/
def State.writeWays (s : State) (vd minw maxw : Nat) : State :=
  let o := s.owner vd
  if minw ≤ maxw && maxw ≤ 16 && s.waysFit vd o.part minw then s.putOwner { o with hostMinw := minw, hostMaxw := maxw } else s

/-- The fields of owner start with a word of them written. -/
def PfConfig.word (c : PfConfig) (r : Nat) (w : Word) : PfConfig :=
  let n := w.toNat
  if r = 0x000 then { c with part := bits n 3 0, slot := bits n 8 4, port := bits n 9 9, enable := bits n 10 10 = 1 }
  else if r = 0x008 || r = 0x00C then { c with vbase := patch64 c.vbase (r - 0x008) w }
  else if r = 0x010 || r = 0x014 then { c with vlimit := patch64 c.vlimit (r - 0x010) w }
  else if r = 0x028 || r = 0x02C then { c with spillBase := patch64 c.spillBase (r - 0x028) w }
  else if r = 0x030 || r = 0x034 then { c with spillStride := patch64 c.spillStride (r - 0x030) w }
  else if 0x080 ≤ r && r < 0x0C0 then
    let i := (r - 0x080) / 16
    let e := c.expose.getD i (0, 0)
    let k := (r - 0x080) % 16
    { c with expose := listSet c.expose i (if k < 8 then (patch64 e.1 k w, e.2) else (e.1, patch64 e.2 (k - 8) w)) }
  else c

/-- The fields of owner start take effect at once in a stopped owner. A VDCFG with which the MINW values of its partition would sum
above 16 is dropped (17 R376; log 92). -/
def State.writeCfg (s : State) (vd : Nat) (c : PfConfig) : State :=
  let o := s.owner vd
  if c.enable && !s.waysFit vd c.part o.hostMinw then s
  else
    let o : Owner := { o with hostCfg := c }
    s.putOwner (if o.state = 0 then o.takeCfg else o)

/-- A write of OPCTL (R402, R403). -/
def State.writeOpctl (s : State) (vd cmd : Nat) : State :=
  match cmd with
  | 1 => s.stallCmd vd
  | 2 => s.resumeCmd vd
  | 3 => s.resetCmd vd
  | 4 => s.pauseCmd vd
  | 5 => s.saveCmd vd
  | 6 => s.loadCmd vd
  | 7 => s.unpauseCmd vd
  | _ => s

/-- A word of an owner's configuration block. -/
def State.pfWord (s : State) (vd r : Nat) (w : Word) : State :=
  let o := s.owner vd
  let n := w.toNat
  if r = 0x018 then s.putOwner { o with hostSlice := n }
  else if r = 0x020 then s.writeWays vd (bits n 4 0) (bits n 12 8)
  else if r = 0x038 then s.writeHvstate vd w
  else if r = 0x040 then s.writeOpctl vd n
  else if r = 0x048 || r = 0x04C then s.putOwner { o with migAddr := patch64 o.migAddr (r - 0x048) w }
  else if 0x0C0 ≤ r && r < 0x120 then
    if r % 8 = 0 then s.putOwner { o with pairs := listSet o.pairs ((r - 0x0C0) / 8) w } else s
  else if 0x200 ≤ r then
    let i := (r - 0x200) / 8
    s.writeBal vd i (patch64 (o.bal.getD i 0) (r % 8) w)
  else s.writeCfg vd (o.hostCfg.word r w)

/-- A write of an owner's block; a balustrade entry takes its 8 bytes at once. -/
def State.pfBlockWrite (s : State) (vd r size : Nat) (v : DWord) : State :=
  if size = 8 && 0x200 ≤ r then s.writeBal vd ((r - 0x200) / 8) v
  else
    let s : State := s.pfWord vd r (loWord v)
    if size = 8 then s.pfWord vd (r + 4) (hiWord v) else s

/-- A word of a partition's block. -/
def Partition.word (p : Partition) (r : Nat) (w : Word) : Partition :=
  match r with
  | 0x00 => { p with phalls := w &&& 0x00FFFFFF }
  | 0x04 => { p with pchgrp := w }
  | 0x08 => { p with psvc := w &&& 0x81FF01FF }
  | 0x0C => { p with parc := w &&& 0x00000FFF }
  | 0x10 => { p with ppower := w }
  | 0x14 => { p with patq := w }
  | 0x20 => { p with pt2 := w }
  | _ => p

/-- MGMT.RESET, by the value written (R423). -/
def State.writeReset (s : State) (v : Nat) : State := if 1 ≤ v && v ≤ 3 then s.resetPackage v else s

/-- PCTL (R424). -/
def State.writePctl (s : State) (p v : Nat) : State := if v = 1 then s.applyPart p else if v = 2 then s.teardownPart p else s

/-- A word of the physical function's other registers. -/
def State.pfReg (s : State) (off : Nat) (w : Word) : State :=
  let flc (g : Mgmt → Mgmt) : State := if s.mgmt.minimal then s.setMgmt g else s
  if off = 0x008 then s.writeReset w.toNat
  else if off = 0x020 then flc fun m => { m with flcAddr := w }
  else if off = 0x024 then flc fun m => { m with flcData := w }
  else if off = 0x028 then (if w = 1 then flc Mgmt.flcStart else s)
  else if off = 0x030 then s.setMgmt fun m => { m with arcid := w &&& 0xFFF }
  else if 0x1000 ≤ off && off < 0x1800 then
    let p := (off - 0x1000) / 0x80
    let r := (off - 0x1000) % 0x80
    if r = 0x18 then s.writePctl p w.toNat else s.modPart p fun p => p.word r w
  else if 0xF000 ≤ off && off < 0xF080 then
    if off % 8 = 0 then { s with hdmTgt := listSet s.hdmTgt ((off - 0xF000) / 8) (w &&& 0x800001FF) } else s
  else s

/-- An aligned write of the physical function's BAR0. -/
def State.pfWrite (s : State) (off size : Nat) (v : DWord) : State :=
  if 0x10000 ≤ off && off < 0x10000 + 0x400 * 384 then s.pfBlockWrite ((off - 0x10000) / 0x400) ((off - 0x10000) % 0x400) size v
  else
    let s : State := s.pfReg off (loWord v)
    if size = 8 then s.pfReg (off + 4) (hiWord v) else s

/-- MGMT.BOOTSTAT (R423). -/
def State.bootstat (s : State) : Nat :=
  (if s.mgmt.minimal then 1 else 0) + (if s.mgmt.bootok then 2 else 0) + (if s.t2size = 0 then 0 else 4) + (if s.mgmt.trip then 8 else 0)
    + 256 * (s.mgmt.flashWord 0 % 256)

/-- A word of the management block as read. -/
def State.mgmtWordRead (s : State) (off : Nat) : Nat :=
  let m := s.mgmt
  if off = 0x000 then m.bootReason.toNat
  else if off = 0x004 then s.bootstat
  else if off = 0x010 then m.temp.foldl max 0
  else if off = 0x014 then m.power
  else if off = 0x018 then s.t2size
  else if 0x020 ≤ off && off < 0x030 then
    if m.minimal then leNat ((List.range 4).map fun i => m.flcByte (off - 0x020 + i)) else 0
  else if off = 0x030 then m.arcid.toNat
  else if 0x040 ≤ off && off < 0x080 then let p := s.part ((off - 0x040) / 4); if p.active then p.mhz else 0
  else if 0x080 ≤ off && off < 0x0B0 then let l := s.link ((off - 0x080) / 4); l.peer.toNat + if l.up then 2 ^ 31 else 0
  else 0

/-- A word of a partition's block as read (R424). -/
def Partition.read (p : Partition) (r : Nat) : Nat :=
  match r with
  | 0x00 => p.phalls.toNat
  | 0x04 => p.pchgrp.toNat
  | 0x08 => p.psvc.toNat
  | 0x0C => p.parc.toNat
  | 0x10 => p.ppower.toNat
  | 0x14 => p.patq.toNat
  | 0x1C => (if p.active then 1 else 0) + 256 * p.result
  | 0x20 => p.pt2.toNat
  | _ => 0

/-- A word of the physical function's BAR0 as read. -/
def State.pfWordRead (s : State) (off : Nat) : Nat :=
  if off < 0x1000 then s.mgmtWordRead off
  else if off < 0x1800 then (s.part ((off - 0x1000) / 0x80)).read ((off - 0x1000) % 0x80)
  else if 0xF000 ≤ off && off < 0xF080 then (if off % 8 = 0 then (s.hdmTgt.getD ((off - 0xF000) / 8) 0).toNat else 0)
  else if 0x10000 ≤ off && off < 0x10000 + 0x400 * 384 then
    let o := s.owner ((off - 0x10000) / 0x400)
    leNat (((o.pfBytes o.hostCfg).drop (off % 0x400)).take 4)
  else 0

def State.pfRead (s : State) (off size : Nat) : Nat := readWords s.pfWordRead off size

/-- REGISTER_WRITE (R397): an access to a device register. A virtual function answers on the port that VDCFG.PORT selects, but for
configuration reads (R395), and in minimal mode not at all (21 R421). -/
def execRegisterWrite (w : RegAccess) (s : State) : Result :=
  match w with
  | .vf port vd off size v =>
    if s.mgmt.minimal then .next s
    else if port ≠ (s.owner vd).port then .next (s.tell (.unsupported port vd))
    else .next (if regOk off size then s.vfWrite vd off size v else s)
  | .vfRead port vd off size =>
    if s.mgmt.minimal then .next s
    else if port ≠ (s.owner vd).port then .next (s.tell (.unsupported port vd))
    else .next (s.tell (.regData (s.vfRead vd off size)))
  | .vfConfig port vd => .next (if s.mgmt.minimal then s else s.tell (.config port vd))
  | .pf off size v => .next (if regOk off size then s.pfWrite off size v else s)
  | .pfRead off size => .next (s.tell (.regData (s.pfRead off size)))
  | .mgmt a size v => .next (if size = 1 || size = 2 || size = 4 || size = 8 then s.setMgmt fun m => m.write a size v.toNat else s)
  | .farPair link vd v => .next (s.putLink { s.link link with far := kset Prod.fst (vd, v) (s.link link).far })

end Sys2Proof.Machine
end

