-- ==== Sys2Proof/Machine/Dispatch.lean ====
section
/-!
DEFINITION. The dispatch of every instruction to its meaning.
-/

namespace Sys2Proof.Machine

def exec (i : Instr) (s : State) : Host.Outcome State Fault Refusal :=
  match i with
  | .nop x => Sys2Proof.Machine.execNop x s
  | .nopW32 w => Sys2Proof.Machine.execNopW32 w s
  | .bra x => Sys2Proof.Machine.execBra x s
  | .braW32 w => Sys2Proof.Machine.execBraW32 w s
  | .brp x => Sys2Proof.Machine.execBrp x s
  | .brpAnyW32 w => Sys2Proof.Machine.execBrpAnyW32 w s
  | .brpNoneW32 w => Sys2Proof.Machine.execBrpNoneW32 w s
  | .brez x => Sys2Proof.Machine.execBrez x s
  | .brezW32 w => Sys2Proof.Machine.execBrezW32 w s
  | .jmp x => Sys2Proof.Machine.execJmp x s
  | .call x => Sys2Proof.Machine.execCall x s
  | .ret x => Sys2Proof.Machine.execRet x s
  | .emget x => Sys2Proof.Machine.execEmget x s
  | .emgetW32 w => Sys2Proof.Machine.execEmgetW32 w s
  | .emset x => Sys2Proof.Machine.execEmset x s
  | .emsetW32 w => Sys2Proof.Machine.execEmsetW32 w s
  | .emand x => Sys2Proof.Machine.execEmand x s
  | .emandW32 w => Sys2Proof.Machine.execEmandW32 w s
  | .emandn x => Sys2Proof.Machine.execEmandn x s
  | .emandnW32 w => Sys2Proof.Machine.execEmandnW32 w s
  | .mcall x => Sys2Proof.Machine.execMcall x s
  | .trap x => Sys2Proof.Machine.execTrap x s
  | .yield x => Sys2Proof.Machine.execYield x s
  | .yieldW32 w => Sys2Proof.Machine.execYieldW32 w s
  | .waitf x => Sys2Proof.Machine.execWaitf x s
  | .waitfW32 w => Sys2Proof.Machine.execWaitfW32 w s
  | .exit x => Sys2Proof.Machine.execExit x s
  | .exitW32 w => Sys2Proof.Machine.execExitW32 w s
  | .getsr x => Sys2Proof.Machine.execGetsr x s
  | .getsrW32 w => Sys2Proof.Machine.execGetsrW32 w s
  | .iadd x => Sys2Proof.Machine.execIadd x s
  | .iaddW32 w => Sys2Proof.Machine.execIaddW32 w s
  | .iaddSatW32 w => Sys2Proof.Machine.execIaddSatW32 w s
  | .iaddH16 h => Sys2Proof.Machine.execIaddH16 h s
  | .isub x => Sys2Proof.Machine.execIsub x s
  | .isubW32 w => Sys2Proof.Machine.execIsubW32 w s
  | .isubSatW32 w => Sys2Proof.Machine.execIsubSatW32 w s
  | .isubH16 h => Sys2Proof.Machine.execIsubH16 h s
  | .imul x => Sys2Proof.Machine.execImul x s
  | .imulW32 w => Sys2Proof.Machine.execImulW32 w s
  | .imulh x => Sys2Proof.Machine.execImulh x s
  | .imulhI32W32 w => Sys2Proof.Machine.execImulhI32W32 w s
  | .imulhN32W32 w => Sys2Proof.Machine.execImulhN32W32 w s
  | .imla x => Sys2Proof.Machine.execImla x s
  | .imlalI32 x => Sys2Proof.Machine.execImlalI32 x s
  | .imlalN32 x => Sys2Proof.Machine.execImlalN32 x s
  | .imin x => Sys2Proof.Machine.execImin x s
  | .iminI32W32 w => Sys2Proof.Machine.execIminI32W32 w s
  | .iminN32W32 w => Sys2Proof.Machine.execIminN32W32 w s
  | .iminH16 h => Sys2Proof.Machine.execIminH16 h s
  | .imax x => Sys2Proof.Machine.execImax x s
  | .imaxI32W32 w => Sys2Proof.Machine.execImaxI32W32 w s
  | .imaxN32W32 w => Sys2Proof.Machine.execImaxN32W32 w s
  | .imaxH16 h => Sys2Proof.Machine.execImaxH16 h s
  | .iabs x => Sys2Proof.Machine.execIabs x s
  | .iabsW32 w => Sys2Proof.Machine.execIabsW32 w s
  | .ineg x => Sys2Proof.Machine.execIneg x s
  | .inegW32 w => Sys2Proof.Machine.execInegW32 w s
  | .iaddminI32 x => Sys2Proof.Machine.execIaddminI32 x s
  | .iaddminI16x2 x => Sys2Proof.Machine.execIaddminI16x2 x s
  | .and x => Sys2Proof.Machine.execAnd x s
  | .andW32 w => Sys2Proof.Machine.execAndW32 w s
  | .andH16 h => Sys2Proof.Machine.execAndH16 h s
  | .or x => Sys2Proof.Machine.execOr x s
  | .orW32 w => Sys2Proof.Machine.execOrW32 w s
  | .orH16 h => Sys2Proof.Machine.execOrH16 h s
  | .xor x => Sys2Proof.Machine.execXor x s
  | .xorW32 w => Sys2Proof.Machine.execXorW32 w s
  | .xorH16 h => Sys2Proof.Machine.execXorH16 h s
  | .andn x => Sys2Proof.Machine.execAndn x s
  | .andnW32 w => Sys2Proof.Machine.execAndnW32 w s
  | .not x => Sys2Proof.Machine.execNot x s
  | .notW32 w => Sys2Proof.Machine.execNotW32 w s
  | .shl x => Sys2Proof.Machine.execShl x s
  | .shlW32 w => Sys2Proof.Machine.execShlW32 w s
  | .shlH16 h => Sys2Proof.Machine.execShlH16 h s
  | .shr x => Sys2Proof.Machine.execShr x s
  | .shrW32 w => Sys2Proof.Machine.execShrW32 w s
  | .shrH16 h => Sys2Proof.Machine.execShrH16 h s
  | .sar x => Sys2Proof.Machine.execSar x s
  | .sarW32 w => Sys2Proof.Machine.execSarW32 w s
  | .sarH16 h => Sys2Proof.Machine.execSarH16 h s
  | .rotl x => Sys2Proof.Machine.execRotl x s
  | .rotlW32 w => Sys2Proof.Machine.execRotlW32 w s
  | .shlImm x => Sys2Proof.Machine.execShlImm x s
  | .shlImmW32 w => Sys2Proof.Machine.execShlImmW32 w s
  | .shrImm x => Sys2Proof.Machine.execShrImm x s
  | .shrImmW32 w => Sys2Proof.Machine.execShrImmW32 w s
  | .sarImm x => Sys2Proof.Machine.execSarImm x s
  | .sarImmW32 w => Sys2Proof.Machine.execSarImmW32 w s
  | .rotlImm x => Sys2Proof.Machine.execRotlImm x s
  | .rotlImmW32 w => Sys2Proof.Machine.execRotlImmW32 w s
  | .clz x => Sys2Proof.Machine.execClz x s
  | .clzW32 w => Sys2Proof.Machine.execClzW32 w s
  | .popc x => Sys2Proof.Machine.execPopc x s
  | .popcW32 w => Sys2Proof.Machine.execPopcW32 w s
  | .brev x => Sys2Proof.Machine.execBrev x s
  | .brevW32 w => Sys2Proof.Machine.execBrevW32 w s
  | .bfxN32 x => Sys2Proof.Machine.execBfxN32 x s
  | .bfxI32 x => Sys2Proof.Machine.execBfxI32 x s
  | .bfi x => Sys2Proof.Machine.execBfi x s
  | .icmp x => Sys2Proof.Machine.execIcmp x s
  | .icmpEqW32 w => Sys2Proof.Machine.execIcmpEqW32 w s
  | .icmpNeW32 w => Sys2Proof.Machine.execIcmpNeW32 w s
  | .icmpLtW32 w => Sys2Proof.Machine.execIcmpLtW32 w s
  | .icmpLeW32 w => Sys2Proof.Machine.execIcmpLeW32 w s
  | .icmpLtN32W32 w => Sys2Proof.Machine.execIcmpLtN32W32 w s
  | .icmpLeN32W32 w => Sys2Proof.Machine.execIcmpLeN32W32 w s
  | .sel x => Sys2Proof.Machine.execSel x s
  | .mov x => Sys2Proof.Machine.execMov x s
  | .movW32 w => Sys2Proof.Machine.execMovW32 w s
  | .movH16 h => Sys2Proof.Machine.execMovH16 h s
  | .movi x => Sys2Proof.Machine.execMovi x s
  | .moviW32 w => Sys2Proof.Machine.execMoviW32 w s
  | .movhi x => Sys2Proof.Machine.execMovhi x s
  | .lea x => Sys2Proof.Machine.execLea x s
  | .fadd x => Sys2Proof.Machine.execFadd x s
  | .faddW32 w => Sys2Proof.Machine.execFaddW32 w s
  | .faddH16 h => Sys2Proof.Machine.execFaddH16 h s
  | .fsub x => Sys2Proof.Machine.execFsub x s
  | .fsubW32 w => Sys2Proof.Machine.execFsubW32 w s
  | .fsubH16 h => Sys2Proof.Machine.execFsubH16 h s
  | .fmul x => Sys2Proof.Machine.execFmul x s
  | .fmulW32 w => Sys2Proof.Machine.execFmulW32 w s
  | .fmulH16 h => Sys2Proof.Machine.execFmulH16 h s
  | .fmacRn x => Sys2Proof.Machine.execFmacRn x s
  | .fmacRz x => Sys2Proof.Machine.execFmacRz x s
  | .fmacRu x => Sys2Proof.Machine.execFmacRu x s
  | .fmacRd x => Sys2Proof.Machine.execFmacRd x s
  | .fmin x => Sys2Proof.Machine.execFmin x s
  | .fminW32 w => Sys2Proof.Machine.execFminW32 w s
  | .fminH16 h => Sys2Proof.Machine.execFminH16 h s
  | .fmax x => Sys2Proof.Machine.execFmax x s
  | .fmaxW32 w => Sys2Proof.Machine.execFmaxW32 w s
  | .fmaxH16 h => Sys2Proof.Machine.execFmaxH16 h s
  | .fcmp x => Sys2Proof.Machine.execFcmp x s
  | .fclass x => Sys2Proof.Machine.execFclass x s
  | .frint x => Sys2Proof.Machine.execFrint x s
  | .frcp x => Sys2Proof.Machine.execFrcp x s
  | .frsq x => Sys2Proof.Machine.execFrsq x s
  | .fsqrt x => Sys2Proof.Machine.execFsqrt x s
  | .fex2 x => Sys2Proof.Machine.execFex2 x s
  | .flg2 x => Sys2Proof.Machine.execFlg2 x s
  | .fsin x => Sys2Proof.Machine.execFsin x s
  | .fcos x => Sys2Proof.Machine.execFcos x s
  | .pkadd x => Sys2Proof.Machine.execPkadd x s
  | .pkaddF16x2W32 w => Sys2Proof.Machine.execPkaddF16x2W32 w s
  | .pkaddBf16x2W32 w => Sys2Proof.Machine.execPkaddBf16x2W32 w s
  | .pkmul x => Sys2Proof.Machine.execPkmul x s
  | .pkmulF16x2W32 w => Sys2Proof.Machine.execPkmulF16x2W32 w s
  | .pkmulBf16x2W32 w => Sys2Proof.Machine.execPkmulBf16x2W32 w s
  | .pkfmaF16x2 x => Sys2Proof.Machine.execPkfmaF16x2 x s
  | .pkfmaBf16x2 x => Sys2Proof.Machine.execPkfmaBf16x2 x s
  | .cvtF x => Sys2Proof.Machine.execCvtF x s
  | .cvtI x => Sys2Proof.Machine.execCvtI x s
  | .dxpack x => Sys2Proof.Machine.execDxpack x s
  | .dxunpk x => Sys2Proof.Machine.execDxunpk x s
  | .lperm x => Sys2Proof.Machine.execLperm x s
  | .lpermW32 w => Sys2Proof.Machine.execLpermW32 w s
  | .lshu x => Sys2Proof.Machine.execLshu x s
  | .lshuW32 w => Sys2Proof.Machine.execLshuW32 w s
  | .lshd x => Sys2Proof.Machine.execLshd x s
  | .lshdW32 w => Sys2Proof.Machine.execLshdW32 w s
  | .lxor x => Sys2Proof.Machine.execLxor x s
  | .lxorW32 w => Sys2Proof.Machine.execLxorW32 w s
  | .lrot x => Sys2Proof.Machine.execLrot x s
  | .pollAny x => Sys2Proof.Machine.execPollAny x s
  | .pollAll x => Sys2Proof.Machine.execPollAll x s
  | .pollMask x => Sys2Proof.Machine.execPollMask x s
  | .pollMaskW32 w => Sys2Proof.Machine.execPollMaskW32 w s
  | .leqMask x => Sys2Proof.Machine.execLeqMask x s
  | .leqAll x => Sys2Proof.Machine.execLeqAll x s
  | .redAdd x => Sys2Proof.Machine.execRedAdd x s
  | .redMin x => Sys2Proof.Machine.execRedMin x s
  | .redMax x => Sys2Proof.Machine.execRedMax x s
  | .redAnd x => Sys2Proof.Machine.execRedAnd x s
  | .redOr x => Sys2Proof.Machine.execRedOr x s
  | .redXor x => Sys2Proof.Machine.execRedXor x s
  | .redFadd x => Sys2Proof.Machine.execRedFadd x s
  | .redFmin x => Sys2Proof.Machine.execRedFmin x s
  | .redFmax x => Sys2Proof.Machine.execRedFmax x s
  | .scanAdd x => Sys2Proof.Machine.execScanAdd x s
  | .ld x => Sys2Proof.Machine.execLd x s
  | .ldAcq x => Sys2Proof.Machine.execLdAcq x s
  | .ldSc x => Sys2Proof.Machine.execLdSc x s
  | .st x => Sys2Proof.Machine.execSt x s
  | .stRel x => Sys2Proof.Machine.execStRel x s
  | .stSc x => Sys2Proof.Machine.execStSc x s
  | .atomRlx x => Sys2Proof.Machine.execAtomRlx x s
  | .atomAcq x => Sys2Proof.Machine.execAtomAcq x s
  | .atomRel x => Sys2Proof.Machine.execAtomRel x s
  | .atomAr x => Sys2Proof.Machine.execAtomAr x s
  | .atomSc x => Sys2Proof.Machine.execAtomSc x s
  | .atoms x => Sys2Proof.Machine.execAtoms x s
  | .lds x => Sys2Proof.Machine.execLds x s
  | .sts x => Sys2Proof.Machine.execSts x s
  | .feset x => Sys2Proof.Machine.execFeset x s
  | .feclr x => Sys2Proof.Machine.execFeclr x s
  | .ldfrag x => Sys2Proof.Machine.execLdfrag x s
  | .stashmap x => Sys2Proof.Machine.execStashmap x s
  | .stashflush x => Sys2Proof.Machine.execStashflush x s
  | .stashdrop x => Sys2Proof.Machine.execStashdrop x s
  | .pref x => Sys2Proof.Machine.execPref x s
  | .cclean x => Sys2Proof.Machine.execCclean x s
  | .cinv x => Sys2Proof.Machine.execCinv x s
  | .ldp x => Sys2Proof.Machine.execLdp x s
  | .stp x => Sys2Proof.Machine.execStp x s
  | .fence x => Sys2Proof.Machine.execFence x s
  | .bar x => Sys2Proof.Machine.execBar x s
  | .arrive x => Sys2Proof.Machine.execArrive x s
  | .waitb x => Sys2Proof.Machine.execWaitb x s
  | .cpy x => Sys2Proof.Machine.execCpy x s
  | .cpy2 x => Sys2Proof.Machine.execCpy2 x s
  | .cpyt x => Sys2Proof.Machine.execCpyt x s
  | .cpyx x => Sys2Proof.Machine.execCpyx x s
  | .cpyz x => Sys2Proof.Machine.execCpyz x s
  | .cpyg x => Sys2Proof.Machine.execCpyg x s
  | .cpys x => Sys2Proof.Machine.execCpys x s
  | .cpym x => Sys2Proof.Machine.execCpym x s
  | .fill x => Sys2Proof.Machine.execFill x s
  | .cpyp x => Sys2Proof.Machine.execCpyp x s
  | .bseal x => Sys2Proof.Machine.execBseal x s
  | .bwait x => Sys2Proof.Machine.execBwait x s
  | .mwld x => Sys2Proof.Machine.execMwld x s
  | .mwldL2 x => Sys2Proof.Machine.execMwldL2 x s
  | .mma x => Sys2Proof.Machine.execMma x s
  | .mmaByp x => Sys2Proof.Machine.execMmaByp x s
  | .mdrain x => Sys2Proof.Machine.execMdrain x s
  | .mzero x => Sys2Proof.Machine.execMzero x s
  | .maccld x => Sys2Proof.Machine.execMaccld x s
  | .maccst x => Sys2Proof.Machine.execMaccst x s
  | .mstat x => Sys2Proof.Machine.execMstat x s
  | .launch x => Sys2Proof.Machine.execLaunch x s
  | .launchi x => Sys2Proof.Machine.execLaunchi x s
  | .signal x => Sys2Proof.Machine.execSignal x s
  | .land x => Sys2Proof.Machine.execLand x s
  | .landW32 w => Sys2Proof.Machine.execLandW32 w s
  | .varq x => Sys2Proof.Machine.execVarq x s
  | .ctxsv x => Sys2Proof.Machine.execCtxsv x s
  | .ctxld x => Sys2Proof.Machine.execCtxld x s
  | .ownget x => Sys2Proof.Machine.execOwnget x s
  | .ownset x => Sys2Proof.Machine.execOwnset x s
  | .lget x => Sys2Proof.Machine.execLget x s
  | .lset x => Sys2Proof.Machine.execLset x s
  | .xret x => Sys2Proof.Machine.execXret x s
  | .wqtake x => Sys2Proof.Machine.execWqtake x s
  | .fqtake x => Sys2Proof.Machine.execFqtake x s
  | .rwalk x => Sys2Proof.Machine.execRwalk x s
  | .tlbput x => Sys2Proof.Machine.execTlbput x s
  | .tlbkill x => Sys2Proof.Machine.execTlbkill x s
  | .tresume x => Sys2Proof.Machine.execTresume x s
  | .ownstall x => Sys2Proof.Machine.execOwnstall x s
  | .cntr x => Sys2Proof.Machine.execCntr x s
  | .qosq x => Sys2Proof.Machine.execQosq x s
  | .errq x => Sys2Proof.Machine.execErrq x s
  | .barrierGenerationComplete grid level unit => Sys2Proof.Machine.execBarrierGenerationComplete grid level unit s
  | .copyStart core => Sys2Proof.Machine.execCopyStart core s
  | .copySourceFailure copy => Sys2Proof.Machine.execCopySourceFailure copy s
  | .distillerBlock copy => Sys2Proof.Machine.execDistillerBlock copy s
  | .copyComplete copy => Sys2Proof.Machine.execCopyComplete copy s
  | .cpymFollowOn copy => Sys2Proof.Machine.execCpymFollowOn copy s
  | .matrixCommandStart cmd => Sys2Proof.Machine.execMatrixCommandStart cmd s
  | .matrixCommandComplete cmd => Sys2Proof.Machine.execMatrixCommandComplete cmd s
  | .matrixStop cmd steps => Sys2Proof.Machine.execMatrixStop cmd steps s
  | .matrixResumeReload core => Sys2Proof.Machine.execMatrixResumeReload core s
  | .admission vd queue => Sys2Proof.Machine.execAdmission vd queue s
  | .gridDispatch grid => Sys2Proof.Machine.execGridDispatch grid s
  | .teamPlace grid => Sys2Proof.Machine.execTeamPlace grid s
  | .teamRetire team => Sys2Proof.Machine.execTeamRetire team s
  | .gridRetire grid => Sys2Proof.Machine.execGridRetire grid s
  | .wcetOverrun team => Sys2Proof.Machine.execWcetOverrun team s
  | .switchRequestPost team target => Sys2Proof.Machine.execSwitchRequestPost team target s
  | .landingRemap team => Sys2Proof.Machine.execLandingRemap team s
  | .switchWithdrawTimeout team => Sys2Proof.Machine.execSwitchWithdrawTimeout team s
  | .forwardProgressSwap team => Sys2Proof.Machine.execForwardProgressSwap team s
  | .migration team core => Sys2Proof.Machine.execMigration team core s
  | .resultWriteback flight => Sys2Proof.Machine.execResultWriteback flight s
  | .floatUnitComplete flight => Sys2Proof.Machine.execFloatUnitComplete flight s
  | .memoryComplete op => Sys2Proof.Machine.execMemoryComplete op s
  | .ldsWaitWake op => Sys2Proof.Machine.execLdsWaitWake op s
  | .stashFill op => Sys2Proof.Machine.execStashFill op s
  | .wcBufferWriteout core line => Sys2Proof.Machine.execWcBufferWriteout core line s
  | .wayAllocation part => Sys2Proof.Machine.execWayAllocation part s
  | .noProgressStall vd => Sys2Proof.Machine.execNoProgressStall vd s
  | .sliceEnd part => Sys2Proof.Machine.execSliceEnd part s
  | .sliceStart part => Sys2Proof.Machine.execSliceStart part s
  | .correctableError unit addr => Sys2Proof.Machine.execCorrectableError unit addr s
  | .uncorrectableError e => Sys2Proof.Machine.execUncorrectableError e s
  | .qtailDoorbell vd queue value => Sys2Proof.Machine.execQtailDoorbell vd queue value s
  | .hostPacketLaunch vd queue => Sys2Proof.Machine.execHostPacketLaunch vd queue s
  | .hostPacketLaunchi vd queue => Sys2Proof.Machine.execHostPacketLaunchi vd queue s
  | .hostPacketSignal vd queue => Sys2Proof.Machine.execHostPacketSignal vd queue s
  | .hostPacketBadOp vd queue => Sys2Proof.Machine.execHostPacketBadOp vd queue s
  | .qctlWrite vd queue value => Sys2Proof.Machine.execQctlWrite vd queue value s
  | .vdevtClear vd value => Sys2Proof.Machine.execVdevtClear vd value s
  | .vdctlStart vd => Sys2Proof.Machine.execVdctlStart vd s
  | .xferreqSplit vd offset => Sys2Proof.Machine.execXferreqSplit vd offset s
  | .xferreqMerge vd offset => Sys2Proof.Machine.execXferreqMerge vd offset s
  | .xferreqToP vd offset => Sys2Proof.Machine.execXferreqToP vd offset s
  | .xferreqToA vd offset => Sys2Proof.Machine.execXferreqToA vd offset s
  | .xferComplete vd entry => Sys2Proof.Machine.execXferComplete vd entry s
  | .hostCxlMemAccess decoder acc => Sys2Proof.Machine.execHostCxlMemAccess decoder acc s
  | .birspReceived vd entry line dirty => Sys2Proof.Machine.execBirspReceived vd entry line dirty s
  | .hostSnoop line invalidate => Sys2Proof.Machine.execHostSnoop line invalidate s
  | .bar2Access vd acc => Sys2Proof.Machine.execBar2Access vd acc s
  | .opctlStall vd => Sys2Proof.Machine.execOpctlStall vd s
  | .opctlResume vd => Sys2Proof.Machine.execOpctlResume vd s
  | .opctlReset vd => Sys2Proof.Machine.execOpctlReset vd s
  | .opctlPause vd => Sys2Proof.Machine.execOpctlPause vd s
  | .pauseDrained vd => Sys2Proof.Machine.execPauseDrained vd s
  | .opctlSave vd => Sys2Proof.Machine.execOpctlSave vd s
  | .opctlLoad vd => Sys2Proof.Machine.execOpctlLoad vd s
  | .opctlUnpause vd => Sys2Proof.Machine.execOpctlUnpause vd s
  | .functionLevelReset vd => Sys2Proof.Machine.execFunctionLevelReset vd s
  | .balWrite vd n value => Sys2Proof.Machine.execBalWrite vd n value s
  | .balDropDone vd => Sys2Proof.Machine.execBalDropDone vd s
  | .hvstateWrite vd value => Sys2Proof.Machine.execHvstateWrite vd value s
  | .msixVectorUnmask vd vector => Sys2Proof.Machine.execMsixVectorUnmask vd vector s
  | .registerWrite w => Sys2Proof.Machine.execRegisterWrite w s
  | .mgmtResetPlain => Sys2Proof.Machine.execMgmtResetPlain s
  | .mgmtResetMinimal => Sys2Proof.Machine.execMgmtResetMinimal s
  | .mgmtResetRetry => Sys2Proof.Machine.execMgmtResetRetry s
  | .mgmtFlcWriteWord => Sys2Proof.Machine.execMgmtFlcWriteWord s
  | .pctlApply part => Sys2Proof.Machine.execPctlApply part s
  | .pctlTeardown part => Sys2Proof.Machine.execPctlTeardown part s
  | .linkTraining link far => Sys2Proof.Machine.execLinkTraining link far s
  | .peerBlockArrival b => Sys2Proof.Machine.execPeerBlockArrival b s
  | .clockStepSample part watts => Sys2Proof.Machine.execClockStepSample part watts s
  | .thermalHold gallery celsius => Sys2Proof.Machine.execThermalHold gallery celsius s
  | .thermalTrip gallery => Sys2Proof.Machine.execThermalTrip gallery s
  | .packageStart => Sys2Proof.Machine.execPackageStart s
  | .watchdogExpiry => Sys2Proof.Machine.execWatchdogExpiry s
  | .mgmtException cause epc tval => Sys2Proof.Machine.execMgmtException cause epc tval s
  | .wdogWrite value => Sys2Proof.Machine.execWdogWrite value s
  | .bootokWrite value => Sys2Proof.Machine.execBootokWrite value s
  | .minimalWrite value => Sys2Proof.Machine.execMinimalWrite value s
  | .rstreqClear value => Sys2Proof.Machine.execRstreqClear value s
  | .hsaHash => Sys2Proof.Machine.execHsaHash s
  | .hsaVerify => Sys2Proof.Machine.execHsaVerify s
  | .hsaExtend => Sys2Proof.Machine.execHsaExtend s
  | .hsaOpDone => Sys2Proof.Machine.execHsaOpDone s
  | .flcWriteWord => Sys2Proof.Machine.execFlcWriteWord s
  | .flcWriteDone ok => Sys2Proof.Machine.execFlcWriteDone ok s
  | .doeRequest bytes => Sys2Proof.Machine.execDoeRequest bytes s
  | .doeTxSend len => Sys2Proof.Machine.execDoeTxSend len s
  | .doeRxRelease value => Sys2Proof.Machine.execDoeRxRelease value s
  | .linkFailure link => Sys2Proof.Machine.execLinkFailure link s
  | .powerLoss => Sys2Proof.Machine.execPowerLoss s
  | .copyEngineBeat copy answer => Sys2Proof.Machine.execCopyEngineBeat copy answer s
  | .translationResolved flight => Sys2Proof.Machine.execTranslationResolved flight s

end Sys2Proof.Machine
end

