-- ==== Sys2Proof/Machine/Early.lean ====
section
/-!
DEFINITION. Variable-latency results between their production and their landing (03 R83; 05 R148; log 9): a turn of the schedule
that runs an event early leaves the results of the instruction it completes in the flight's list of produced results, where readers
see in each lane the old value or the new; a later turn lands them.
-/

namespace Sys2Proof.Machine

/-- The registers that an instruction writes at its completion. -/
def MemOp.dests (o : MemOp) : List Nat :=
  match o.kind with
  | .ld | .lds _ => [o.dst]
  | .ldp => pairRegs o.dst
  | .ldfrag => (List.range 8).map fun j => o.dst + j
  | .atom op | .atoms op => aopRegs op o.dst
  | _ => []

def SysOp.dests (o : SysOp) : List Nat :=
  let from' (n : Nat) : List Nat := (List.range n).map fun i => o.dst + i
  match o.kind with
  | .cntr _ _ => pairRegs o.dst
  | .qosq _ => [o.dst]
  | .errq k => errqRegs o.dst k
  | .wqtake | .fqtake => from' 3
  | .rwalk _ _ => from' 6
  | _ => []

/-- An instruction that an event has completed, as its result will stand in the list: its flight, and the registers it writes. -/
structure Gone where
  flight : Nat
  dests  : List Nat
  result : EarlyResult
  deriving DecidableEq, Repr

/-- The instructions that are outstanding in the first state and not in the second. -/
def goneOps (s s' : State) : List Gone :=
  ((s.memOps.filter fun o => !(s'.memOps.any fun p => p.key = o.key) && !(s'.sysOps.any fun p => p.key = o.key)).map fun o =>
      ⟨o.flight, o.dests, ⟨o.key, o.kind.reads, o.order = 1 || 3 ≤ o.order, o.mask, [], 0, o.flag, o.pc, []⟩⟩)
    ++ ((s.vfu.filter fun o => !(s'.vfu.any fun p => p.key = o.key)).map fun o =>
      ⟨o.flight, [o.dst], ⟨o.key, false, false, o.mask, [], 0, o.flag, o.pc, []⟩⟩)
    ++ ((s.sysOps.filter fun o => !(s'.sysOps.any fun p => p.key = o.key)).map fun o =>
      ⟨o.flight, o.dests, ⟨o.key, false, false, o.mask, [], 0, o.flag, o.pc, []⟩⟩)
    ++ ((s.mxq.filter fun o => !(s'.mxq.any fun p => p.key = o.key)).map fun o =>
      ⟨o.flight, [], ⟨o.key, false, false, 0, [], 0, o.flag, o.pc, []⟩⟩)

/-- The flight as the event found it, in what the instruction's completion has changed of it, which its result now holds. -/
def Flight.held (f f' : Flight) (g : Gone) : Flight :=
  let news := f'.poisoned.drop f.poisoned.length
  let regs := (List.range 240).filter fun r => f.present r && (f.reg r ≠ f'.reg r || g.dests.contains r)
  let puts := if news = [] && g.result.mask ≠ 0 then regs.map fun r => (r, (f'.reg r).lanes) else []
  { f' with
    regs := f.regs, fstat := f.fstat, flags := f.flags, poisoned := f.poisoned
    early := f'.early ++ [{ g.result with puts := puts, fstat := f'.fstat, poison := news }] }

/-- An event's outcome with the results of one instruction held back. A flight that is not in its registers, being saved, has no
reader, and lands at once what is its own; so do several instructions that one event completes. -/
def State.holdBack (s s' : State) : State :=
  match goneOps s s' with
  | [g] =>
    match s.flight g.flight, s'.flight g.flight with
    | some f, some f' => if (s'.flightFrame f').isSome then s' else s'.putFlight (f.held f' g)
    | _, _ => s'
  | _ => s'

/-- The status word and the flags of a copy that only waits to complete, which readers may see (11 R250). -/
def State.showCopy (s : State) (c : Copy) : State :=
  if !s.copyReady c then s
  else s.modFlight c.flight fun f =>
    { f with early := (f.early.filter fun e => e.key ≠ c.key) ++
        [⟨c.key, false, false, 0xFFFFFFFF, [(c.dreg, allLanes c.status.toNat)], c.fstat, none, c.pc, []⟩] }

/-- An event whose results readers may see before they land; `s'` is its outcome. A copy lands its own when it completes. -/
def State.early (s : State) (i : Instr) (s' : State) : State :=
  match i with
  | .copyComplete k => match s.copy k with
    | some c => s.showCopy c
    | none => s
  | _ => s.holdBack s'

/-- The result lands: its registers or the causes it raises, its FSTAT bits, then its set flag (03 R82, R83; 05 R148). -/
def State.landEarly (s : State) (k : Nat) (e : EarlyResult) : State :=
  let s : State := s.modFlight k fun f => { f with poisoned := f.poisoned ++ e.poison }
  let s : State := if e.puts = [] then s else s.landVar k e.mask e.puts e.pc
  s.complete k e.flag e.fstat

/-- The landing of the flight's result `n`. -/
def State.settle (s : State) (k n : Nat) : State :=
  match (s.flight k).bind fun f => f.early[n]? with
  | none => s
  | some e =>
    if s.copies.any fun c => c.key = e.key then s
    else (s.modFlight k fun f => { f with early := f.early.eraseIdx n }).landEarly k e

end Sys2Proof.Machine
end

