-- ==== Sys2Proof/Machine/Rv64.lean ====
section
/-!
DEFINITION. The management core's instructions: an RV64IMC core in machine mode (21 R414, R430). The manual names the
instruction set and does not describe it; the instructions are the RISC-V architecture's own (PRESUMED, log 22). Its control
transfers to an address with bit 1 set raise an exception, as R430 has it.
-/

namespace Sys2Proof.Machine

/-! ### Registers -/

def Mgmt.x (m : Mgmt) (r : Nat) : DWord := if r = 0 then 0 else m.xregs.getD r 0
def Mgmt.setX (m : Mgmt) (r : Nat) (v : DWord) : Mgmt := if r = 0 then m else { m with xregs := listSet m.xregs r v }

/-- A CSR of R430's five; the core has machine mode alone, so MPP reads 3. -/
def Mgmt.csr (m : Mgmt) (n : Nat) : Option DWord :=
  if n = 0x300 then some (m.mstatus ||| 0x1800)
  else if n = 0x305 then some m.mtvec
  else if n = 0x341 then some m.mepc
  else if n = 0x342 then some m.mcause
  else if n = 0x343 then some m.mtval
  else none

/-- mtvec holds direct mode alone, mepc an even address, and mstatus MIE and MPIE. -/
def Mgmt.setCsr (m : Mgmt) (n : Nat) (v : DWord) : Mgmt :=
  if n = 0x300 then { m with mstatus := (v &&& 0x88) ||| 0x1800 }
  else if n = 0x305 then { m with mtvec := v &&& ~~~(3 : DWord) }
  else if n = 0x341 then { m with mepc := v &&& ~~~(1 : DWord) }
  else if n = 0x342 then { m with mcause := v }
  else if n = 0x343 then { m with mtval := v }
  else m

/-! ### Arithmetic -/

/-- A field of `n` bits, its sign extended. -/
def sx (n v : Nat) : DWord := (BitVec.ofNat n v).signExtend 64

def rvAlu (f3 : Nat) (alt : Bool) (a b : DWord) : DWord :=
  match f3 with
  | 0 => if alt then a - b else a + b
  | 1 => a <<< (b.toNat % 64)
  | 2 => if a.slt b then 1 else 0
  | 3 => if a.ult b then 1 else 0
  | 4 => a ^^^ b
  | 5 => if alt then a.sshiftRight (b.toNat % 64) else a >>> (b.toNat % 64)
  | 6 => a ||| b
  | _ => a &&& b

def rvAluW (f3 : Nat) (alt : Bool) (a b : Word) : Word :=
  match f3 with
  | 0 => if alt then a - b else a + b
  | 1 => a <<< (b.toNat % 32)
  | _ => if alt then a.sshiftRight (b.toNat % 32) else a >>> (b.toNat % 32)

/-- Quotient and remainder: by zero all ones and the dividend; the one overflow wraps. -/
def rvDiv (w f3 : Nat) (a b : BitVec w) : BitVec w :=
  match f3 with
  | 4 => if b = 0 then BitVec.allOnes w else BitVec.ofInt w (a.toInt.tdiv b.toInt)
  | 5 => if b = 0 then BitVec.allOnes w else a / b
  | 6 => if b = 0 then a else BitVec.ofInt w (a.toInt.tmod b.toInt)
  | _ => if b = 0 then a else a % b

def rvMul (f3 : Nat) (a b : DWord) : DWord :=
  match f3 with
  | 0 => a * b
  | 1 => BitVec.ofInt 64 (a.toInt * b.toInt / 2 ^ 64)
  | 2 => BitVec.ofInt 64 (a.toInt * b.toNat / 2 ^ 64)
  | 3 => BitVec.ofNat 64 (a.toNat * b.toNat / 2 ^ 64)
  | f3 => rvDiv 64 f3 a b

def rvTaken (f3 : Nat) (a b : DWord) : Bool :=
  match f3 with
  | 0 => a = b
  | 1 => a ≠ b
  | 4 => a.slt b
  | 5 => !a.slt b
  | 6 => a.ult b
  | _ => !a.ult b

/-! ### Compressed instructions, as the words they stand for -/

/-- The bits h to l of a half-word, moved to bit k. -/
def mv (c h l k : Nat) : Nat := bits c h l * 2 ^ k

/-- An immediate of `n` bits, its sign extended to `k` bits. -/
def sxTo (n k v : Nat) : Nat := if v / 2 ^ (n - 1) % 2 = 1 then v + 2 ^ k - 2 ^ n else v

def encR (f7 rs2 rs1 f3 rd op : Nat) : Nat := f7 * 2 ^ 25 + rs2 * 2 ^ 20 + rs1 * 2 ^ 15 + f3 * 2 ^ 12 + rd * 2 ^ 7 + op
def encI (imm rs1 f3 rd op : Nat) : Nat := imm * 2 ^ 20 + rs1 * 2 ^ 15 + f3 * 2 ^ 12 + rd * 2 ^ 7 + op
def encS (imm rs2 rs1 f3 : Nat) : Nat := encR (imm / 32) rs2 rs1 f3 (imm % 32) 0x23
def encB (imm rs1 f3 : Nat) : Nat := encR (bits imm 12 12 * 64 + bits imm 10 5) 0 rs1 f3 (bits imm 4 1 * 2 + bits imm 11 11) 0x63
def encJ (imm rd : Nat) : Nat :=
  bits imm 20 20 * 2 ^ 31 + bits imm 10 1 * 2 ^ 21 + bits imm 11 11 * 2 ^ 20 + bits imm 19 12 * 2 ^ 12 + rd * 2 ^ 7 + 0x6F

def expand0 (c : Nat) : Option Nat :=
  let rd := 8 + bits c 4 2
  let rs := 8 + bits c 9 7
  let w := mv c 12 10 3 + mv c 6 6 2 + mv c 5 5 6
  let d := mv c 12 10 3 + mv c 6 5 6
  match bits c 15 13 with
  | 0 =>
    let imm := mv c 12 11 4 + mv c 10 7 6 + mv c 6 6 2 + mv c 5 5 3
    if imm = 0 then none else some (encI imm 2 0 rd 0x13)
  | 2 => some (encI w rs 2 rd 0x03)
  | 3 => some (encI d rs 3 rd 0x03)
  | 6 => some (encS w rd rs 2)
  | 7 => some (encS d rd rs 3)
  | _ => none

def expand1 (c : Nat) : Option Nat :=
  let rd := bits c 11 7
  let imm6 := mv c 12 12 5 + bits c 6 2
  let imm := sxTo 6 12 imm6
  let r := 8 + bits c 9 7
  let r2 := 8 + bits c 4 2
  let b := sxTo 9 13 (mv c 12 12 8 + mv c 11 10 3 + mv c 6 5 6 + mv c 4 3 1 + mv c 2 2 5)
  match bits c 15 13 with
  | 0 => some (encI imm rd 0 rd 0x13)
  | 1 => if rd = 0 then none else some (encI imm rd 0 rd 0x1B)
  | 2 => some (encI imm 0 0 rd 0x13)
  | 3 =>
    if imm6 = 0 then none
    else if rd = 2 then some (encI (sxTo 10 12 (mv c 12 12 9 + mv c 6 6 4 + mv c 5 5 6 + mv c 4 3 7 + mv c 2 2 5)) 2 0 2 0x13)
    else some (sxTo 6 20 imm6 * 2 ^ 12 + rd * 2 ^ 7 + 0x37)
  | 4 =>
    match bits c 11 10 with
    | 0 => some (encI imm6 r 5 r 0x13)
    | 1 => some (encI (0x400 + imm6) r 5 r 0x13)
    | 2 => some (encI imm r 7 r 0x13)
    | _ =>
      match bits c 12 12, bits c 6 5 with
      | 0, 0 => some (encR 0x20 r2 r 0 r 0x33)
      | 0, 1 => some (encR 0 r2 r 4 r 0x33)
      | 0, 2 => some (encR 0 r2 r 6 r 0x33)
      | 0, _ => some (encR 0 r2 r 7 r 0x33)
      | _, 0 => some (encR 0x20 r2 r 0 r 0x3B)
      | _, 1 => some (encR 0 r2 r 0 r 0x3B)
      | _, _ => none
  | 5 => some (encJ (sxTo 12 21 (mv c 12 12 11 + mv c 11 11 4 + mv c 10 9 8 + mv c 8 8 10 + mv c 7 7 6 + mv c 6 6 7 + mv c 5 3 1
      + mv c 2 2 5)) 0)
  | 6 => some (encB b r 0)
  | _ => some (encB b r 1)

def expand2 (c : Nat) : Option Nat :=
  let rd := bits c 11 7
  let rs2 := bits c 6 2
  match bits c 15 13 with
  | 0 => some (encI (mv c 12 12 5 + rs2) rd 1 rd 0x13)
  | 2 => if rd = 0 then none else some (encI (mv c 12 12 5 + mv c 6 4 2 + mv c 3 2 6) 2 2 rd 0x03)
  | 3 => if rd = 0 then none else some (encI (mv c 12 12 5 + mv c 6 5 3 + mv c 4 2 6) 2 3 rd 0x03)
  | 4 =>
    if bits c 12 12 = 0 then
      if rs2 = 0 then if rd = 0 then none else some (encI 0 rd 0 0 0x67)
      else some (encR 0 rs2 0 0 rd 0x33)
    else if rs2 = 0 then if rd = 0 then some 0x00100073 else some (encI 0 rd 0 1 0x67)
    else some (encR 0 rs2 rd 0 rd 0x33)
  | 6 => some (encS (mv c 12 9 2 + mv c 8 7 6) rs2 2 2)
  | 7 => some (encS (mv c 12 10 3 + mv c 9 7 6) rs2 2 3)
  | _ => none

/-- The 32-bit instruction that a compressed one stands for. -/
def rvExpand (c : Nat) : Option Nat :=
  match c % 4 with
  | 0 => expand0 c
  | 1 => expand1 c
  | _ => expand2 c

/-! ### Execution -/

/-- How an instruction ends: the core's next state, or the cause and mtval of an exception. -/
abbrev RvResult := Except (Nat × DWord) Mgmt

def illegal (raw : Nat) : RvResult := .error (2, dw raw)

/-- Control goes to `a`; bit 1 set raises the misaligned-address exception (R430). -/
def Mgmt.jump (m : Mgmt) (a : DWord) : RvResult := if a.getLsbD 1 then .error (0, a) else .ok { m with pc := a }

def Mgmt.put (m : Mgmt) (rd : Nat) (v : DWord) (len : Nat) : RvResult := .ok { m.setX rd v with pc := m.pc + dw len }

def Mgmt.rvLoad (m : Mgmt) (w len raw : Nat) : RvResult :=
  let f3 := bits w 14 12
  let n := 2 ^ (f3 % 4)
  let a := m.x (bits w 19 15) + sx 12 (bits w 31 20)
  if f3 = 7 then illegal raw
  else if a.toNat % n ≠ 0 then .error (4, a)
  else
    let v := m.load a.toNat n
    m.put (bits w 11 7) (if f3 < 4 then sx (8 * n) v else dw v) len

def Mgmt.rvStore (m : Mgmt) (w len raw : Nat) : RvResult :=
  let n := 2 ^ bits w 14 12
  let a := m.x (bits w 19 15) + sx 12 (bits w 31 25 * 32 + bits w 11 7)
  if 3 < bits w 14 12 then illegal raw
  else if a.toNat % n ≠ 0 then .error (6, a)
  else .ok { m.write a.toNat n ((m.x (bits w 24 20)).toNat % 256 ^ n) with pc := m.pc + dw len }

def Mgmt.rvSystem (m : Mgmt) (w len raw : Nat) : RvResult :=
  let f3 := bits w 14 12
  let n := bits w 31 20
  let rd := bits w 11 7
  let rs1 := bits w 19 15
  if f3 = 0 then
    if rd ≠ 0 || rs1 ≠ 0 then illegal raw
    else if n = 0 then .error (11, 0)
    else if n = 1 then .error (3, m.pc)
    else if n = 0x302 then
      .ok { m with pc := m.mepc, mstatus := (if m.mstatus.getLsbD 7 then 0x1888 else 0x1880) }
    else if n = 0x105 then .ok { m with pc := m.pc + dw len }
    else illegal raw
  else if f3 = 4 then illegal raw
  else match m.csr n with
    | none => illegal raw
    | some old =>
      let v := if f3 < 4 then m.x rs1 else dw rs1
      let m : Mgmt := match f3 % 4 with
        | 1 => m.setCsr n v
        | 2 => if rs1 = 0 then m else m.setCsr n (old ||| v)
        | _ => if rs1 = 0 then m else m.setCsr n (old &&& ~~~v)
      m.put rd old len

/-- One instruction, of `len` bytes; `raw`: its bits as fetched. -/
def Mgmt.rvExec (m : Mgmt) (w len raw : Nat) : RvResult :=
  let rd := bits w 11 7
  let f3 := bits w 14 12
  let f7 := bits w 31 25
  let a := m.x (bits w 19 15)
  let b := m.x (bits w 24 20)
  let imm := sx 12 (bits w 31 20)
  let next := m.pc + dw len
  let word (v : Word) : DWord := v.signExtend 64
  match w % 128 with
  | 0x37 => m.put rd (sx 32 (bits w 31 12 * 2 ^ 12)) len
  | 0x17 => m.put rd (m.pc + sx 32 (bits w 31 12 * 2 ^ 12)) len
  | 0x6F =>
    (m.setX rd next).jump (m.pc + sx 21 (bits w 31 31 * 2 ^ 20 + bits w 19 12 * 2 ^ 12 + bits w 20 20 * 2 ^ 11 + bits w 30 21 * 2))
  | 0x67 => if f3 = 0 then (m.setX rd next).jump ((a + imm) &&& ~~~(1 : DWord)) else illegal raw
  | 0x63 =>
    if f3 = 2 || f3 = 3 then illegal raw
    else if rvTaken f3 a b then
      m.jump (m.pc + sx 13 (bits w 31 31 * 2 ^ 12 + bits w 7 7 * 2 ^ 11 + bits w 30 25 * 2 ^ 5 + bits w 11 8 * 2))
    else .ok { m with pc := next }
  | 0x03 => m.rvLoad w len raw
  | 0x23 => m.rvStore w len raw
  | 0x13 =>
    let top := bits w 31 26
    if (f3 = 1 && top ≠ 0) || (f3 = 5 && top ≠ 0 && top ≠ 0x10) then illegal raw
    else m.put rd (rvAlu f3 (f3 = 5 && top = 0x10) a imm) len
  | 0x1B =>
    if (f3 ≠ 0 && f3 ≠ 1 && f3 ≠ 5) || (f3 = 1 && f7 ≠ 0) || (f3 = 5 && f7 ≠ 0 && f7 ≠ 0x20) then illegal raw
    else m.put rd (word (rvAluW f3 (f3 = 5 && f7 = 0x20) (loWord a) (loWord imm))) len
  | 0x33 =>
    if f7 = 1 then m.put rd (rvMul f3 a b) len
    else if f7 = 0 || (f7 = 0x20 && (f3 = 0 || f3 = 5)) then m.put rd (rvAlu f3 (f7 = 0x20) a b) len
    else illegal raw
  | 0x3B =>
    let x := loWord a
    let y := loWord b
    if f7 = 1 && (f3 = 0 || 4 ≤ f3) then m.put rd (word (if f3 = 0 then x * y else rvDiv 32 f3 x y)) len
    else if (f7 = 0 && (f3 = 0 || f3 = 1 || f3 = 5)) || (f7 = 0x20 && (f3 = 0 || f3 = 5)) then
      m.put rd (word (rvAluW f3 (f7 = 0x20) x y)) len
    else illegal raw
  | 0x0F => if f3 = 0 then .ok { m with pc := next } else illegal raw
  | 0x73 => m.rvSystem w len raw
  | _ => illegal raw

/-- The bytes at an address as the core fetches them. -/
def Mgmt.fetch (m : Mgmt) (a n : Nat) : Nat := leNat ((List.range n).map fun i => (m.byteAt (a + i)).getD 0)

/-- The core fetches and runs one instruction, or takes its exception. -/
def Mgmt.rvStep (m : Mgmt) : Mgmt :=
  let half := m.fetch m.pc.toNat 2
  let r := if half % 4 = 3 then let w := m.fetch m.pc.toNat 4; m.rvExec w 4 w
    else match rvExpand half with
      | some w => m.rvExec w 2 half
      | none => illegal half
  match r with
  | .ok m => m
  | .error (cause, tval) => m.exception (dw cause) m.pc tval

/-- The core runs its own instructions after a start, unless it has halted. In minimal mode the first stage's loop in ROM is
given by DOE_REQUEST (R421, R422). -/
def Mgmt.runs (m : Mgmt) : Bool := m.started && m.powered && !m.halted && !(m.minimal && m.pc.toNat < romBytes)

/-- The management core's turn (R414, R430). -/
def State.mgmtTurn (s : State) : State := if s.mgmt.runs then s.setMgmt Mgmt.rvStep else s

end Sys2Proof.Machine
end

