-- ==== Sys2Proof/Machine/Select.lean ====
section
/-!
DEFINITION. A quadrant's turn: the next instruction of each flight, eligibility and selection (03 R76 to R78, R88), and what
the selected flight does when it has no instruction to execute (02 R49; 08 R196; 15 R327).
-/

namespace Sys2Proof.Machine

/-- What issue must know of an instruction before it is decoded: distance, wait mask, set field, op9 (none in H16 and in a
reserved W32 cell) (02 R40 to R42). -/
structure Timing where
  dist : Nat
  mask : BitVec 12
  set  : Nat
  op9  : Option Nat
  deriving DecidableEq, Repr

/-- Entry `k` of the wait-mask table; in owner mode 1 to 7 name all flags (02 R41). -/
def Flight.waitMask (f : Flight) (k : Nat) : BitVec 12 :=
  if k = 0 then 0 else if f.role.isOwner then 0xFFF else f.waitTable.getD k 0

def Flight.timing (f : Flight) (bytes : List Byte) : Timing :=
  let v := leNat bytes
  match lengthOf (bytes.headD 0) with
  | 2 => ⟨0, 0, 15, none⟩
  | 4 =>
    let w := BitVec.ofNat 32 v
    let x := WF.ofWord w
    ⟨x.dist.toNat, f.waitMask x.wait.toNat, 15, (wCell (op7Of w)).map Prod.fst⟩
  | _ =>
    let w := BitVec.ofNat 64 v
    let x := XF.ofWord w
    ⟨x.dist.toNat, x.wait, x.set.toNat, some (op9Of w)⟩

/-- The next instruction's bytes: the next macro step while a body is active. DEDUCED (log 91): a step whose stored word is not an
X64 operation is read as any word is, by its length bits; R61 only says that a body holds X64 operations. -/
def State.nextBytes (s : State) (f : Flight) : Chk (List Byte) :=
  match f.macroStep with
  | some (b, st) => .ok (leBytes 8 (((s.body f b).getD []).getD st 0).toNat)
  | none => s.fetchWord f

/-! ### A cycle of a partition -/

/-- The flight waits at a take of that kind: its next instruction waits on the take's flag (15 R353). -/
def State.takes (s : State) (f : Flight) (k : SysKind) : Bool :=
  s.sysOps.any fun o => o.flight = f.key && o.kind = k && match f.block, s.nextBytes f with
    | .flags, _ | .exit, _ => true
    | .none, .ok b => match o.flag with
      | some n => (f.timing b).mask.getLsbD n
      | none => false
    | _, _ => false

/-- The walk flight is busy (15 R353). -/
def State.walkBusy (s : State) (o : Owner) : Bool :=
  s.flights.any fun f => f.vd = o.vd && f.role = .walk && !(s.takes f .wqtake && o.walks.all WalkReq.taken)

/-- Some fault flight is busy. -/
def State.faultBusy (s : State) (o : Owner) : Bool :=
  s.flights.any fun f => f.vd = o.vd && f.block ≠ .suspended && match f.role with
    | .fault 0 => !(s.takes f .fqtake && o.faultRing = [])
    | .fault 1 => !(s.takes f .fqtake && o.level1.isNone)
    | .fault _ => !(s.takes f .fqtake && o.level2.isNone)
    | _ => false

/-- The owner has work that counts against its progress (15 R349). -/
def State.owes (s : State) (o : Owner) : Bool :=
  o.walks.any (fun r => !r.taken) || o.faultRing ≠ [] || o.level1.isSome || o.level2.isSome || 0 < o.held
    || s.flights.any fun f => f.vd = o.vd && f.block = .suspended

/-- A cycle of an owner: its slice's cycles count, and the rest while it runs. -/
def State.tickOwner (s : State) (o : Owner) : State :=
  if !s.inSlice o.vd then s
  else
    let s : State := s.count o.vd 0x17 1
    if !s.ownerRuns o.vd then s
    else
      let s : State := if s.walkBusy o then s.count o.vd 0x10 1 else s
      let s : State := if s.faultBusy o then s.count o.vd 0x12 1 else s
      if s.owes o then s.modOwner o.vd fun o => { o with progress := o.progress + 1 } else s

/-- One more cycle of a partition. -/
def State.tick (s : State) (p : Nat) : State :=
  let os := s.ownersOf p
  let ts := s.teams.map fun t => if os.any fun o => o.vd = t.vd then s.tickTeam t else t
  let s : State := os.foldl State.tickOwner { s with teams := ts }
  s.modPart p fun (p : Partition) => { p with cycle := p.cycle + 1, left := if p.turn.isSome then p.left - 1 else p.left }

/-! ### Eligibility -/

/-- Whether what a blocked flight waits for has come (03 R76, R105, R106, R108; 09 R227; 11 R268). Waits for a translation,
for a remap and for a handler frame end by events. -/
def State.waitOver (s : State) (f : Flight) : Bool :=
  match f.block with
  | .none => true
  | .flags => s.drained f
  | .exit => s.exitReady f
  | .barrier level gen | .arrive level gen => s.barrierDone f level gen
  | .batch k => s.batchCount f k = 0
  | .fence order scope => s.fenceDone f order scope
  | .land id => match s.team f.team with
    | some t => !s.pairAt t id
    | none => true
  | _ => false

/-- The engine queue that the instruction would enter is full (06 R158; 08 R192; 11 R249; 12 R273). DEDUCED: a copy that has
started has left the core's queue of 32, and counts among the 8 active and the team's 16 alone (log 90). -/
def State.queueFull (s : State) (f : Flight) (op9 : Nat) : Bool :=
  let inQuad (k : Nat) : Bool := match s.flight k with
    | some g => g.quad = f.quad
    | none => false
  if (0x090 ≤ op9 && op9 ≤ 0x096) || op9 = 0x0A2 || op9 = 0x0A3 then
    Config.vfuQueue ≤ (s.vfu.filter fun o => inQuad o.flight).length
  else if 0x0E0 ≤ op9 && op9 ≤ 0x109 then
    Config.memQueue ≤ (s.memOps.filter fun o => inQuad o.flight).length
  else if 0x140 ≤ op9 && op9 ≤ 0x149 then
    Config.copyQueue ≤ (s.copies.filter fun c => c.core = f.core && c.state = .queued).length
      || Config.copyPerTeam ≤ (s.copies.filter fun c => (if f.role.isService then c.flight = f.key else c.team = f.team) && c.state ≠ .done).length
  else if 0x160 ≤ op9 && op9 ≤ 0x167 then
    Config.matrixQueue ≤ (s.mxq.filter fun c => c.team = f.team).length
  else false

/-- Memory, copy, matrix and launch instructions, which an outstanding acquire holds at issue (09 R228). DEDUCED: the launch
class, 0x180 to 0x186, is held but for LAND, which is a wait of the team and makes no access (log 89). -/
def acquireHolds (op9 : Nat) : Bool := (0x0E0 ≤ op9 && op9 ≤ 0x109) || (0x140 ≤ op9 && op9 ≤ 0x186 && op9 ≠ 0x183)

def State.heldByAcquire (s : State) (f : Flight) (op9 : Nat) : Bool :=
  acquireHolds op9 && ((s.memOps.any fun o => o.flight = f.key && (o.order = 1 || 3 ≤ o.order)) || f.early.any EarlyResult.acq)

/-- The conditions of R76 other than distance and other flights' chains. -/
def State.ready (s : State) (f : Flight) (t : Timing) : Bool :=
  s.waitOver f && !f.halted && !f.ended
    && ((List.range 12).all fun j => !t.mask.getLsbD j || f.flags.getD j 0 = 0)
    && !(t.set < 12 && f.flags.getD t.set 0 = 63)
    && (match t.op9 with
      | some op9 => !s.queueFull f op9 && !s.heldByAcquire f op9
      | none => true)

/-- The distance of R76 has passed, and the wait of a YIELD (R105). -/
def Flight.distant (f : Flight) (now : Nat) (t : Timing) : Bool :=
  (match f.lastIssue with
    | some c => c + t.dist + 1 ≤ now
    | none => true)
    && (match f.yielding with
    | some c => c ≤ now
    | none => true)

/-- A flight with its next instruction. A fetch that fails outside translation is found when the flight is selected. -/
structure Cand where
  f      : Flight
  bytes  : Chk (List Byte)
  timing : Timing
  deriving DecidableEq, Repr

/-- The candidates of a quadrant, oldest first. A fetch that misses translation holds its flight (15 R327, R340), as does one from
memory that the host owns (19 R407); with a chain open it still holds the quadrant's other flights, as any wait for translation
does (R88). -/
def State.candidates (s : State) (q : Quad) : State × List Cand :=
  q.order.foldl (fun r k =>
    match r.1.flight k with
    | none => r
    | some f =>
      if f.ended || f.halted then r
      else if !r.1.waitOver f then
        if f.chain.isOpen then (r.1, r.2 ++ [⟨f, .ok [], ⟨0, 0, 15, none⟩⟩]) else r
      else
        let waits (s : State) (f : Flight) : State × List Cand :=
          (s, if f.chain.isOpen then r.2 ++ [⟨f, .ok [], ⟨0, 0, 15, none⟩⟩] else r.2)
        match r.1.nextBytes f with
        | .ok b =>
          let as := if f.macroStep.isSome then [] else r.1.fetchAddrs f b.length
          match r.1.devHold as (.op f.key) with
          | some s => waits s f
          | none => (r.1.recallLines (as.map (· / 128)).dedup, r.2 ++ [⟨f, .ok b, f.timing b⟩])
        | .error (.block b) => let g : Flight := { f with block := b }; waits (r.1.putFlight g) g
        | .error e => (r.1, r.2 ++ [⟨f, .error e, ⟨0, 0, 15, none⟩⟩])) (s, [])

/-- Select (R77): an open chain, else the largest wait count of at least 32, else the oldest. -/
def pickCand (es : List Cand) : Option Cand :=
  match es.find? fun c => c.f.chain.isOpen with
  | some c => some c
  | none =>
    match es.filter fun c => 32 ≤ c.f.waitCount with
    | [] => es.head?
    | p :: ps => some (ps.foldl (fun best c => if best.f.waitCount < c.f.waitCount then c else best) p)

/-- A poison cause is raised at the next instruction to issue. One that has issued and blocked is finished first; an EXIT, after
which nothing issues, is not (08 R196; log 12). -/
def Block.unissued : Block → Bool
  | .none | .exit => true
  | b => b.atIssue

/-- What a quadrant's turn comes to. -/
inductive Pick where
  | idle (s : State)
  /-- The current flight's instruction, as fetched. -/
  | fetched (s : State) (bytes : List Byte)
  deriving DecidableEq, Repr

/-- The eligible candidates. An open chain whose next instruction is held by more than its distance breaks, but for a wait
for translation, and the quadrant chooses again (R88). -/
def State.eligible (s : State) (now : Nat) (cs : List Cand) : State × List Cand :=
  let keeps (c : Cand) : Bool := s.ready c.f c.timing || c.f.block.atIssue || c.bytes = .ok []
  let broken := cs.filter fun c => c.f.chain.isOpen && !keeps c
  let s' : State := broken.foldl (fun s c => s.modFlight c.f.key fun f => { f with chain := Chain.closed }) s
  match cs.find? fun c => c.f.chain.isOpen && keeps c with
  | some c => (s', if s.ready c.f c.timing && c.f.distant now c.timing then [c] else [])
  | none => (s', cs.filter fun c => s.ready c.f c.timing && c.f.distant now c.timing)

/-- The turn of a quadrant: the partition's cycle, the results that are due, and the choice. -/
def State.turn (s : State) (n : Nat) : Pick :=
  match s.partitionOfCore (coreOfQuad n) with
  | none => .idle s
  | some p =>
    let s : State := if (s.quad n).turnCycle = some p.cycle then s.tick p.num else s
    let now := (s.part p.num).cycle
    let s : State := (s.quad n).order.foldl (fun s k => s.land k (some now)) s
    let s : State := s.putQuad { s.quad n with turnCycle := some now }
    let (s, cs) := s.candidates (s.quad n)
    let (s, es) := s.eligible now cs
    match pickCand es with
    | none => .idle s
    | some c =>
      let s : State := (es.filter fun e => e.f.key ≠ c.f.key).foldl (fun s e =>
        s.modFlight e.f.key fun f => { f with waitCount := min 63 (f.waitCount + 1) }) s
      let s : State := { s with cur := some c.f.key }
      match s.flight c.f.key with
      | none => .idle s
      | some f =>
        match (if f.block.unissued then f.poisoned else []) with
        | p :: ps =>
          let g : Flight := { f with poisoned := ps }
          .idle ((s.putFlight g).takeTrap g p.code.toNat p.lane 0 p.pc 0)
        | [] =>
          match c.bytes with
          | .ok b => .fetched (s.served (.op f.key)) b
          | .error e => .idle (s.stopped f 0 e)

/-- A reserved cell traps ILLEGAL_ENCODING (02 R49). -/
def State.reservedCell (s : State) : State :=
  match s.curFlight with
  | some f => s.stopped f 0 (.trap Trap.illegalEncoding none)
  | none => s

/-! ### A program loaded from outside (log 13) -/

/-- The machine with one flight of owner 0 that may issue: what configuration, owner start and a launch lead to. -/
def State.withFlight (s : State) : State :=
  let k := s.nextKey
  let s : State := { s with nextKey := k + 2, cur := some (k + 1) }
  let s : State := s.modPart 0 fun (p : Partition) => { p with active := true, halls := [0], turn := some 0, left := Config.defaultSlice }
  let s : State := s.modOwner 0 fun (o : Owner) => { o with state := 1, enable := true }
  let s : State := s.putTeam (Team.fresh k 0 0 0 0 0)
  s.putFlight (Flight.fresh (k + 1) k 0 0 0 0 .lane 0x10000 (List.replicate 240 .general) (List.replicate 8 0))

/-- Eight bytes where the flight fetches. -/
def State.putWord (s : State) (f : Flight) (bytes : List Byte) : State :=
  let a := f.pc.toNat
  if f.role.isOwner then s.devWrite (bytesAt a bytes)
  else match s.translateRange f a 8 .fetch 0 with
    | .ok ps => s.devWrite ((List.range 8).map fun i => ((ps.getD i (0, false)).1, bytes.getD i 0))
    | .error _ =>
      let pa := a % 2 ^ 38
      let s : State := { s with l1tlb := (f.core, ⟨f.vd, s.asidOf f, a, 8, pa, true, true, false⟩) :: s.l1tlb }
      s.devWrite (bytesAt pa bytes)

end Sys2Proof.Machine
end

