-- ==== Sys2Proof/Machine/Step.lean ====
section
/-!
DEFINITION. One step of the machine: the next turn of the schedule (log 2).
-/

namespace Sys2Proof.Machine

/-- A quadrant's turn: the selected instruction, decoded and executed. -/
noncomputable def State.quadStep (s : State) (n : Nat) : Host.Outcome State Fault Refusal :=
  match s.turn n with
  | .idle s => .next s
  | .fetched s bytes =>
    match decode bytes with
    | .ok p => exec p.1 s
    | .error _ => .next s.reservedCell

/-- The step. With nothing on the agenda, the package starts if it has not, else the quadrant in focus has its turn. -/
noncomputable def step (s : State) : Host.Outcome State Fault Refusal :=
  match s.agenda with
  | .event i :: rest => exec i { s with agenda := rest }
  | .quad n :: rest => State.quadStep { s with agenda := rest } n
  | .mgmt :: rest => .next (State.mgmtTurn { s with agenda := rest })
  | .early i :: rest =>
    let s : State := { s with agenda := rest }
    match exec i s with
    | .next t => .next (s.early i t)
    | o => o
  | .settle k n :: rest => .next (State.settle { s with agenda := rest } k n)
  | .resetDone vd :: rest => .next (State.endReset { s with agenda := rest } vd)
  | .millisecond watts :: rest => .next (State.millisecond { s with agenda := rest } watts)
  | [] => if s.mgmt.started then s.quadStep s.focus else exec .packageStart s

/-- The state with the instruction `w` where the next step fetches: at the PC of the current flight, which is made the one
flight that the next turn considers; a state with no current flight gets one (log 13). -/
def State.withFetchWord (s : State) (nbits w : Nat) : State :=
  let s : State := match s.curFlight with
    | some _ => s
    | none => s.withFlight
  match s.curFlight with
  | none => s
  | some f =>
    let f : Flight := { f with
      macroStep := none, block := .none, halted := false, ended := false, lastIssue := none, yielding := none, poisoned := [], early := [] }
    let s : State := (s.putFlight f).putWord f (leBytes 8 (w % 2 ^ nbits))
    let q := s.quad f.quad
    let s : State := s.putQuad { q with order := [f.key], turnCycle := none }
    { s with agenda := .quad f.quad :: s.agenda }

end Sys2Proof.Machine
end

