-- ==== Sys2Proof/Laws/State.lean ====
section
/-!
SUPPORT. One lemma per field per update of the state and of a flight, so that no proof unfolds a record update.
-/

namespace Sys2Proof.Machine

/-- What no step of a fold changes, the fold leaves. -/
theorem foldl_keeps {α β γ : Type} (g : α → γ) (f : α → β → α) (h : ∀ a b, g (f a b) = g a) (l : List β) (a : α) :
    g (l.foldl f a) = g a := by
  induction l generalizing a with
  | nil => rfl
  | cons b l ih => exact (ih _).trans (h _ _)

/-! `State.putFlight` -/

@[simp] theorem State.putFlight_agenda (s : State) (f : Flight) : (s.putFlight f).agenda = s.agenda := rfl
@[simp] theorem State.putFlight_focus (s : State) (f : Flight) : (s.putFlight f).focus = s.focus := rfl
@[simp] theorem State.putFlight_cur (s : State) (f : Flight) : (s.putFlight f).cur = s.cur := rfl
@[simp] theorem State.putFlight_free (s : State) (f : Flight) : (s.putFlight f).free = s.free := rfl
@[simp] theorem State.putFlight_nextKey (s : State) (f : Flight) : (s.putFlight f).nextKey = s.nextKey := rfl
@[simp] theorem State.putFlight_mem (s : State) (f : Flight) : (s.putFlight f).mem = s.mem := rfl
@[simp] theorem State.putFlight_poison (s : State) (f : Flight) : (s.putFlight f).poison = s.poison := rfl
@[simp] theorem State.putFlight_lines (s : State) (f : Flight) : (s.putFlight f).lines = s.lines := rfl
@[simp] theorem State.putFlight_llc (s : State) (f : Flight) : (s.putFlight f).llc = s.llc := rfl
@[simp] theorem State.putFlight_wc (s : State) (f : Flight) : (s.putFlight f).wc = s.wc := rfl
@[simp] theorem State.putFlight_pins (s : State) (f : Flight) : (s.putFlight f).pins = s.pins := rfl
@[simp] theorem State.putFlight_l1tlb (s : State) (f : Flight) : (s.putFlight f).l1tlb = s.l1tlb := rfl
@[simp] theorem State.putFlight_l2tlb (s : State) (f : Flight) : (s.putFlight f).l2tlb = s.l2tlb := rfl
@[simp] theorem State.putFlight_l3tlb (s : State) (f : Flight) : (s.putFlight f).l3tlb = s.l3tlb := rfl
@[simp] theorem State.putFlight_recs (s : State) (f : Flight) : (s.putFlight f).recs = s.recs := rfl
@[simp] theorem State.putFlight_quads (s : State) (f : Flight) : (s.putFlight f).quads = s.quads := rfl
@[simp] theorem State.putFlight_flights (s : State) (f : Flight) : (s.putFlight f).flights = kset Flight.key f s.flights :=
    rfl
@[simp] theorem State.putFlight_memOps (s : State) (f : Flight) : (s.putFlight f).memOps = s.memOps := rfl
@[simp] theorem State.putFlight_vfu (s : State) (f : Flight) : (s.putFlight f).vfu = s.vfu := rfl
@[simp] theorem State.putFlight_sysOps (s : State) (f : Flight) : (s.putFlight f).sysOps = s.sysOps := rfl
@[simp] theorem State.putFlight_copies (s : State) (f : Flight) : (s.putFlight f).copies = s.copies := rfl
@[simp] theorem State.putFlight_engines (s : State) (f : Flight) : (s.putFlight f).engines = s.engines := rfl
@[simp] theorem State.putFlight_mxq (s : State) (f : Flight) : (s.putFlight f).mxq = s.mxq := rfl
@[simp] theorem State.putFlight_mx (s : State) (f : Flight) : (s.putFlight f).mx = s.mx := rfl
@[simp] theorem State.putFlight_teams (s : State) (f : Flight) : (s.putFlight f).teams = s.teams := rfl
@[simp] theorem State.putFlight_residue (s : State) (f : Flight) : (s.putFlight f).residue = s.residue := rfl
@[simp] theorem State.putFlight_grids (s : State) (f : Flight) : (s.putFlight f).grids = s.grids := rfl
@[simp] theorem State.putFlight_barriers (s : State) (f : Flight) : (s.putFlight f).barriers = s.barriers := rfl
@[simp] theorem State.putFlight_forwards (s : State) (f : Flight) : (s.putFlight f).forwards = s.forwards := rfl
@[simp] theorem State.putFlight_owners (s : State) (f : Flight) : (s.putFlight f).owners = s.owners := rfl
@[simp] theorem State.putFlight_saved (s : State) (f : Flight) : (s.putFlight f).saved = s.saved := rfl
@[simp] theorem State.putFlight_parts (s : State) (f : Flight) : (s.putFlight f).parts = s.parts := rfl
@[simp] theorem State.putFlight_links (s : State) (f : Flight) : (s.putFlight f).links = s.links := rfl
@[simp] theorem State.putFlight_hdmTgt (s : State) (f : Flight) : (s.putFlight f).hdmTgt = s.hdmTgt := rfl
@[simp] theorem State.putFlight_t2size (s : State) (f : Flight) : (s.putFlight f).t2size = s.t2size := rfl
@[simp] theorem State.putFlight_pcie (s : State) (f : Flight) : (s.putFlight f).pcie = s.pcie := rfl
@[simp] theorem State.putFlight_mgmt (s : State) (f : Flight) : (s.putFlight f).mgmt = s.mgmt := rfl
@[simp] theorem State.putFlight_host (s : State) (f : Flight) : (s.putFlight f).host = s.host := rfl

/-! `State.putQuad` -/

@[simp] theorem State.putQuad_agenda (s : State) (q : Quad) : (s.putQuad q).agenda = s.agenda := rfl
@[simp] theorem State.putQuad_focus (s : State) (q : Quad) : (s.putQuad q).focus = s.focus := rfl
@[simp] theorem State.putQuad_cur (s : State) (q : Quad) : (s.putQuad q).cur = s.cur := rfl
@[simp] theorem State.putQuad_free (s : State) (q : Quad) : (s.putQuad q).free = s.free := rfl
@[simp] theorem State.putQuad_nextKey (s : State) (q : Quad) : (s.putQuad q).nextKey = s.nextKey := rfl
@[simp] theorem State.putQuad_mem (s : State) (q : Quad) : (s.putQuad q).mem = s.mem := rfl
@[simp] theorem State.putQuad_poison (s : State) (q : Quad) : (s.putQuad q).poison = s.poison := rfl
@[simp] theorem State.putQuad_lines (s : State) (q : Quad) : (s.putQuad q).lines = s.lines := rfl
@[simp] theorem State.putQuad_llc (s : State) (q : Quad) : (s.putQuad q).llc = s.llc := rfl
@[simp] theorem State.putQuad_wc (s : State) (q : Quad) : (s.putQuad q).wc = s.wc := rfl
@[simp] theorem State.putQuad_pins (s : State) (q : Quad) : (s.putQuad q).pins = s.pins := rfl
@[simp] theorem State.putQuad_l1tlb (s : State) (q : Quad) : (s.putQuad q).l1tlb = s.l1tlb := rfl
@[simp] theorem State.putQuad_l2tlb (s : State) (q : Quad) : (s.putQuad q).l2tlb = s.l2tlb := rfl
@[simp] theorem State.putQuad_l3tlb (s : State) (q : Quad) : (s.putQuad q).l3tlb = s.l3tlb := rfl
@[simp] theorem State.putQuad_recs (s : State) (q : Quad) : (s.putQuad q).recs = s.recs := rfl
@[simp] theorem State.putQuad_quads (s : State) (q : Quad) : (s.putQuad q).quads = kset Quad.num q s.quads := rfl
@[simp] theorem State.putQuad_flights (s : State) (q : Quad) : (s.putQuad q).flights = s.flights := rfl
@[simp] theorem State.putQuad_memOps (s : State) (q : Quad) : (s.putQuad q).memOps = s.memOps := rfl
@[simp] theorem State.putQuad_vfu (s : State) (q : Quad) : (s.putQuad q).vfu = s.vfu := rfl
@[simp] theorem State.putQuad_sysOps (s : State) (q : Quad) : (s.putQuad q).sysOps = s.sysOps := rfl
@[simp] theorem State.putQuad_copies (s : State) (q : Quad) : (s.putQuad q).copies = s.copies := rfl
@[simp] theorem State.putQuad_engines (s : State) (q : Quad) : (s.putQuad q).engines = s.engines := rfl
@[simp] theorem State.putQuad_mxq (s : State) (q : Quad) : (s.putQuad q).mxq = s.mxq := rfl
@[simp] theorem State.putQuad_mx (s : State) (q : Quad) : (s.putQuad q).mx = s.mx := rfl
@[simp] theorem State.putQuad_teams (s : State) (q : Quad) : (s.putQuad q).teams = s.teams := rfl
@[simp] theorem State.putQuad_residue (s : State) (q : Quad) : (s.putQuad q).residue = s.residue := rfl
@[simp] theorem State.putQuad_grids (s : State) (q : Quad) : (s.putQuad q).grids = s.grids := rfl
@[simp] theorem State.putQuad_barriers (s : State) (q : Quad) : (s.putQuad q).barriers = s.barriers := rfl
@[simp] theorem State.putQuad_forwards (s : State) (q : Quad) : (s.putQuad q).forwards = s.forwards := rfl
@[simp] theorem State.putQuad_owners (s : State) (q : Quad) : (s.putQuad q).owners = s.owners := rfl
@[simp] theorem State.putQuad_saved (s : State) (q : Quad) : (s.putQuad q).saved = s.saved := rfl
@[simp] theorem State.putQuad_parts (s : State) (q : Quad) : (s.putQuad q).parts = s.parts := rfl
@[simp] theorem State.putQuad_links (s : State) (q : Quad) : (s.putQuad q).links = s.links := rfl
@[simp] theorem State.putQuad_hdmTgt (s : State) (q : Quad) : (s.putQuad q).hdmTgt = s.hdmTgt := rfl
@[simp] theorem State.putQuad_t2size (s : State) (q : Quad) : (s.putQuad q).t2size = s.t2size := rfl
@[simp] theorem State.putQuad_pcie (s : State) (q : Quad) : (s.putQuad q).pcie = s.pcie := rfl
@[simp] theorem State.putQuad_mgmt (s : State) (q : Quad) : (s.putQuad q).mgmt = s.mgmt := rfl
@[simp] theorem State.putQuad_host (s : State) (q : Quad) : (s.putQuad q).host = s.host := rfl

/-! `State.putTeam` -/

@[simp] theorem State.putTeam_agenda (s : State) (t : Team) : (s.putTeam t).agenda = s.agenda := rfl
@[simp] theorem State.putTeam_focus (s : State) (t : Team) : (s.putTeam t).focus = s.focus := rfl
@[simp] theorem State.putTeam_cur (s : State) (t : Team) : (s.putTeam t).cur = s.cur := rfl
@[simp] theorem State.putTeam_free (s : State) (t : Team) : (s.putTeam t).free = s.free := rfl
@[simp] theorem State.putTeam_nextKey (s : State) (t : Team) : (s.putTeam t).nextKey = s.nextKey := rfl
@[simp] theorem State.putTeam_mem (s : State) (t : Team) : (s.putTeam t).mem = s.mem := rfl
@[simp] theorem State.putTeam_poison (s : State) (t : Team) : (s.putTeam t).poison = s.poison := rfl
@[simp] theorem State.putTeam_lines (s : State) (t : Team) : (s.putTeam t).lines = s.lines := rfl
@[simp] theorem State.putTeam_llc (s : State) (t : Team) : (s.putTeam t).llc = s.llc := rfl
@[simp] theorem State.putTeam_wc (s : State) (t : Team) : (s.putTeam t).wc = s.wc := rfl
@[simp] theorem State.putTeam_pins (s : State) (t : Team) : (s.putTeam t).pins = s.pins := rfl
@[simp] theorem State.putTeam_l1tlb (s : State) (t : Team) : (s.putTeam t).l1tlb = s.l1tlb := rfl
@[simp] theorem State.putTeam_l2tlb (s : State) (t : Team) : (s.putTeam t).l2tlb = s.l2tlb := rfl
@[simp] theorem State.putTeam_l3tlb (s : State) (t : Team) : (s.putTeam t).l3tlb = s.l3tlb := rfl
@[simp] theorem State.putTeam_recs (s : State) (t : Team) : (s.putTeam t).recs = s.recs := rfl
@[simp] theorem State.putTeam_quads (s : State) (t : Team) : (s.putTeam t).quads = s.quads := rfl
@[simp] theorem State.putTeam_flights (s : State) (t : Team) : (s.putTeam t).flights = s.flights := rfl
@[simp] theorem State.putTeam_memOps (s : State) (t : Team) : (s.putTeam t).memOps = s.memOps := rfl
@[simp] theorem State.putTeam_vfu (s : State) (t : Team) : (s.putTeam t).vfu = s.vfu := rfl
@[simp] theorem State.putTeam_sysOps (s : State) (t : Team) : (s.putTeam t).sysOps = s.sysOps := rfl
@[simp] theorem State.putTeam_copies (s : State) (t : Team) : (s.putTeam t).copies = s.copies := rfl
@[simp] theorem State.putTeam_engines (s : State) (t : Team) : (s.putTeam t).engines = s.engines := rfl
@[simp] theorem State.putTeam_mxq (s : State) (t : Team) : (s.putTeam t).mxq = s.mxq := rfl
@[simp] theorem State.putTeam_mx (s : State) (t : Team) : (s.putTeam t).mx = s.mx := rfl
@[simp] theorem State.putTeam_teams (s : State) (t : Team) : (s.putTeam t).teams = kset Team.key t s.teams := rfl
@[simp] theorem State.putTeam_residue (s : State) (t : Team) : (s.putTeam t).residue = s.residue := rfl
@[simp] theorem State.putTeam_grids (s : State) (t : Team) : (s.putTeam t).grids = s.grids := rfl
@[simp] theorem State.putTeam_barriers (s : State) (t : Team) : (s.putTeam t).barriers = s.barriers := rfl
@[simp] theorem State.putTeam_forwards (s : State) (t : Team) : (s.putTeam t).forwards = s.forwards := rfl
@[simp] theorem State.putTeam_owners (s : State) (t : Team) : (s.putTeam t).owners = s.owners := rfl
@[simp] theorem State.putTeam_saved (s : State) (t : Team) : (s.putTeam t).saved = s.saved := rfl
@[simp] theorem State.putTeam_parts (s : State) (t : Team) : (s.putTeam t).parts = s.parts := rfl
@[simp] theorem State.putTeam_links (s : State) (t : Team) : (s.putTeam t).links = s.links := rfl
@[simp] theorem State.putTeam_hdmTgt (s : State) (t : Team) : (s.putTeam t).hdmTgt = s.hdmTgt := rfl
@[simp] theorem State.putTeam_t2size (s : State) (t : Team) : (s.putTeam t).t2size = s.t2size := rfl
@[simp] theorem State.putTeam_pcie (s : State) (t : Team) : (s.putTeam t).pcie = s.pcie := rfl
@[simp] theorem State.putTeam_mgmt (s : State) (t : Team) : (s.putTeam t).mgmt = s.mgmt := rfl
@[simp] theorem State.putTeam_host (s : State) (t : Team) : (s.putTeam t).host = s.host := rfl

/-! `State.putGrid` -/

@[simp] theorem State.putGrid_agenda (s : State) (g : Grid) : (s.putGrid g).agenda = s.agenda := rfl
@[simp] theorem State.putGrid_focus (s : State) (g : Grid) : (s.putGrid g).focus = s.focus := rfl
@[simp] theorem State.putGrid_cur (s : State) (g : Grid) : (s.putGrid g).cur = s.cur := rfl
@[simp] theorem State.putGrid_free (s : State) (g : Grid) : (s.putGrid g).free = s.free := rfl
@[simp] theorem State.putGrid_nextKey (s : State) (g : Grid) : (s.putGrid g).nextKey = s.nextKey := rfl
@[simp] theorem State.putGrid_mem (s : State) (g : Grid) : (s.putGrid g).mem = s.mem := rfl
@[simp] theorem State.putGrid_poison (s : State) (g : Grid) : (s.putGrid g).poison = s.poison := rfl
@[simp] theorem State.putGrid_lines (s : State) (g : Grid) : (s.putGrid g).lines = s.lines := rfl
@[simp] theorem State.putGrid_llc (s : State) (g : Grid) : (s.putGrid g).llc = s.llc := rfl
@[simp] theorem State.putGrid_wc (s : State) (g : Grid) : (s.putGrid g).wc = s.wc := rfl
@[simp] theorem State.putGrid_pins (s : State) (g : Grid) : (s.putGrid g).pins = s.pins := rfl
@[simp] theorem State.putGrid_l1tlb (s : State) (g : Grid) : (s.putGrid g).l1tlb = s.l1tlb := rfl
@[simp] theorem State.putGrid_l2tlb (s : State) (g : Grid) : (s.putGrid g).l2tlb = s.l2tlb := rfl
@[simp] theorem State.putGrid_l3tlb (s : State) (g : Grid) : (s.putGrid g).l3tlb = s.l3tlb := rfl
@[simp] theorem State.putGrid_recs (s : State) (g : Grid) : (s.putGrid g).recs = s.recs := rfl
@[simp] theorem State.putGrid_quads (s : State) (g : Grid) : (s.putGrid g).quads = s.quads := rfl
@[simp] theorem State.putGrid_flights (s : State) (g : Grid) : (s.putGrid g).flights = s.flights := rfl
@[simp] theorem State.putGrid_memOps (s : State) (g : Grid) : (s.putGrid g).memOps = s.memOps := rfl
@[simp] theorem State.putGrid_vfu (s : State) (g : Grid) : (s.putGrid g).vfu = s.vfu := rfl
@[simp] theorem State.putGrid_sysOps (s : State) (g : Grid) : (s.putGrid g).sysOps = s.sysOps := rfl
@[simp] theorem State.putGrid_copies (s : State) (g : Grid) : (s.putGrid g).copies = s.copies := rfl
@[simp] theorem State.putGrid_engines (s : State) (g : Grid) : (s.putGrid g).engines = s.engines := rfl
@[simp] theorem State.putGrid_mxq (s : State) (g : Grid) : (s.putGrid g).mxq = s.mxq := rfl
@[simp] theorem State.putGrid_mx (s : State) (g : Grid) : (s.putGrid g).mx = s.mx := rfl
@[simp] theorem State.putGrid_teams (s : State) (g : Grid) : (s.putGrid g).teams = s.teams := rfl
@[simp] theorem State.putGrid_residue (s : State) (g : Grid) : (s.putGrid g).residue = s.residue := rfl
@[simp] theorem State.putGrid_grids (s : State) (g : Grid) : (s.putGrid g).grids = kset Grid.key g s.grids := rfl
@[simp] theorem State.putGrid_barriers (s : State) (g : Grid) : (s.putGrid g).barriers = s.barriers := rfl
@[simp] theorem State.putGrid_forwards (s : State) (g : Grid) : (s.putGrid g).forwards = s.forwards := rfl
@[simp] theorem State.putGrid_owners (s : State) (g : Grid) : (s.putGrid g).owners = s.owners := rfl
@[simp] theorem State.putGrid_saved (s : State) (g : Grid) : (s.putGrid g).saved = s.saved := rfl
@[simp] theorem State.putGrid_parts (s : State) (g : Grid) : (s.putGrid g).parts = s.parts := rfl
@[simp] theorem State.putGrid_links (s : State) (g : Grid) : (s.putGrid g).links = s.links := rfl
@[simp] theorem State.putGrid_hdmTgt (s : State) (g : Grid) : (s.putGrid g).hdmTgt = s.hdmTgt := rfl
@[simp] theorem State.putGrid_t2size (s : State) (g : Grid) : (s.putGrid g).t2size = s.t2size := rfl
@[simp] theorem State.putGrid_pcie (s : State) (g : Grid) : (s.putGrid g).pcie = s.pcie := rfl
@[simp] theorem State.putGrid_mgmt (s : State) (g : Grid) : (s.putGrid g).mgmt = s.mgmt := rfl
@[simp] theorem State.putGrid_host (s : State) (g : Grid) : (s.putGrid g).host = s.host := rfl

/-! `State.putOwner` -/

@[simp] theorem State.putOwner_agenda (s : State) (o : Owner) : (s.putOwner o).agenda = s.agenda := rfl
@[simp] theorem State.putOwner_focus (s : State) (o : Owner) : (s.putOwner o).focus = s.focus := rfl
@[simp] theorem State.putOwner_cur (s : State) (o : Owner) : (s.putOwner o).cur = s.cur := rfl
@[simp] theorem State.putOwner_free (s : State) (o : Owner) : (s.putOwner o).free = s.free := rfl
@[simp] theorem State.putOwner_nextKey (s : State) (o : Owner) : (s.putOwner o).nextKey = s.nextKey := rfl
@[simp] theorem State.putOwner_mem (s : State) (o : Owner) : (s.putOwner o).mem = s.mem := rfl
@[simp] theorem State.putOwner_poison (s : State) (o : Owner) : (s.putOwner o).poison = s.poison := rfl
@[simp] theorem State.putOwner_lines (s : State) (o : Owner) : (s.putOwner o).lines = s.lines := rfl
@[simp] theorem State.putOwner_llc (s : State) (o : Owner) : (s.putOwner o).llc = s.llc := rfl
@[simp] theorem State.putOwner_wc (s : State) (o : Owner) : (s.putOwner o).wc = s.wc := rfl
@[simp] theorem State.putOwner_pins (s : State) (o : Owner) : (s.putOwner o).pins = s.pins := rfl
@[simp] theorem State.putOwner_l1tlb (s : State) (o : Owner) : (s.putOwner o).l1tlb = s.l1tlb := rfl
@[simp] theorem State.putOwner_l2tlb (s : State) (o : Owner) : (s.putOwner o).l2tlb = s.l2tlb := rfl
@[simp] theorem State.putOwner_l3tlb (s : State) (o : Owner) : (s.putOwner o).l3tlb = s.l3tlb := rfl
@[simp] theorem State.putOwner_recs (s : State) (o : Owner) : (s.putOwner o).recs = s.recs := rfl
@[simp] theorem State.putOwner_quads (s : State) (o : Owner) : (s.putOwner o).quads = s.quads := rfl
@[simp] theorem State.putOwner_flights (s : State) (o : Owner) : (s.putOwner o).flights = s.flights := rfl
@[simp] theorem State.putOwner_memOps (s : State) (o : Owner) : (s.putOwner o).memOps = s.memOps := rfl
@[simp] theorem State.putOwner_vfu (s : State) (o : Owner) : (s.putOwner o).vfu = s.vfu := rfl
@[simp] theorem State.putOwner_sysOps (s : State) (o : Owner) : (s.putOwner o).sysOps = s.sysOps := rfl
@[simp] theorem State.putOwner_copies (s : State) (o : Owner) : (s.putOwner o).copies = s.copies := rfl
@[simp] theorem State.putOwner_engines (s : State) (o : Owner) : (s.putOwner o).engines = s.engines := rfl
@[simp] theorem State.putOwner_mxq (s : State) (o : Owner) : (s.putOwner o).mxq = s.mxq := rfl
@[simp] theorem State.putOwner_mx (s : State) (o : Owner) : (s.putOwner o).mx = s.mx := rfl
@[simp] theorem State.putOwner_teams (s : State) (o : Owner) : (s.putOwner o).teams = s.teams := rfl
@[simp] theorem State.putOwner_residue (s : State) (o : Owner) : (s.putOwner o).residue = s.residue := rfl
@[simp] theorem State.putOwner_grids (s : State) (o : Owner) : (s.putOwner o).grids = s.grids := rfl
@[simp] theorem State.putOwner_barriers (s : State) (o : Owner) : (s.putOwner o).barriers = s.barriers := rfl
@[simp] theorem State.putOwner_forwards (s : State) (o : Owner) : (s.putOwner o).forwards = s.forwards := rfl
@[simp] theorem State.putOwner_owners (s : State) (o : Owner) : (s.putOwner o).owners = kset Owner.vd o s.owners := rfl
@[simp] theorem State.putOwner_saved (s : State) (o : Owner) : (s.putOwner o).saved = s.saved := rfl
@[simp] theorem State.putOwner_parts (s : State) (o : Owner) : (s.putOwner o).parts = s.parts := rfl
@[simp] theorem State.putOwner_links (s : State) (o : Owner) : (s.putOwner o).links = s.links := rfl
@[simp] theorem State.putOwner_hdmTgt (s : State) (o : Owner) : (s.putOwner o).hdmTgt = s.hdmTgt := rfl
@[simp] theorem State.putOwner_t2size (s : State) (o : Owner) : (s.putOwner o).t2size = s.t2size := rfl
@[simp] theorem State.putOwner_pcie (s : State) (o : Owner) : (s.putOwner o).pcie = s.pcie := rfl
@[simp] theorem State.putOwner_mgmt (s : State) (o : Owner) : (s.putOwner o).mgmt = s.mgmt := rfl
@[simp] theorem State.putOwner_host (s : State) (o : Owner) : (s.putOwner o).host = s.host := rfl

/-! `State.putPart` -/

@[simp] theorem State.putPart_agenda (s : State) (p : Partition) : (s.putPart p).agenda = s.agenda := rfl
@[simp] theorem State.putPart_focus (s : State) (p : Partition) : (s.putPart p).focus = s.focus := rfl
@[simp] theorem State.putPart_cur (s : State) (p : Partition) : (s.putPart p).cur = s.cur := rfl
@[simp] theorem State.putPart_free (s : State) (p : Partition) : (s.putPart p).free = s.free := rfl
@[simp] theorem State.putPart_nextKey (s : State) (p : Partition) : (s.putPart p).nextKey = s.nextKey := rfl
@[simp] theorem State.putPart_mem (s : State) (p : Partition) : (s.putPart p).mem = s.mem := rfl
@[simp] theorem State.putPart_poison (s : State) (p : Partition) : (s.putPart p).poison = s.poison := rfl
@[simp] theorem State.putPart_lines (s : State) (p : Partition) : (s.putPart p).lines = s.lines := rfl
@[simp] theorem State.putPart_llc (s : State) (p : Partition) : (s.putPart p).llc = s.llc := rfl
@[simp] theorem State.putPart_wc (s : State) (p : Partition) : (s.putPart p).wc = s.wc := rfl
@[simp] theorem State.putPart_pins (s : State) (p : Partition) : (s.putPart p).pins = s.pins := rfl
@[simp] theorem State.putPart_l1tlb (s : State) (p : Partition) : (s.putPart p).l1tlb = s.l1tlb := rfl
@[simp] theorem State.putPart_l2tlb (s : State) (p : Partition) : (s.putPart p).l2tlb = s.l2tlb := rfl
@[simp] theorem State.putPart_l3tlb (s : State) (p : Partition) : (s.putPart p).l3tlb = s.l3tlb := rfl
@[simp] theorem State.putPart_recs (s : State) (p : Partition) : (s.putPart p).recs = s.recs := rfl
@[simp] theorem State.putPart_quads (s : State) (p : Partition) : (s.putPart p).quads = s.quads := rfl
@[simp] theorem State.putPart_flights (s : State) (p : Partition) : (s.putPart p).flights = s.flights := rfl
@[simp] theorem State.putPart_memOps (s : State) (p : Partition) : (s.putPart p).memOps = s.memOps := rfl
@[simp] theorem State.putPart_vfu (s : State) (p : Partition) : (s.putPart p).vfu = s.vfu := rfl
@[simp] theorem State.putPart_sysOps (s : State) (p : Partition) : (s.putPart p).sysOps = s.sysOps := rfl
@[simp] theorem State.putPart_copies (s : State) (p : Partition) : (s.putPart p).copies = s.copies := rfl
@[simp] theorem State.putPart_engines (s : State) (p : Partition) : (s.putPart p).engines = s.engines := rfl
@[simp] theorem State.putPart_mxq (s : State) (p : Partition) : (s.putPart p).mxq = s.mxq := rfl
@[simp] theorem State.putPart_mx (s : State) (p : Partition) : (s.putPart p).mx = s.mx := rfl
@[simp] theorem State.putPart_teams (s : State) (p : Partition) : (s.putPart p).teams = s.teams := rfl
@[simp] theorem State.putPart_residue (s : State) (p : Partition) : (s.putPart p).residue = s.residue := rfl
@[simp] theorem State.putPart_grids (s : State) (p : Partition) : (s.putPart p).grids = s.grids := rfl
@[simp] theorem State.putPart_barriers (s : State) (p : Partition) : (s.putPart p).barriers = s.barriers := rfl
@[simp] theorem State.putPart_forwards (s : State) (p : Partition) : (s.putPart p).forwards = s.forwards := rfl
@[simp] theorem State.putPart_owners (s : State) (p : Partition) : (s.putPart p).owners = s.owners := rfl
@[simp] theorem State.putPart_saved (s : State) (p : Partition) : (s.putPart p).saved = s.saved := rfl
@[simp] theorem State.putPart_parts (s : State) (p : Partition) : (s.putPart p).parts = kset Partition.num p s.parts := rfl
@[simp] theorem State.putPart_links (s : State) (p : Partition) : (s.putPart p).links = s.links := rfl
@[simp] theorem State.putPart_hdmTgt (s : State) (p : Partition) : (s.putPart p).hdmTgt = s.hdmTgt := rfl
@[simp] theorem State.putPart_t2size (s : State) (p : Partition) : (s.putPart p).t2size = s.t2size := rfl
@[simp] theorem State.putPart_pcie (s : State) (p : Partition) : (s.putPart p).pcie = s.pcie := rfl
@[simp] theorem State.putPart_mgmt (s : State) (p : Partition) : (s.putPart p).mgmt = s.mgmt := rfl
@[simp] theorem State.putPart_host (s : State) (p : Partition) : (s.putPart p).host = s.host := rfl

/-! `State.putMx` -/

@[simp] theorem State.putMx_agenda (s : State) (m : MxCore) : (s.putMx m).agenda = s.agenda := rfl
@[simp] theorem State.putMx_focus (s : State) (m : MxCore) : (s.putMx m).focus = s.focus := rfl
@[simp] theorem State.putMx_cur (s : State) (m : MxCore) : (s.putMx m).cur = s.cur := rfl
@[simp] theorem State.putMx_free (s : State) (m : MxCore) : (s.putMx m).free = s.free := rfl
@[simp] theorem State.putMx_nextKey (s : State) (m : MxCore) : (s.putMx m).nextKey = s.nextKey := rfl
@[simp] theorem State.putMx_mem (s : State) (m : MxCore) : (s.putMx m).mem = s.mem := rfl
@[simp] theorem State.putMx_poison (s : State) (m : MxCore) : (s.putMx m).poison = s.poison := rfl
@[simp] theorem State.putMx_lines (s : State) (m : MxCore) : (s.putMx m).lines = s.lines := rfl
@[simp] theorem State.putMx_llc (s : State) (m : MxCore) : (s.putMx m).llc = s.llc := rfl
@[simp] theorem State.putMx_wc (s : State) (m : MxCore) : (s.putMx m).wc = s.wc := rfl
@[simp] theorem State.putMx_pins (s : State) (m : MxCore) : (s.putMx m).pins = s.pins := rfl
@[simp] theorem State.putMx_l1tlb (s : State) (m : MxCore) : (s.putMx m).l1tlb = s.l1tlb := rfl
@[simp] theorem State.putMx_l2tlb (s : State) (m : MxCore) : (s.putMx m).l2tlb = s.l2tlb := rfl
@[simp] theorem State.putMx_l3tlb (s : State) (m : MxCore) : (s.putMx m).l3tlb = s.l3tlb := rfl
@[simp] theorem State.putMx_recs (s : State) (m : MxCore) : (s.putMx m).recs = s.recs := rfl
@[simp] theorem State.putMx_quads (s : State) (m : MxCore) : (s.putMx m).quads = s.quads := rfl
@[simp] theorem State.putMx_flights (s : State) (m : MxCore) : (s.putMx m).flights = s.flights := rfl
@[simp] theorem State.putMx_memOps (s : State) (m : MxCore) : (s.putMx m).memOps = s.memOps := rfl
@[simp] theorem State.putMx_vfu (s : State) (m : MxCore) : (s.putMx m).vfu = s.vfu := rfl
@[simp] theorem State.putMx_sysOps (s : State) (m : MxCore) : (s.putMx m).sysOps = s.sysOps := rfl
@[simp] theorem State.putMx_copies (s : State) (m : MxCore) : (s.putMx m).copies = s.copies := rfl
@[simp] theorem State.putMx_engines (s : State) (m : MxCore) : (s.putMx m).engines = s.engines := rfl
@[simp] theorem State.putMx_mxq (s : State) (m : MxCore) : (s.putMx m).mxq = s.mxq := rfl
@[simp] theorem State.putMx_mx (s : State) (m : MxCore) : (s.putMx m).mx = kset MxCore.core m s.mx := rfl
@[simp] theorem State.putMx_teams (s : State) (m : MxCore) : (s.putMx m).teams = s.teams := rfl
@[simp] theorem State.putMx_residue (s : State) (m : MxCore) : (s.putMx m).residue = s.residue := rfl
@[simp] theorem State.putMx_grids (s : State) (m : MxCore) : (s.putMx m).grids = s.grids := rfl
@[simp] theorem State.putMx_barriers (s : State) (m : MxCore) : (s.putMx m).barriers = s.barriers := rfl
@[simp] theorem State.putMx_forwards (s : State) (m : MxCore) : (s.putMx m).forwards = s.forwards := rfl
@[simp] theorem State.putMx_owners (s : State) (m : MxCore) : (s.putMx m).owners = s.owners := rfl
@[simp] theorem State.putMx_saved (s : State) (m : MxCore) : (s.putMx m).saved = s.saved := rfl
@[simp] theorem State.putMx_parts (s : State) (m : MxCore) : (s.putMx m).parts = s.parts := rfl
@[simp] theorem State.putMx_links (s : State) (m : MxCore) : (s.putMx m).links = s.links := rfl
@[simp] theorem State.putMx_hdmTgt (s : State) (m : MxCore) : (s.putMx m).hdmTgt = s.hdmTgt := rfl
@[simp] theorem State.putMx_t2size (s : State) (m : MxCore) : (s.putMx m).t2size = s.t2size := rfl
@[simp] theorem State.putMx_pcie (s : State) (m : MxCore) : (s.putMx m).pcie = s.pcie := rfl
@[simp] theorem State.putMx_mgmt (s : State) (m : MxCore) : (s.putMx m).mgmt = s.mgmt := rfl
@[simp] theorem State.putMx_host (s : State) (m : MxCore) : (s.putMx m).host = s.host := rfl

/-! `State.putLink` -/

@[simp] theorem State.putLink_agenda (s : State) (l : Link) : (s.putLink l).agenda = s.agenda := rfl
@[simp] theorem State.putLink_focus (s : State) (l : Link) : (s.putLink l).focus = s.focus := rfl
@[simp] theorem State.putLink_cur (s : State) (l : Link) : (s.putLink l).cur = s.cur := rfl
@[simp] theorem State.putLink_free (s : State) (l : Link) : (s.putLink l).free = s.free := rfl
@[simp] theorem State.putLink_nextKey (s : State) (l : Link) : (s.putLink l).nextKey = s.nextKey := rfl
@[simp] theorem State.putLink_mem (s : State) (l : Link) : (s.putLink l).mem = s.mem := rfl
@[simp] theorem State.putLink_poison (s : State) (l : Link) : (s.putLink l).poison = s.poison := rfl
@[simp] theorem State.putLink_lines (s : State) (l : Link) : (s.putLink l).lines = s.lines := rfl
@[simp] theorem State.putLink_llc (s : State) (l : Link) : (s.putLink l).llc = s.llc := rfl
@[simp] theorem State.putLink_wc (s : State) (l : Link) : (s.putLink l).wc = s.wc := rfl
@[simp] theorem State.putLink_pins (s : State) (l : Link) : (s.putLink l).pins = s.pins := rfl
@[simp] theorem State.putLink_l1tlb (s : State) (l : Link) : (s.putLink l).l1tlb = s.l1tlb := rfl
@[simp] theorem State.putLink_l2tlb (s : State) (l : Link) : (s.putLink l).l2tlb = s.l2tlb := rfl
@[simp] theorem State.putLink_l3tlb (s : State) (l : Link) : (s.putLink l).l3tlb = s.l3tlb := rfl
@[simp] theorem State.putLink_recs (s : State) (l : Link) : (s.putLink l).recs = s.recs := rfl
@[simp] theorem State.putLink_quads (s : State) (l : Link) : (s.putLink l).quads = s.quads := rfl
@[simp] theorem State.putLink_flights (s : State) (l : Link) : (s.putLink l).flights = s.flights := rfl
@[simp] theorem State.putLink_memOps (s : State) (l : Link) : (s.putLink l).memOps = s.memOps := rfl
@[simp] theorem State.putLink_vfu (s : State) (l : Link) : (s.putLink l).vfu = s.vfu := rfl
@[simp] theorem State.putLink_sysOps (s : State) (l : Link) : (s.putLink l).sysOps = s.sysOps := rfl
@[simp] theorem State.putLink_copies (s : State) (l : Link) : (s.putLink l).copies = s.copies := rfl
@[simp] theorem State.putLink_engines (s : State) (l : Link) : (s.putLink l).engines = s.engines := rfl
@[simp] theorem State.putLink_mxq (s : State) (l : Link) : (s.putLink l).mxq = s.mxq := rfl
@[simp] theorem State.putLink_mx (s : State) (l : Link) : (s.putLink l).mx = s.mx := rfl
@[simp] theorem State.putLink_teams (s : State) (l : Link) : (s.putLink l).teams = s.teams := rfl
@[simp] theorem State.putLink_residue (s : State) (l : Link) : (s.putLink l).residue = s.residue := rfl
@[simp] theorem State.putLink_grids (s : State) (l : Link) : (s.putLink l).grids = s.grids := rfl
@[simp] theorem State.putLink_barriers (s : State) (l : Link) : (s.putLink l).barriers = s.barriers := rfl
@[simp] theorem State.putLink_forwards (s : State) (l : Link) : (s.putLink l).forwards = s.forwards := rfl
@[simp] theorem State.putLink_owners (s : State) (l : Link) : (s.putLink l).owners = s.owners := rfl
@[simp] theorem State.putLink_saved (s : State) (l : Link) : (s.putLink l).saved = s.saved := rfl
@[simp] theorem State.putLink_parts (s : State) (l : Link) : (s.putLink l).parts = s.parts := rfl
@[simp] theorem State.putLink_links (s : State) (l : Link) : (s.putLink l).links = kset Link.num l s.links := rfl
@[simp] theorem State.putLink_hdmTgt (s : State) (l : Link) : (s.putLink l).hdmTgt = s.hdmTgt := rfl
@[simp] theorem State.putLink_t2size (s : State) (l : Link) : (s.putLink l).t2size = s.t2size := rfl
@[simp] theorem State.putLink_pcie (s : State) (l : Link) : (s.putLink l).pcie = s.pcie := rfl
@[simp] theorem State.putLink_mgmt (s : State) (l : Link) : (s.putLink l).mgmt = s.mgmt := rfl
@[simp] theorem State.putLink_host (s : State) (l : Link) : (s.putLink l).host = s.host := rfl

/-! `State.putCopy` -/

@[simp] theorem State.putCopy_agenda (s : State) (c : Copy) : (s.putCopy c).agenda = s.agenda := rfl
@[simp] theorem State.putCopy_focus (s : State) (c : Copy) : (s.putCopy c).focus = s.focus := rfl
@[simp] theorem State.putCopy_cur (s : State) (c : Copy) : (s.putCopy c).cur = s.cur := rfl
@[simp] theorem State.putCopy_free (s : State) (c : Copy) : (s.putCopy c).free = s.free := rfl
@[simp] theorem State.putCopy_nextKey (s : State) (c : Copy) : (s.putCopy c).nextKey = s.nextKey := rfl
@[simp] theorem State.putCopy_mem (s : State) (c : Copy) : (s.putCopy c).mem = s.mem := rfl
@[simp] theorem State.putCopy_poison (s : State) (c : Copy) : (s.putCopy c).poison = s.poison := rfl
@[simp] theorem State.putCopy_lines (s : State) (c : Copy) : (s.putCopy c).lines = s.lines := rfl
@[simp] theorem State.putCopy_llc (s : State) (c : Copy) : (s.putCopy c).llc = s.llc := rfl
@[simp] theorem State.putCopy_wc (s : State) (c : Copy) : (s.putCopy c).wc = s.wc := rfl
@[simp] theorem State.putCopy_pins (s : State) (c : Copy) : (s.putCopy c).pins = s.pins := rfl
@[simp] theorem State.putCopy_l1tlb (s : State) (c : Copy) : (s.putCopy c).l1tlb = s.l1tlb := rfl
@[simp] theorem State.putCopy_l2tlb (s : State) (c : Copy) : (s.putCopy c).l2tlb = s.l2tlb := rfl
@[simp] theorem State.putCopy_l3tlb (s : State) (c : Copy) : (s.putCopy c).l3tlb = s.l3tlb := rfl
@[simp] theorem State.putCopy_recs (s : State) (c : Copy) : (s.putCopy c).recs = s.recs := rfl
@[simp] theorem State.putCopy_quads (s : State) (c : Copy) : (s.putCopy c).quads = s.quads := rfl
@[simp] theorem State.putCopy_flights (s : State) (c : Copy) : (s.putCopy c).flights = s.flights := rfl
@[simp] theorem State.putCopy_memOps (s : State) (c : Copy) : (s.putCopy c).memOps = s.memOps := rfl
@[simp] theorem State.putCopy_vfu (s : State) (c : Copy) : (s.putCopy c).vfu = s.vfu := rfl
@[simp] theorem State.putCopy_sysOps (s : State) (c : Copy) : (s.putCopy c).sysOps = s.sysOps := rfl
@[simp] theorem State.putCopy_copies (s : State) (c : Copy) : (s.putCopy c).copies = kset Copy.key c s.copies := rfl
@[simp] theorem State.putCopy_engines (s : State) (c : Copy) : (s.putCopy c).engines = s.engines := rfl
@[simp] theorem State.putCopy_mxq (s : State) (c : Copy) : (s.putCopy c).mxq = s.mxq := rfl
@[simp] theorem State.putCopy_mx (s : State) (c : Copy) : (s.putCopy c).mx = s.mx := rfl
@[simp] theorem State.putCopy_teams (s : State) (c : Copy) : (s.putCopy c).teams = s.teams := rfl
@[simp] theorem State.putCopy_residue (s : State) (c : Copy) : (s.putCopy c).residue = s.residue := rfl
@[simp] theorem State.putCopy_grids (s : State) (c : Copy) : (s.putCopy c).grids = s.grids := rfl
@[simp] theorem State.putCopy_barriers (s : State) (c : Copy) : (s.putCopy c).barriers = s.barriers := rfl
@[simp] theorem State.putCopy_forwards (s : State) (c : Copy) : (s.putCopy c).forwards = s.forwards := rfl
@[simp] theorem State.putCopy_owners (s : State) (c : Copy) : (s.putCopy c).owners = s.owners := rfl
@[simp] theorem State.putCopy_saved (s : State) (c : Copy) : (s.putCopy c).saved = s.saved := rfl
@[simp] theorem State.putCopy_parts (s : State) (c : Copy) : (s.putCopy c).parts = s.parts := rfl
@[simp] theorem State.putCopy_links (s : State) (c : Copy) : (s.putCopy c).links = s.links := rfl
@[simp] theorem State.putCopy_hdmTgt (s : State) (c : Copy) : (s.putCopy c).hdmTgt = s.hdmTgt := rfl
@[simp] theorem State.putCopy_t2size (s : State) (c : Copy) : (s.putCopy c).t2size = s.t2size := rfl
@[simp] theorem State.putCopy_pcie (s : State) (c : Copy) : (s.putCopy c).pcie = s.pcie := rfl
@[simp] theorem State.putCopy_mgmt (s : State) (c : Copy) : (s.putCopy c).mgmt = s.mgmt := rfl
@[simp] theorem State.putCopy_host (s : State) (c : Copy) : (s.putCopy c).host = s.host := rfl

/-! `State.putMxCmd` -/

@[simp] theorem State.putMxCmd_agenda (s : State) (c : MxCmd) : (s.putMxCmd c).agenda = s.agenda := rfl
@[simp] theorem State.putMxCmd_focus (s : State) (c : MxCmd) : (s.putMxCmd c).focus = s.focus := rfl
@[simp] theorem State.putMxCmd_cur (s : State) (c : MxCmd) : (s.putMxCmd c).cur = s.cur := rfl
@[simp] theorem State.putMxCmd_free (s : State) (c : MxCmd) : (s.putMxCmd c).free = s.free := rfl
@[simp] theorem State.putMxCmd_nextKey (s : State) (c : MxCmd) : (s.putMxCmd c).nextKey = s.nextKey := rfl
@[simp] theorem State.putMxCmd_mem (s : State) (c : MxCmd) : (s.putMxCmd c).mem = s.mem := rfl
@[simp] theorem State.putMxCmd_poison (s : State) (c : MxCmd) : (s.putMxCmd c).poison = s.poison := rfl
@[simp] theorem State.putMxCmd_lines (s : State) (c : MxCmd) : (s.putMxCmd c).lines = s.lines := rfl
@[simp] theorem State.putMxCmd_llc (s : State) (c : MxCmd) : (s.putMxCmd c).llc = s.llc := rfl
@[simp] theorem State.putMxCmd_wc (s : State) (c : MxCmd) : (s.putMxCmd c).wc = s.wc := rfl
@[simp] theorem State.putMxCmd_pins (s : State) (c : MxCmd) : (s.putMxCmd c).pins = s.pins := rfl
@[simp] theorem State.putMxCmd_l1tlb (s : State) (c : MxCmd) : (s.putMxCmd c).l1tlb = s.l1tlb := rfl
@[simp] theorem State.putMxCmd_l2tlb (s : State) (c : MxCmd) : (s.putMxCmd c).l2tlb = s.l2tlb := rfl
@[simp] theorem State.putMxCmd_l3tlb (s : State) (c : MxCmd) : (s.putMxCmd c).l3tlb = s.l3tlb := rfl
@[simp] theorem State.putMxCmd_recs (s : State) (c : MxCmd) : (s.putMxCmd c).recs = s.recs := rfl
@[simp] theorem State.putMxCmd_quads (s : State) (c : MxCmd) : (s.putMxCmd c).quads = s.quads := rfl
@[simp] theorem State.putMxCmd_flights (s : State) (c : MxCmd) : (s.putMxCmd c).flights = s.flights := rfl
@[simp] theorem State.putMxCmd_memOps (s : State) (c : MxCmd) : (s.putMxCmd c).memOps = s.memOps := rfl
@[simp] theorem State.putMxCmd_vfu (s : State) (c : MxCmd) : (s.putMxCmd c).vfu = s.vfu := rfl
@[simp] theorem State.putMxCmd_sysOps (s : State) (c : MxCmd) : (s.putMxCmd c).sysOps = s.sysOps := rfl
@[simp] theorem State.putMxCmd_copies (s : State) (c : MxCmd) : (s.putMxCmd c).copies = s.copies := rfl
@[simp] theorem State.putMxCmd_engines (s : State) (c : MxCmd) : (s.putMxCmd c).engines = s.engines := rfl
@[simp] theorem State.putMxCmd_mxq (s : State) (c : MxCmd) : (s.putMxCmd c).mxq = kset MxCmd.key c s.mxq := rfl
@[simp] theorem State.putMxCmd_mx (s : State) (c : MxCmd) : (s.putMxCmd c).mx = s.mx := rfl
@[simp] theorem State.putMxCmd_teams (s : State) (c : MxCmd) : (s.putMxCmd c).teams = s.teams := rfl
@[simp] theorem State.putMxCmd_residue (s : State) (c : MxCmd) : (s.putMxCmd c).residue = s.residue := rfl
@[simp] theorem State.putMxCmd_grids (s : State) (c : MxCmd) : (s.putMxCmd c).grids = s.grids := rfl
@[simp] theorem State.putMxCmd_barriers (s : State) (c : MxCmd) : (s.putMxCmd c).barriers = s.barriers := rfl
@[simp] theorem State.putMxCmd_forwards (s : State) (c : MxCmd) : (s.putMxCmd c).forwards = s.forwards := rfl
@[simp] theorem State.putMxCmd_owners (s : State) (c : MxCmd) : (s.putMxCmd c).owners = s.owners := rfl
@[simp] theorem State.putMxCmd_saved (s : State) (c : MxCmd) : (s.putMxCmd c).saved = s.saved := rfl
@[simp] theorem State.putMxCmd_parts (s : State) (c : MxCmd) : (s.putMxCmd c).parts = s.parts := rfl
@[simp] theorem State.putMxCmd_links (s : State) (c : MxCmd) : (s.putMxCmd c).links = s.links := rfl
@[simp] theorem State.putMxCmd_hdmTgt (s : State) (c : MxCmd) : (s.putMxCmd c).hdmTgt = s.hdmTgt := rfl
@[simp] theorem State.putMxCmd_t2size (s : State) (c : MxCmd) : (s.putMxCmd c).t2size = s.t2size := rfl
@[simp] theorem State.putMxCmd_pcie (s : State) (c : MxCmd) : (s.putMxCmd c).pcie = s.pcie := rfl
@[simp] theorem State.putMxCmd_mgmt (s : State) (c : MxCmd) : (s.putMxCmd c).mgmt = s.mgmt := rfl
@[simp] theorem State.putMxCmd_host (s : State) (c : MxCmd) : (s.putMxCmd c).host = s.host := rfl

/-! `State.modOwner` -/

@[simp] theorem State.modOwner_agenda (s : State) (vd : Nat) (g : Owner → Owner) : (s.modOwner vd g).agenda = s.agenda := rfl
@[simp] theorem State.modOwner_focus (s : State) (vd : Nat) (g : Owner → Owner) : (s.modOwner vd g).focus = s.focus := rfl
@[simp] theorem State.modOwner_cur (s : State) (vd : Nat) (g : Owner → Owner) : (s.modOwner vd g).cur = s.cur := rfl
@[simp] theorem State.modOwner_free (s : State) (vd : Nat) (g : Owner → Owner) : (s.modOwner vd g).free = s.free := rfl
@[simp] theorem State.modOwner_nextKey (s : State) (vd : Nat) (g : Owner → Owner) : (s.modOwner vd g).nextKey = s.nextKey :=
    rfl
@[simp] theorem State.modOwner_mem (s : State) (vd : Nat) (g : Owner → Owner) : (s.modOwner vd g).mem = s.mem := rfl
@[simp] theorem State.modOwner_poison (s : State) (vd : Nat) (g : Owner → Owner) : (s.modOwner vd g).poison = s.poison := rfl
@[simp] theorem State.modOwner_lines (s : State) (vd : Nat) (g : Owner → Owner) : (s.modOwner vd g).lines = s.lines := rfl
@[simp] theorem State.modOwner_llc (s : State) (vd : Nat) (g : Owner → Owner) : (s.modOwner vd g).llc = s.llc := rfl
@[simp] theorem State.modOwner_wc (s : State) (vd : Nat) (g : Owner → Owner) : (s.modOwner vd g).wc = s.wc := rfl
@[simp] theorem State.modOwner_pins (s : State) (vd : Nat) (g : Owner → Owner) : (s.modOwner vd g).pins = s.pins := rfl
@[simp] theorem State.modOwner_l1tlb (s : State) (vd : Nat) (g : Owner → Owner) : (s.modOwner vd g).l1tlb = s.l1tlb := rfl
@[simp] theorem State.modOwner_l2tlb (s : State) (vd : Nat) (g : Owner → Owner) : (s.modOwner vd g).l2tlb = s.l2tlb := rfl
@[simp] theorem State.modOwner_l3tlb (s : State) (vd : Nat) (g : Owner → Owner) : (s.modOwner vd g).l3tlb = s.l3tlb := rfl
@[simp] theorem State.modOwner_recs (s : State) (vd : Nat) (g : Owner → Owner) : (s.modOwner vd g).recs = s.recs := rfl
@[simp] theorem State.modOwner_quads (s : State) (vd : Nat) (g : Owner → Owner) : (s.modOwner vd g).quads = s.quads := rfl
@[simp] theorem State.modOwner_flights (s : State) (vd : Nat) (g : Owner → Owner) : (s.modOwner vd g).flights = s.flights :=
    rfl
@[simp] theorem State.modOwner_memOps (s : State) (vd : Nat) (g : Owner → Owner) : (s.modOwner vd g).memOps = s.memOps := rfl
@[simp] theorem State.modOwner_vfu (s : State) (vd : Nat) (g : Owner → Owner) : (s.modOwner vd g).vfu = s.vfu := rfl
@[simp] theorem State.modOwner_sysOps (s : State) (vd : Nat) (g : Owner → Owner) : (s.modOwner vd g).sysOps = s.sysOps := rfl
@[simp] theorem State.modOwner_copies (s : State) (vd : Nat) (g : Owner → Owner) : (s.modOwner vd g).copies = s.copies := rfl
@[simp] theorem State.modOwner_engines (s : State) (vd : Nat) (g : Owner → Owner) : (s.modOwner vd g).engines = s.engines :=
    rfl
@[simp] theorem State.modOwner_mxq (s : State) (vd : Nat) (g : Owner → Owner) : (s.modOwner vd g).mxq = s.mxq := rfl
@[simp] theorem State.modOwner_mx (s : State) (vd : Nat) (g : Owner → Owner) : (s.modOwner vd g).mx = s.mx := rfl
@[simp] theorem State.modOwner_teams (s : State) (vd : Nat) (g : Owner → Owner) : (s.modOwner vd g).teams = s.teams := rfl
@[simp] theorem State.modOwner_residue (s : State) (vd : Nat) (g : Owner → Owner) : (s.modOwner vd g).residue = s.residue :=
    rfl
@[simp] theorem State.modOwner_grids (s : State) (vd : Nat) (g : Owner → Owner) : (s.modOwner vd g).grids = s.grids := rfl
@[simp] theorem State.modOwner_barriers (s : State) (vd : Nat) (g : Owner → Owner) : (s.modOwner vd g).barriers = s.barriers :=
    rfl
@[simp] theorem State.modOwner_forwards (s : State) (vd : Nat) (g : Owner → Owner) : (s.modOwner vd g).forwards = s.forwards :=
    rfl
@[simp] theorem State.modOwner_owners (s : State) (vd : Nat) (g : Owner → Owner) :
    (s.modOwner vd g).owners = kset Owner.vd (g (s.owner vd)) s.owners :=
    rfl
@[simp] theorem State.modOwner_saved (s : State) (vd : Nat) (g : Owner → Owner) : (s.modOwner vd g).saved = s.saved := rfl
@[simp] theorem State.modOwner_parts (s : State) (vd : Nat) (g : Owner → Owner) : (s.modOwner vd g).parts = s.parts := rfl
@[simp] theorem State.modOwner_links (s : State) (vd : Nat) (g : Owner → Owner) : (s.modOwner vd g).links = s.links := rfl
@[simp] theorem State.modOwner_hdmTgt (s : State) (vd : Nat) (g : Owner → Owner) : (s.modOwner vd g).hdmTgt = s.hdmTgt := rfl
@[simp] theorem State.modOwner_t2size (s : State) (vd : Nat) (g : Owner → Owner) : (s.modOwner vd g).t2size = s.t2size := rfl
@[simp] theorem State.modOwner_pcie (s : State) (vd : Nat) (g : Owner → Owner) : (s.modOwner vd g).pcie = s.pcie := rfl
@[simp] theorem State.modOwner_mgmt (s : State) (vd : Nat) (g : Owner → Owner) : (s.modOwner vd g).mgmt = s.mgmt := rfl
@[simp] theorem State.modOwner_host (s : State) (vd : Nat) (g : Owner → Owner) : (s.modOwner vd g).host = s.host := rfl

/-! `State.modPart` -/

@[simp] theorem State.modPart_agenda (s : State) (p : Nat) (g : Partition → Partition) : (s.modPart p g).agenda = s.agenda :=
    rfl
@[simp] theorem State.modPart_focus (s : State) (p : Nat) (g : Partition → Partition) : (s.modPart p g).focus = s.focus :=
    rfl
@[simp] theorem State.modPart_cur (s : State) (p : Nat) (g : Partition → Partition) : (s.modPart p g).cur = s.cur := rfl
@[simp] theorem State.modPart_free (s : State) (p : Nat) (g : Partition → Partition) : (s.modPart p g).free = s.free := rfl
@[simp] theorem State.modPart_nextKey (s : State) (p : Nat) (g : Partition → Partition) : (s.modPart p g).nextKey = s.nextKey :=
    rfl
@[simp] theorem State.modPart_mem (s : State) (p : Nat) (g : Partition → Partition) : (s.modPart p g).mem = s.mem := rfl
@[simp] theorem State.modPart_poison (s : State) (p : Nat) (g : Partition → Partition) : (s.modPart p g).poison = s.poison :=
    rfl
@[simp] theorem State.modPart_lines (s : State) (p : Nat) (g : Partition → Partition) : (s.modPart p g).lines = s.lines :=
    rfl
@[simp] theorem State.modPart_llc (s : State) (p : Nat) (g : Partition → Partition) : (s.modPart p g).llc = s.llc := rfl
@[simp] theorem State.modPart_wc (s : State) (p : Nat) (g : Partition → Partition) : (s.modPart p g).wc = s.wc := rfl
@[simp] theorem State.modPart_pins (s : State) (p : Nat) (g : Partition → Partition) : (s.modPart p g).pins = s.pins := rfl
@[simp] theorem State.modPart_l1tlb (s : State) (p : Nat) (g : Partition → Partition) : (s.modPart p g).l1tlb = s.l1tlb :=
    rfl
@[simp] theorem State.modPart_l2tlb (s : State) (p : Nat) (g : Partition → Partition) : (s.modPart p g).l2tlb = s.l2tlb :=
    rfl
@[simp] theorem State.modPart_l3tlb (s : State) (p : Nat) (g : Partition → Partition) : (s.modPart p g).l3tlb = s.l3tlb :=
    rfl
@[simp] theorem State.modPart_recs (s : State) (p : Nat) (g : Partition → Partition) : (s.modPart p g).recs = s.recs := rfl
@[simp] theorem State.modPart_quads (s : State) (p : Nat) (g : Partition → Partition) : (s.modPart p g).quads = s.quads :=
    rfl
@[simp] theorem State.modPart_flights (s : State) (p : Nat) (g : Partition → Partition) : (s.modPart p g).flights = s.flights :=
    rfl
@[simp] theorem State.modPart_memOps (s : State) (p : Nat) (g : Partition → Partition) : (s.modPart p g).memOps = s.memOps :=
    rfl
@[simp] theorem State.modPart_vfu (s : State) (p : Nat) (g : Partition → Partition) : (s.modPart p g).vfu = s.vfu := rfl
@[simp] theorem State.modPart_sysOps (s : State) (p : Nat) (g : Partition → Partition) : (s.modPart p g).sysOps = s.sysOps :=
    rfl
@[simp] theorem State.modPart_copies (s : State) (p : Nat) (g : Partition → Partition) : (s.modPart p g).copies = s.copies :=
    rfl
@[simp] theorem State.modPart_engines (s : State) (p : Nat) (g : Partition → Partition) : (s.modPart p g).engines = s.engines :=
    rfl
@[simp] theorem State.modPart_mxq (s : State) (p : Nat) (g : Partition → Partition) : (s.modPart p g).mxq = s.mxq := rfl
@[simp] theorem State.modPart_mx (s : State) (p : Nat) (g : Partition → Partition) : (s.modPart p g).mx = s.mx := rfl
@[simp] theorem State.modPart_teams (s : State) (p : Nat) (g : Partition → Partition) : (s.modPart p g).teams = s.teams :=
    rfl
@[simp] theorem State.modPart_residue (s : State) (p : Nat) (g : Partition → Partition) : (s.modPart p g).residue = s.residue :=
    rfl
@[simp] theorem State.modPart_grids (s : State) (p : Nat) (g : Partition → Partition) : (s.modPart p g).grids = s.grids :=
    rfl
@[simp] theorem State.modPart_barriers (s : State) (p : Nat) (g : Partition → Partition) :
    (s.modPart p g).barriers = s.barriers :=
    rfl
@[simp] theorem State.modPart_forwards (s : State) (p : Nat) (g : Partition → Partition) :
    (s.modPart p g).forwards = s.forwards :=
    rfl
@[simp] theorem State.modPart_owners (s : State) (p : Nat) (g : Partition → Partition) : (s.modPart p g).owners = s.owners :=
    rfl
@[simp] theorem State.modPart_saved (s : State) (p : Nat) (g : Partition → Partition) : (s.modPart p g).saved = s.saved :=
    rfl
@[simp] theorem State.modPart_parts (s : State) (p : Nat) (g : Partition → Partition) :
    (s.modPart p g).parts = kset Partition.num (g (s.part p)) s.parts :=
    rfl
@[simp] theorem State.modPart_links (s : State) (p : Nat) (g : Partition → Partition) : (s.modPart p g).links = s.links :=
    rfl
@[simp] theorem State.modPart_hdmTgt (s : State) (p : Nat) (g : Partition → Partition) : (s.modPart p g).hdmTgt = s.hdmTgt :=
    rfl
@[simp] theorem State.modPart_t2size (s : State) (p : Nat) (g : Partition → Partition) : (s.modPart p g).t2size = s.t2size :=
    rfl
@[simp] theorem State.modPart_pcie (s : State) (p : Nat) (g : Partition → Partition) : (s.modPart p g).pcie = s.pcie := rfl
@[simp] theorem State.modPart_mgmt (s : State) (p : Nat) (g : Partition → Partition) : (s.modPart p g).mgmt = s.mgmt := rfl
@[simp] theorem State.modPart_host (s : State) (p : Nat) (g : Partition → Partition) : (s.modPart p g).host = s.host := rfl

/-! `State.tell` -/

@[simp] theorem State.tell_agenda (s : State) (e : HostEvent) : (s.tell e).agenda = s.agenda := rfl
@[simp] theorem State.tell_focus (s : State) (e : HostEvent) : (s.tell e).focus = s.focus := rfl
@[simp] theorem State.tell_cur (s : State) (e : HostEvent) : (s.tell e).cur = s.cur := rfl
@[simp] theorem State.tell_free (s : State) (e : HostEvent) : (s.tell e).free = s.free := rfl
@[simp] theorem State.tell_nextKey (s : State) (e : HostEvent) : (s.tell e).nextKey = s.nextKey := rfl
@[simp] theorem State.tell_mem (s : State) (e : HostEvent) : (s.tell e).mem = s.mem := rfl
@[simp] theorem State.tell_poison (s : State) (e : HostEvent) : (s.tell e).poison = s.poison := rfl
@[simp] theorem State.tell_lines (s : State) (e : HostEvent) : (s.tell e).lines = s.lines := rfl
@[simp] theorem State.tell_llc (s : State) (e : HostEvent) : (s.tell e).llc = s.llc := rfl
@[simp] theorem State.tell_wc (s : State) (e : HostEvent) : (s.tell e).wc = s.wc := rfl
@[simp] theorem State.tell_pins (s : State) (e : HostEvent) : (s.tell e).pins = s.pins := rfl
@[simp] theorem State.tell_l1tlb (s : State) (e : HostEvent) : (s.tell e).l1tlb = s.l1tlb := rfl
@[simp] theorem State.tell_l2tlb (s : State) (e : HostEvent) : (s.tell e).l2tlb = s.l2tlb := rfl
@[simp] theorem State.tell_l3tlb (s : State) (e : HostEvent) : (s.tell e).l3tlb = s.l3tlb := rfl
@[simp] theorem State.tell_recs (s : State) (e : HostEvent) : (s.tell e).recs = s.recs := rfl
@[simp] theorem State.tell_quads (s : State) (e : HostEvent) : (s.tell e).quads = s.quads := rfl
@[simp] theorem State.tell_flights (s : State) (e : HostEvent) : (s.tell e).flights = s.flights := rfl
@[simp] theorem State.tell_memOps (s : State) (e : HostEvent) : (s.tell e).memOps = s.memOps := rfl
@[simp] theorem State.tell_vfu (s : State) (e : HostEvent) : (s.tell e).vfu = s.vfu := rfl
@[simp] theorem State.tell_sysOps (s : State) (e : HostEvent) : (s.tell e).sysOps = s.sysOps := rfl
@[simp] theorem State.tell_copies (s : State) (e : HostEvent) : (s.tell e).copies = s.copies := rfl
@[simp] theorem State.tell_engines (s : State) (e : HostEvent) : (s.tell e).engines = s.engines := rfl
@[simp] theorem State.tell_mxq (s : State) (e : HostEvent) : (s.tell e).mxq = s.mxq := rfl
@[simp] theorem State.tell_mx (s : State) (e : HostEvent) : (s.tell e).mx = s.mx := rfl
@[simp] theorem State.tell_teams (s : State) (e : HostEvent) : (s.tell e).teams = s.teams := rfl
@[simp] theorem State.tell_residue (s : State) (e : HostEvent) : (s.tell e).residue = s.residue := rfl
@[simp] theorem State.tell_grids (s : State) (e : HostEvent) : (s.tell e).grids = s.grids := rfl
@[simp] theorem State.tell_barriers (s : State) (e : HostEvent) : (s.tell e).barriers = s.barriers := rfl
@[simp] theorem State.tell_forwards (s : State) (e : HostEvent) : (s.tell e).forwards = s.forwards := rfl
@[simp] theorem State.tell_owners (s : State) (e : HostEvent) : (s.tell e).owners = s.owners := rfl
@[simp] theorem State.tell_saved (s : State) (e : HostEvent) : (s.tell e).saved = s.saved := rfl
@[simp] theorem State.tell_parts (s : State) (e : HostEvent) : (s.tell e).parts = s.parts := rfl
@[simp] theorem State.tell_links (s : State) (e : HostEvent) : (s.tell e).links = s.links := rfl
@[simp] theorem State.tell_hdmTgt (s : State) (e : HostEvent) : (s.tell e).hdmTgt = s.hdmTgt := rfl
@[simp] theorem State.tell_t2size (s : State) (e : HostEvent) : (s.tell e).t2size = s.t2size := rfl
@[simp] theorem State.tell_pcie (s : State) (e : HostEvent) : (s.tell e).pcie = s.pcie := rfl
@[simp] theorem State.tell_mgmt (s : State) (e : HostEvent) : (s.tell e).mgmt = s.mgmt := rfl
@[simp] theorem State.tell_host (s : State) (e : HostEvent) : (s.tell e).host = s.host ++ [e] := rfl

/-! `State.freshKey` -/

@[simp] theorem State.freshKey_agenda (s : State) : (s.freshKey).agenda = s.agenda := rfl
@[simp] theorem State.freshKey_focus (s : State) : (s.freshKey).focus = s.focus := rfl
@[simp] theorem State.freshKey_cur (s : State) : (s.freshKey).cur = s.cur := rfl
@[simp] theorem State.freshKey_free (s : State) : (s.freshKey).free = s.free := rfl
@[simp] theorem State.freshKey_nextKey (s : State) : (s.freshKey).nextKey = s.nextKey + 1 := rfl
@[simp] theorem State.freshKey_mem (s : State) : (s.freshKey).mem = s.mem := rfl
@[simp] theorem State.freshKey_poison (s : State) : (s.freshKey).poison = s.poison := rfl
@[simp] theorem State.freshKey_lines (s : State) : (s.freshKey).lines = s.lines := rfl
@[simp] theorem State.freshKey_llc (s : State) : (s.freshKey).llc = s.llc := rfl
@[simp] theorem State.freshKey_wc (s : State) : (s.freshKey).wc = s.wc := rfl
@[simp] theorem State.freshKey_pins (s : State) : (s.freshKey).pins = s.pins := rfl
@[simp] theorem State.freshKey_l1tlb (s : State) : (s.freshKey).l1tlb = s.l1tlb := rfl
@[simp] theorem State.freshKey_l2tlb (s : State) : (s.freshKey).l2tlb = s.l2tlb := rfl
@[simp] theorem State.freshKey_l3tlb (s : State) : (s.freshKey).l3tlb = s.l3tlb := rfl
@[simp] theorem State.freshKey_recs (s : State) : (s.freshKey).recs = s.recs := rfl
@[simp] theorem State.freshKey_quads (s : State) : (s.freshKey).quads = s.quads := rfl
@[simp] theorem State.freshKey_flights (s : State) : (s.freshKey).flights = s.flights := rfl
@[simp] theorem State.freshKey_memOps (s : State) : (s.freshKey).memOps = s.memOps := rfl
@[simp] theorem State.freshKey_vfu (s : State) : (s.freshKey).vfu = s.vfu := rfl
@[simp] theorem State.freshKey_sysOps (s : State) : (s.freshKey).sysOps = s.sysOps := rfl
@[simp] theorem State.freshKey_copies (s : State) : (s.freshKey).copies = s.copies := rfl
@[simp] theorem State.freshKey_engines (s : State) : (s.freshKey).engines = s.engines := rfl
@[simp] theorem State.freshKey_mxq (s : State) : (s.freshKey).mxq = s.mxq := rfl
@[simp] theorem State.freshKey_mx (s : State) : (s.freshKey).mx = s.mx := rfl
@[simp] theorem State.freshKey_teams (s : State) : (s.freshKey).teams = s.teams := rfl
@[simp] theorem State.freshKey_residue (s : State) : (s.freshKey).residue = s.residue := rfl
@[simp] theorem State.freshKey_grids (s : State) : (s.freshKey).grids = s.grids := rfl
@[simp] theorem State.freshKey_barriers (s : State) : (s.freshKey).barriers = s.barriers := rfl
@[simp] theorem State.freshKey_forwards (s : State) : (s.freshKey).forwards = s.forwards := rfl
@[simp] theorem State.freshKey_owners (s : State) : (s.freshKey).owners = s.owners := rfl
@[simp] theorem State.freshKey_saved (s : State) : (s.freshKey).saved = s.saved := rfl
@[simp] theorem State.freshKey_parts (s : State) : (s.freshKey).parts = s.parts := rfl
@[simp] theorem State.freshKey_links (s : State) : (s.freshKey).links = s.links := rfl
@[simp] theorem State.freshKey_hdmTgt (s : State) : (s.freshKey).hdmTgt = s.hdmTgt := rfl
@[simp] theorem State.freshKey_t2size (s : State) : (s.freshKey).t2size = s.t2size := rfl
@[simp] theorem State.freshKey_pcie (s : State) : (s.freshKey).pcie = s.pcie := rfl
@[simp] theorem State.freshKey_mgmt (s : State) : (s.freshKey).mgmt = s.mgmt := rfl
@[simp] theorem State.freshKey_host (s : State) : (s.freshKey).host = s.host := rfl

/-! `State.drawn` -/

@[simp] theorem State.drawn_agenda (s : State) : (s.drawn).agenda = s.agenda := rfl
@[simp] theorem State.drawn_focus (s : State) : (s.drawn).focus = s.focus := rfl
@[simp] theorem State.drawn_cur (s : State) : (s.drawn).cur = s.cur := rfl
@[simp] theorem State.drawn_free (s : State) : (s.drawn).free = s.free + 1 := rfl
@[simp] theorem State.drawn_nextKey (s : State) : (s.drawn).nextKey = s.nextKey := rfl
@[simp] theorem State.drawn_mem (s : State) : (s.drawn).mem = s.mem := rfl
@[simp] theorem State.drawn_poison (s : State) : (s.drawn).poison = s.poison := rfl
@[simp] theorem State.drawn_lines (s : State) : (s.drawn).lines = s.lines := rfl
@[simp] theorem State.drawn_llc (s : State) : (s.drawn).llc = s.llc := rfl
@[simp] theorem State.drawn_wc (s : State) : (s.drawn).wc = s.wc := rfl
@[simp] theorem State.drawn_pins (s : State) : (s.drawn).pins = s.pins := rfl
@[simp] theorem State.drawn_l1tlb (s : State) : (s.drawn).l1tlb = s.l1tlb := rfl
@[simp] theorem State.drawn_l2tlb (s : State) : (s.drawn).l2tlb = s.l2tlb := rfl
@[simp] theorem State.drawn_l3tlb (s : State) : (s.drawn).l3tlb = s.l3tlb := rfl
@[simp] theorem State.drawn_recs (s : State) : (s.drawn).recs = s.recs := rfl
@[simp] theorem State.drawn_quads (s : State) : (s.drawn).quads = s.quads := rfl
@[simp] theorem State.drawn_flights (s : State) : (s.drawn).flights = s.flights := rfl
@[simp] theorem State.drawn_memOps (s : State) : (s.drawn).memOps = s.memOps := rfl
@[simp] theorem State.drawn_vfu (s : State) : (s.drawn).vfu = s.vfu := rfl
@[simp] theorem State.drawn_sysOps (s : State) : (s.drawn).sysOps = s.sysOps := rfl
@[simp] theorem State.drawn_copies (s : State) : (s.drawn).copies = s.copies := rfl
@[simp] theorem State.drawn_engines (s : State) : (s.drawn).engines = s.engines := rfl
@[simp] theorem State.drawn_mxq (s : State) : (s.drawn).mxq = s.mxq := rfl
@[simp] theorem State.drawn_mx (s : State) : (s.drawn).mx = s.mx := rfl
@[simp] theorem State.drawn_teams (s : State) : (s.drawn).teams = s.teams := rfl
@[simp] theorem State.drawn_residue (s : State) : (s.drawn).residue = s.residue := rfl
@[simp] theorem State.drawn_grids (s : State) : (s.drawn).grids = s.grids := rfl
@[simp] theorem State.drawn_barriers (s : State) : (s.drawn).barriers = s.barriers := rfl
@[simp] theorem State.drawn_forwards (s : State) : (s.drawn).forwards = s.forwards := rfl
@[simp] theorem State.drawn_owners (s : State) : (s.drawn).owners = s.owners := rfl
@[simp] theorem State.drawn_saved (s : State) : (s.drawn).saved = s.saved := rfl
@[simp] theorem State.drawn_parts (s : State) : (s.drawn).parts = s.parts := rfl
@[simp] theorem State.drawn_links (s : State) : (s.drawn).links = s.links := rfl
@[simp] theorem State.drawn_hdmTgt (s : State) : (s.drawn).hdmTgt = s.hdmTgt := rfl
@[simp] theorem State.drawn_t2size (s : State) : (s.drawn).t2size = s.t2size := rfl
@[simp] theorem State.drawn_pcie (s : State) : (s.drawn).pcie = s.pcie := rfl
@[simp] theorem State.drawn_mgmt (s : State) : (s.drawn).mgmt = s.mgmt := rfl
@[simp] theorem State.drawn_host (s : State) : (s.drawn).host = s.host := rfl

/-! `State.haltAll` -/

@[simp] theorem State.haltAll_agenda (s : State) (p : Flight → Bool) : (s.haltAll p).agenda = s.agenda := rfl
@[simp] theorem State.haltAll_focus (s : State) (p : Flight → Bool) : (s.haltAll p).focus = s.focus := rfl
@[simp] theorem State.haltAll_cur (s : State) (p : Flight → Bool) : (s.haltAll p).cur = s.cur := rfl
@[simp] theorem State.haltAll_free (s : State) (p : Flight → Bool) : (s.haltAll p).free = s.free := rfl
@[simp] theorem State.haltAll_nextKey (s : State) (p : Flight → Bool) : (s.haltAll p).nextKey = s.nextKey := rfl
@[simp] theorem State.haltAll_mem (s : State) (p : Flight → Bool) : (s.haltAll p).mem = s.mem := rfl
@[simp] theorem State.haltAll_poison (s : State) (p : Flight → Bool) : (s.haltAll p).poison = s.poison := rfl
@[simp] theorem State.haltAll_lines (s : State) (p : Flight → Bool) : (s.haltAll p).lines = s.lines := rfl
@[simp] theorem State.haltAll_llc (s : State) (p : Flight → Bool) : (s.haltAll p).llc = s.llc := rfl
@[simp] theorem State.haltAll_wc (s : State) (p : Flight → Bool) : (s.haltAll p).wc = s.wc := rfl
@[simp] theorem State.haltAll_pins (s : State) (p : Flight → Bool) : (s.haltAll p).pins = s.pins := rfl
@[simp] theorem State.haltAll_l1tlb (s : State) (p : Flight → Bool) : (s.haltAll p).l1tlb = s.l1tlb := rfl
@[simp] theorem State.haltAll_l2tlb (s : State) (p : Flight → Bool) : (s.haltAll p).l2tlb = s.l2tlb := rfl
@[simp] theorem State.haltAll_l3tlb (s : State) (p : Flight → Bool) : (s.haltAll p).l3tlb = s.l3tlb := rfl
@[simp] theorem State.haltAll_recs (s : State) (p : Flight → Bool) : (s.haltAll p).recs = s.recs := rfl
@[simp] theorem State.haltAll_quads (s : State) (p : Flight → Bool) : (s.haltAll p).quads = s.quads := rfl
@[simp] theorem State.haltAll_flights (s : State) (p : Flight → Bool) :
    (s.haltAll p).flights = s.flights.map fun f => if p f && !f.ended then f.halt else f :=
    rfl
@[simp] theorem State.haltAll_memOps (s : State) (p : Flight → Bool) : (s.haltAll p).memOps = s.memOps := rfl
@[simp] theorem State.haltAll_vfu (s : State) (p : Flight → Bool) : (s.haltAll p).vfu = s.vfu := rfl
@[simp] theorem State.haltAll_sysOps (s : State) (p : Flight → Bool) : (s.haltAll p).sysOps = s.sysOps := rfl
@[simp] theorem State.haltAll_copies (s : State) (p : Flight → Bool) : (s.haltAll p).copies = s.copies := rfl
@[simp] theorem State.haltAll_engines (s : State) (p : Flight → Bool) : (s.haltAll p).engines = s.engines := rfl
@[simp] theorem State.haltAll_mxq (s : State) (p : Flight → Bool) : (s.haltAll p).mxq = s.mxq := rfl
@[simp] theorem State.haltAll_mx (s : State) (p : Flight → Bool) : (s.haltAll p).mx = s.mx := rfl
@[simp] theorem State.haltAll_teams (s : State) (p : Flight → Bool) : (s.haltAll p).teams = s.teams := rfl
@[simp] theorem State.haltAll_residue (s : State) (p : Flight → Bool) : (s.haltAll p).residue = s.residue := rfl
@[simp] theorem State.haltAll_grids (s : State) (p : Flight → Bool) : (s.haltAll p).grids = s.grids := rfl
@[simp] theorem State.haltAll_barriers (s : State) (p : Flight → Bool) : (s.haltAll p).barriers = s.barriers := rfl
@[simp] theorem State.haltAll_forwards (s : State) (p : Flight → Bool) : (s.haltAll p).forwards = s.forwards := rfl
@[simp] theorem State.haltAll_owners (s : State) (p : Flight → Bool) : (s.haltAll p).owners = s.owners := rfl
@[simp] theorem State.haltAll_saved (s : State) (p : Flight → Bool) : (s.haltAll p).saved = s.saved := rfl
@[simp] theorem State.haltAll_parts (s : State) (p : Flight → Bool) : (s.haltAll p).parts = s.parts := rfl
@[simp] theorem State.haltAll_links (s : State) (p : Flight → Bool) : (s.haltAll p).links = s.links := rfl
@[simp] theorem State.haltAll_hdmTgt (s : State) (p : Flight → Bool) : (s.haltAll p).hdmTgt = s.hdmTgt := rfl
@[simp] theorem State.haltAll_t2size (s : State) (p : Flight → Bool) : (s.haltAll p).t2size = s.t2size := rfl
@[simp] theorem State.haltAll_pcie (s : State) (p : Flight → Bool) : (s.haltAll p).pcie = s.pcie := rfl
@[simp] theorem State.haltAll_mgmt (s : State) (p : Flight → Bool) : (s.haltAll p).mgmt = s.mgmt := rfl
@[simp] theorem State.haltAll_host (s : State) (p : Flight → Bool) : (s.haltAll p).host = s.host := rfl

/-! `State.endYields` -/

@[simp] theorem State.endYields_agenda (s : State) (f : Flight) : (s.endYields f).agenda = s.agenda := rfl
@[simp] theorem State.endYields_focus (s : State) (f : Flight) : (s.endYields f).focus = s.focus := rfl
@[simp] theorem State.endYields_cur (s : State) (f : Flight) : (s.endYields f).cur = s.cur := rfl
@[simp] theorem State.endYields_free (s : State) (f : Flight) : (s.endYields f).free = s.free := rfl
@[simp] theorem State.endYields_nextKey (s : State) (f : Flight) : (s.endYields f).nextKey = s.nextKey := rfl
@[simp] theorem State.endYields_mem (s : State) (f : Flight) : (s.endYields f).mem = s.mem := rfl
@[simp] theorem State.endYields_poison (s : State) (f : Flight) : (s.endYields f).poison = s.poison := rfl
@[simp] theorem State.endYields_lines (s : State) (f : Flight) : (s.endYields f).lines = s.lines := rfl
@[simp] theorem State.endYields_llc (s : State) (f : Flight) : (s.endYields f).llc = s.llc := rfl
@[simp] theorem State.endYields_wc (s : State) (f : Flight) : (s.endYields f).wc = s.wc := rfl
@[simp] theorem State.endYields_pins (s : State) (f : Flight) : (s.endYields f).pins = s.pins := rfl
@[simp] theorem State.endYields_l1tlb (s : State) (f : Flight) : (s.endYields f).l1tlb = s.l1tlb := rfl
@[simp] theorem State.endYields_l2tlb (s : State) (f : Flight) : (s.endYields f).l2tlb = s.l2tlb := rfl
@[simp] theorem State.endYields_l3tlb (s : State) (f : Flight) : (s.endYields f).l3tlb = s.l3tlb := rfl
@[simp] theorem State.endYields_recs (s : State) (f : Flight) : (s.endYields f).recs = s.recs := rfl
@[simp] theorem State.endYields_quads (s : State) (f : Flight) : (s.endYields f).quads = s.quads := rfl
@[simp] theorem State.endYields_flights (s : State) (f : Flight) :
    (s.endYields f).flights = s.flights.map fun g => if g.quad = f.quad && g.key ≠ f.key then { g with yielding := none } else g :=
    rfl
@[simp] theorem State.endYields_memOps (s : State) (f : Flight) : (s.endYields f).memOps = s.memOps := rfl
@[simp] theorem State.endYields_vfu (s : State) (f : Flight) : (s.endYields f).vfu = s.vfu := rfl
@[simp] theorem State.endYields_sysOps (s : State) (f : Flight) : (s.endYields f).sysOps = s.sysOps := rfl
@[simp] theorem State.endYields_copies (s : State) (f : Flight) : (s.endYields f).copies = s.copies := rfl
@[simp] theorem State.endYields_engines (s : State) (f : Flight) : (s.endYields f).engines = s.engines := rfl
@[simp] theorem State.endYields_mxq (s : State) (f : Flight) : (s.endYields f).mxq = s.mxq := rfl
@[simp] theorem State.endYields_mx (s : State) (f : Flight) : (s.endYields f).mx = s.mx := rfl
@[simp] theorem State.endYields_teams (s : State) (f : Flight) : (s.endYields f).teams = s.teams := rfl
@[simp] theorem State.endYields_residue (s : State) (f : Flight) : (s.endYields f).residue = s.residue := rfl
@[simp] theorem State.endYields_grids (s : State) (f : Flight) : (s.endYields f).grids = s.grids := rfl
@[simp] theorem State.endYields_barriers (s : State) (f : Flight) : (s.endYields f).barriers = s.barriers := rfl
@[simp] theorem State.endYields_forwards (s : State) (f : Flight) : (s.endYields f).forwards = s.forwards := rfl
@[simp] theorem State.endYields_owners (s : State) (f : Flight) : (s.endYields f).owners = s.owners := rfl
@[simp] theorem State.endYields_saved (s : State) (f : Flight) : (s.endYields f).saved = s.saved := rfl
@[simp] theorem State.endYields_parts (s : State) (f : Flight) : (s.endYields f).parts = s.parts := rfl
@[simp] theorem State.endYields_links (s : State) (f : Flight) : (s.endYields f).links = s.links := rfl
@[simp] theorem State.endYields_hdmTgt (s : State) (f : Flight) : (s.endYields f).hdmTgt = s.hdmTgt := rfl
@[simp] theorem State.endYields_t2size (s : State) (f : Flight) : (s.endYields f).t2size = s.t2size := rfl
@[simp] theorem State.endYields_pcie (s : State) (f : Flight) : (s.endYields f).pcie = s.pcie := rfl
@[simp] theorem State.endYields_mgmt (s : State) (f : Flight) : (s.endYields f).mgmt = s.mgmt := rfl
@[simp] theorem State.endYields_host (s : State) (f : Flight) : (s.endYields f).host = s.host := rfl

/-! `State.progressed` -/

@[simp] theorem State.progressed_agenda (s : State) (vd : Nat) : (s.progressed vd).agenda = s.agenda :=
    by unfold State.progressed; split <;> rfl
@[simp] theorem State.progressed_focus (s : State) (vd : Nat) : (s.progressed vd).focus = s.focus :=
    by unfold State.progressed; split <;> rfl
@[simp] theorem State.progressed_cur (s : State) (vd : Nat) : (s.progressed vd).cur = s.cur :=
    by unfold State.progressed; split <;> rfl
@[simp] theorem State.progressed_free (s : State) (vd : Nat) : (s.progressed vd).free = s.free :=
    by unfold State.progressed; split <;> rfl
@[simp] theorem State.progressed_nextKey (s : State) (vd : Nat) : (s.progressed vd).nextKey = s.nextKey :=
    by unfold State.progressed; split <;> rfl
@[simp] theorem State.progressed_mem (s : State) (vd : Nat) : (s.progressed vd).mem = s.mem :=
    by unfold State.progressed; split <;> rfl
@[simp] theorem State.progressed_poison (s : State) (vd : Nat) : (s.progressed vd).poison = s.poison :=
    by unfold State.progressed; split <;> rfl
@[simp] theorem State.progressed_lines (s : State) (vd : Nat) : (s.progressed vd).lines = s.lines :=
    by unfold State.progressed; split <;> rfl
@[simp] theorem State.progressed_llc (s : State) (vd : Nat) : (s.progressed vd).llc = s.llc :=
    by unfold State.progressed; split <;> rfl
@[simp] theorem State.progressed_wc (s : State) (vd : Nat) : (s.progressed vd).wc = s.wc :=
    by unfold State.progressed; split <;> rfl
@[simp] theorem State.progressed_pins (s : State) (vd : Nat) : (s.progressed vd).pins = s.pins :=
    by unfold State.progressed; split <;> rfl
@[simp] theorem State.progressed_l1tlb (s : State) (vd : Nat) : (s.progressed vd).l1tlb = s.l1tlb :=
    by unfold State.progressed; split <;> rfl
@[simp] theorem State.progressed_l2tlb (s : State) (vd : Nat) : (s.progressed vd).l2tlb = s.l2tlb :=
    by unfold State.progressed; split <;> rfl
@[simp] theorem State.progressed_l3tlb (s : State) (vd : Nat) : (s.progressed vd).l3tlb = s.l3tlb :=
    by unfold State.progressed; split <;> rfl
@[simp] theorem State.progressed_recs (s : State) (vd : Nat) : (s.progressed vd).recs = s.recs :=
    by unfold State.progressed; split <;> rfl
@[simp] theorem State.progressed_quads (s : State) (vd : Nat) : (s.progressed vd).quads = s.quads :=
    by unfold State.progressed; split <;> rfl
@[simp] theorem State.progressed_flights (s : State) (vd : Nat) : (s.progressed vd).flights = s.flights :=
    by unfold State.progressed; split <;> rfl
@[simp] theorem State.progressed_memOps (s : State) (vd : Nat) : (s.progressed vd).memOps = s.memOps :=
    by unfold State.progressed; split <;> rfl
@[simp] theorem State.progressed_vfu (s : State) (vd : Nat) : (s.progressed vd).vfu = s.vfu :=
    by unfold State.progressed; split <;> rfl
@[simp] theorem State.progressed_sysOps (s : State) (vd : Nat) : (s.progressed vd).sysOps = s.sysOps :=
    by unfold State.progressed; split <;> rfl
@[simp] theorem State.progressed_copies (s : State) (vd : Nat) : (s.progressed vd).copies = s.copies :=
    by unfold State.progressed; split <;> rfl
@[simp] theorem State.progressed_engines (s : State) (vd : Nat) : (s.progressed vd).engines = s.engines :=
    by unfold State.progressed; split <;> rfl
@[simp] theorem State.progressed_mxq (s : State) (vd : Nat) : (s.progressed vd).mxq = s.mxq :=
    by unfold State.progressed; split <;> rfl
@[simp] theorem State.progressed_mx (s : State) (vd : Nat) : (s.progressed vd).mx = s.mx :=
    by unfold State.progressed; split <;> rfl
@[simp] theorem State.progressed_teams (s : State) (vd : Nat) : (s.progressed vd).teams = s.teams :=
    by unfold State.progressed; split <;> rfl
@[simp] theorem State.progressed_residue (s : State) (vd : Nat) : (s.progressed vd).residue = s.residue :=
    by unfold State.progressed; split <;> rfl
@[simp] theorem State.progressed_grids (s : State) (vd : Nat) : (s.progressed vd).grids = s.grids :=
    by unfold State.progressed; split <;> rfl
@[simp] theorem State.progressed_barriers (s : State) (vd : Nat) : (s.progressed vd).barriers = s.barriers :=
    by unfold State.progressed; split <;> rfl
@[simp] theorem State.progressed_forwards (s : State) (vd : Nat) : (s.progressed vd).forwards = s.forwards :=
    by unfold State.progressed; split <;> rfl
@[simp] theorem State.progressed_saved (s : State) (vd : Nat) : (s.progressed vd).saved = s.saved :=
    by unfold State.progressed; split <;> rfl
@[simp] theorem State.progressed_parts (s : State) (vd : Nat) : (s.progressed vd).parts = s.parts :=
    by unfold State.progressed; split <;> rfl
@[simp] theorem State.progressed_links (s : State) (vd : Nat) : (s.progressed vd).links = s.links :=
    by unfold State.progressed; split <;> rfl
@[simp] theorem State.progressed_hdmTgt (s : State) (vd : Nat) : (s.progressed vd).hdmTgt = s.hdmTgt :=
    by unfold State.progressed; split <;> rfl
@[simp] theorem State.progressed_t2size (s : State) (vd : Nat) : (s.progressed vd).t2size = s.t2size :=
    by unfold State.progressed; split <;> rfl
@[simp] theorem State.progressed_pcie (s : State) (vd : Nat) : (s.progressed vd).pcie = s.pcie :=
    by unfold State.progressed; split <;> rfl
@[simp] theorem State.progressed_mgmt (s : State) (vd : Nat) : (s.progressed vd).mgmt = s.mgmt :=
    by unfold State.progressed; split <;> rfl
@[simp] theorem State.progressed_host (s : State) (vd : Nat) : (s.progressed vd).host = s.host :=
    by unfold State.progressed; split <;> rfl

/-! `State.tookSlot` -/

@[simp] theorem State.tookSlot_agenda (s : State) (f : Flight) : (s.tookSlot f).agenda = s.agenda :=
    by unfold State.tookSlot; split <;> simp
@[simp] theorem State.tookSlot_focus (s : State) (f : Flight) : (s.tookSlot f).focus = s.focus :=
    by unfold State.tookSlot; split <;> simp
@[simp] theorem State.tookSlot_cur (s : State) (f : Flight) : (s.tookSlot f).cur = s.cur :=
    by unfold State.tookSlot; split <;> simp
@[simp] theorem State.tookSlot_free (s : State) (f : Flight) : (s.tookSlot f).free = s.free :=
    by unfold State.tookSlot; split <;> simp
@[simp] theorem State.tookSlot_nextKey (s : State) (f : Flight) : (s.tookSlot f).nextKey = s.nextKey :=
    by unfold State.tookSlot; split <;> simp
@[simp] theorem State.tookSlot_mem (s : State) (f : Flight) : (s.tookSlot f).mem = s.mem :=
    by unfold State.tookSlot; split <;> simp
@[simp] theorem State.tookSlot_poison (s : State) (f : Flight) : (s.tookSlot f).poison = s.poison :=
    by unfold State.tookSlot; split <;> simp
@[simp] theorem State.tookSlot_lines (s : State) (f : Flight) : (s.tookSlot f).lines = s.lines :=
    by unfold State.tookSlot; split <;> simp
@[simp] theorem State.tookSlot_llc (s : State) (f : Flight) : (s.tookSlot f).llc = s.llc :=
    by unfold State.tookSlot; split <;> simp
@[simp] theorem State.tookSlot_wc (s : State) (f : Flight) : (s.tookSlot f).wc = s.wc :=
    by unfold State.tookSlot; split <;> simp
@[simp] theorem State.tookSlot_pins (s : State) (f : Flight) : (s.tookSlot f).pins = s.pins :=
    by unfold State.tookSlot; split <;> simp
@[simp] theorem State.tookSlot_l1tlb (s : State) (f : Flight) : (s.tookSlot f).l1tlb = s.l1tlb :=
    by unfold State.tookSlot; split <;> simp
@[simp] theorem State.tookSlot_l2tlb (s : State) (f : Flight) : (s.tookSlot f).l2tlb = s.l2tlb :=
    by unfold State.tookSlot; split <;> simp
@[simp] theorem State.tookSlot_l3tlb (s : State) (f : Flight) : (s.tookSlot f).l3tlb = s.l3tlb :=
    by unfold State.tookSlot; split <;> simp
@[simp] theorem State.tookSlot_recs (s : State) (f : Flight) : (s.tookSlot f).recs = s.recs :=
    by unfold State.tookSlot; split <;> simp
@[simp] theorem State.tookSlot_quads (s : State) (f : Flight) : (s.tookSlot f).quads = s.quads :=
    by unfold State.tookSlot; split <;> simp
@[simp] theorem State.tookSlot_memOps (s : State) (f : Flight) : (s.tookSlot f).memOps = s.memOps :=
    by unfold State.tookSlot; split <;> simp
@[simp] theorem State.tookSlot_vfu (s : State) (f : Flight) : (s.tookSlot f).vfu = s.vfu :=
    by unfold State.tookSlot; split <;> simp
@[simp] theorem State.tookSlot_sysOps (s : State) (f : Flight) : (s.tookSlot f).sysOps = s.sysOps :=
    by unfold State.tookSlot; split <;> simp
@[simp] theorem State.tookSlot_copies (s : State) (f : Flight) : (s.tookSlot f).copies = s.copies :=
    by unfold State.tookSlot; split <;> simp
@[simp] theorem State.tookSlot_engines (s : State) (f : Flight) : (s.tookSlot f).engines = s.engines :=
    by unfold State.tookSlot; split <;> simp
@[simp] theorem State.tookSlot_mxq (s : State) (f : Flight) : (s.tookSlot f).mxq = s.mxq :=
    by unfold State.tookSlot; split <;> simp
@[simp] theorem State.tookSlot_mx (s : State) (f : Flight) : (s.tookSlot f).mx = s.mx :=
    by unfold State.tookSlot; split <;> simp
@[simp] theorem State.tookSlot_teams (s : State) (f : Flight) : (s.tookSlot f).teams = s.teams :=
    by unfold State.tookSlot; split <;> simp
@[simp] theorem State.tookSlot_residue (s : State) (f : Flight) : (s.tookSlot f).residue = s.residue :=
    by unfold State.tookSlot; split <;> simp
@[simp] theorem State.tookSlot_grids (s : State) (f : Flight) : (s.tookSlot f).grids = s.grids :=
    by unfold State.tookSlot; split <;> simp
@[simp] theorem State.tookSlot_barriers (s : State) (f : Flight) : (s.tookSlot f).barriers = s.barriers :=
    by unfold State.tookSlot; split <;> simp
@[simp] theorem State.tookSlot_forwards (s : State) (f : Flight) : (s.tookSlot f).forwards = s.forwards :=
    by unfold State.tookSlot; split <;> simp
@[simp] theorem State.tookSlot_saved (s : State) (f : Flight) : (s.tookSlot f).saved = s.saved :=
    by unfold State.tookSlot; split <;> simp
@[simp] theorem State.tookSlot_parts (s : State) (f : Flight) : (s.tookSlot f).parts = s.parts :=
    by unfold State.tookSlot; split <;> simp
@[simp] theorem State.tookSlot_links (s : State) (f : Flight) : (s.tookSlot f).links = s.links :=
    by unfold State.tookSlot; split <;> simp
@[simp] theorem State.tookSlot_hdmTgt (s : State) (f : Flight) : (s.tookSlot f).hdmTgt = s.hdmTgt :=
    by unfold State.tookSlot; split <;> simp
@[simp] theorem State.tookSlot_t2size (s : State) (f : Flight) : (s.tookSlot f).t2size = s.t2size :=
    by unfold State.tookSlot; split <;> simp
@[simp] theorem State.tookSlot_pcie (s : State) (f : Flight) : (s.tookSlot f).pcie = s.pcie :=
    by unfold State.tookSlot; split <;> simp
@[simp] theorem State.tookSlot_mgmt (s : State) (f : Flight) : (s.tookSlot f).mgmt = s.mgmt :=
    by unfold State.tookSlot; split <;> simp
@[simp] theorem State.tookSlot_host (s : State) (f : Flight) : (s.tookSlot f).host = s.host :=
    by unfold State.tookSlot; split <;> simp

/-! `State.memPut` -/

@[simp] theorem State.memPut_agenda (s : State) (ws : List (Nat × Byte)) : (s.memPut ws).agenda = s.agenda := rfl
@[simp] theorem State.memPut_focus (s : State) (ws : List (Nat × Byte)) : (s.memPut ws).focus = s.focus := rfl
@[simp] theorem State.memPut_cur (s : State) (ws : List (Nat × Byte)) : (s.memPut ws).cur = s.cur := rfl
@[simp] theorem State.memPut_free (s : State) (ws : List (Nat × Byte)) : (s.memPut ws).free = s.free := rfl
@[simp] theorem State.memPut_nextKey (s : State) (ws : List (Nat × Byte)) : (s.memPut ws).nextKey = s.nextKey := rfl
@[simp] theorem State.memPut_mem (s : State) (ws : List (Nat × Byte)) :
    (s.memPut ws).mem = s.mem.puts (ws.filter fun w => s.mapped w.1) :=
    rfl
@[simp] theorem State.memPut_lines (s : State) (ws : List (Nat × Byte)) : (s.memPut ws).lines = s.lines := rfl
@[simp] theorem State.memPut_llc (s : State) (ws : List (Nat × Byte)) : (s.memPut ws).llc = s.llc := rfl
@[simp] theorem State.memPut_wc (s : State) (ws : List (Nat × Byte)) : (s.memPut ws).wc = s.wc := rfl
@[simp] theorem State.memPut_pins (s : State) (ws : List (Nat × Byte)) : (s.memPut ws).pins = s.pins := rfl
@[simp] theorem State.memPut_l1tlb (s : State) (ws : List (Nat × Byte)) : (s.memPut ws).l1tlb = s.l1tlb := rfl
@[simp] theorem State.memPut_l2tlb (s : State) (ws : List (Nat × Byte)) : (s.memPut ws).l2tlb = s.l2tlb := rfl
@[simp] theorem State.memPut_l3tlb (s : State) (ws : List (Nat × Byte)) : (s.memPut ws).l3tlb = s.l3tlb := rfl
@[simp] theorem State.memPut_recs (s : State) (ws : List (Nat × Byte)) : (s.memPut ws).recs = s.recs := rfl
@[simp] theorem State.memPut_quads (s : State) (ws : List (Nat × Byte)) : (s.memPut ws).quads = s.quads := rfl
@[simp] theorem State.memPut_flights (s : State) (ws : List (Nat × Byte)) : (s.memPut ws).flights = s.flights := rfl
@[simp] theorem State.memPut_memOps (s : State) (ws : List (Nat × Byte)) : (s.memPut ws).memOps = s.memOps := rfl
@[simp] theorem State.memPut_vfu (s : State) (ws : List (Nat × Byte)) : (s.memPut ws).vfu = s.vfu := rfl
@[simp] theorem State.memPut_sysOps (s : State) (ws : List (Nat × Byte)) : (s.memPut ws).sysOps = s.sysOps := rfl
@[simp] theorem State.memPut_copies (s : State) (ws : List (Nat × Byte)) : (s.memPut ws).copies = s.copies := rfl
@[simp] theorem State.memPut_engines (s : State) (ws : List (Nat × Byte)) : (s.memPut ws).engines = s.engines := rfl
@[simp] theorem State.memPut_mxq (s : State) (ws : List (Nat × Byte)) : (s.memPut ws).mxq = s.mxq := rfl
@[simp] theorem State.memPut_mx (s : State) (ws : List (Nat × Byte)) : (s.memPut ws).mx = s.mx := rfl
@[simp] theorem State.memPut_teams (s : State) (ws : List (Nat × Byte)) : (s.memPut ws).teams = s.teams := rfl
@[simp] theorem State.memPut_residue (s : State) (ws : List (Nat × Byte)) : (s.memPut ws).residue = s.residue := rfl
@[simp] theorem State.memPut_grids (s : State) (ws : List (Nat × Byte)) : (s.memPut ws).grids = s.grids := rfl
@[simp] theorem State.memPut_barriers (s : State) (ws : List (Nat × Byte)) : (s.memPut ws).barriers = s.barriers := rfl
@[simp] theorem State.memPut_forwards (s : State) (ws : List (Nat × Byte)) : (s.memPut ws).forwards = s.forwards := rfl
@[simp] theorem State.memPut_owners (s : State) (ws : List (Nat × Byte)) : (s.memPut ws).owners = s.owners := rfl
@[simp] theorem State.memPut_saved (s : State) (ws : List (Nat × Byte)) : (s.memPut ws).saved = s.saved := rfl
@[simp] theorem State.memPut_parts (s : State) (ws : List (Nat × Byte)) : (s.memPut ws).parts = s.parts := rfl
@[simp] theorem State.memPut_links (s : State) (ws : List (Nat × Byte)) : (s.memPut ws).links = s.links := rfl
@[simp] theorem State.memPut_hdmTgt (s : State) (ws : List (Nat × Byte)) : (s.memPut ws).hdmTgt = s.hdmTgt := rfl
@[simp] theorem State.memPut_t2size (s : State) (ws : List (Nat × Byte)) : (s.memPut ws).t2size = s.t2size := rfl
@[simp] theorem State.memPut_pcie (s : State) (ws : List (Nat × Byte)) : (s.memPut ws).pcie = s.pcie := rfl
@[simp] theorem State.memPut_mgmt (s : State) (ws : List (Nat × Byte)) : (s.memPut ws).mgmt = s.mgmt := rfl

/-! `State.modFlight` -/

@[simp] theorem State.modFlight_agenda (s : State) (k : Nat) (g : Flight → Flight) : (s.modFlight k g).agenda = s.agenda :=
    by unfold State.modFlight; split <;> rfl
@[simp] theorem State.modFlight_focus (s : State) (k : Nat) (g : Flight → Flight) : (s.modFlight k g).focus = s.focus :=
    by unfold State.modFlight; split <;> rfl
@[simp] theorem State.modFlight_cur (s : State) (k : Nat) (g : Flight → Flight) : (s.modFlight k g).cur = s.cur :=
    by unfold State.modFlight; split <;> rfl
@[simp] theorem State.modFlight_free (s : State) (k : Nat) (g : Flight → Flight) : (s.modFlight k g).free = s.free :=
    by unfold State.modFlight; split <;> rfl
@[simp] theorem State.modFlight_nextKey (s : State) (k : Nat) (g : Flight → Flight) : (s.modFlight k g).nextKey = s.nextKey :=
    by unfold State.modFlight; split <;> rfl
@[simp] theorem State.modFlight_mem (s : State) (k : Nat) (g : Flight → Flight) : (s.modFlight k g).mem = s.mem :=
    by unfold State.modFlight; split <;> rfl
@[simp] theorem State.modFlight_poison (s : State) (k : Nat) (g : Flight → Flight) : (s.modFlight k g).poison = s.poison :=
    by unfold State.modFlight; split <;> rfl
@[simp] theorem State.modFlight_lines (s : State) (k : Nat) (g : Flight → Flight) : (s.modFlight k g).lines = s.lines :=
    by unfold State.modFlight; split <;> rfl
@[simp] theorem State.modFlight_llc (s : State) (k : Nat) (g : Flight → Flight) : (s.modFlight k g).llc = s.llc :=
    by unfold State.modFlight; split <;> rfl
@[simp] theorem State.modFlight_wc (s : State) (k : Nat) (g : Flight → Flight) : (s.modFlight k g).wc = s.wc :=
    by unfold State.modFlight; split <;> rfl
@[simp] theorem State.modFlight_pins (s : State) (k : Nat) (g : Flight → Flight) : (s.modFlight k g).pins = s.pins :=
    by unfold State.modFlight; split <;> rfl
@[simp] theorem State.modFlight_l1tlb (s : State) (k : Nat) (g : Flight → Flight) : (s.modFlight k g).l1tlb = s.l1tlb :=
    by unfold State.modFlight; split <;> rfl
@[simp] theorem State.modFlight_l2tlb (s : State) (k : Nat) (g : Flight → Flight) : (s.modFlight k g).l2tlb = s.l2tlb :=
    by unfold State.modFlight; split <;> rfl
@[simp] theorem State.modFlight_l3tlb (s : State) (k : Nat) (g : Flight → Flight) : (s.modFlight k g).l3tlb = s.l3tlb :=
    by unfold State.modFlight; split <;> rfl
@[simp] theorem State.modFlight_recs (s : State) (k : Nat) (g : Flight → Flight) : (s.modFlight k g).recs = s.recs :=
    by unfold State.modFlight; split <;> rfl
@[simp] theorem State.modFlight_quads (s : State) (k : Nat) (g : Flight → Flight) : (s.modFlight k g).quads = s.quads :=
    by unfold State.modFlight; split <;> rfl
@[simp] theorem State.modFlight_memOps (s : State) (k : Nat) (g : Flight → Flight) : (s.modFlight k g).memOps = s.memOps :=
    by unfold State.modFlight; split <;> rfl
@[simp] theorem State.modFlight_vfu (s : State) (k : Nat) (g : Flight → Flight) : (s.modFlight k g).vfu = s.vfu :=
    by unfold State.modFlight; split <;> rfl
@[simp] theorem State.modFlight_sysOps (s : State) (k : Nat) (g : Flight → Flight) : (s.modFlight k g).sysOps = s.sysOps :=
    by unfold State.modFlight; split <;> rfl
@[simp] theorem State.modFlight_copies (s : State) (k : Nat) (g : Flight → Flight) : (s.modFlight k g).copies = s.copies :=
    by unfold State.modFlight; split <;> rfl
@[simp] theorem State.modFlight_engines (s : State) (k : Nat) (g : Flight → Flight) : (s.modFlight k g).engines = s.engines :=
    by unfold State.modFlight; split <;> rfl
@[simp] theorem State.modFlight_mxq (s : State) (k : Nat) (g : Flight → Flight) : (s.modFlight k g).mxq = s.mxq :=
    by unfold State.modFlight; split <;> rfl
@[simp] theorem State.modFlight_mx (s : State) (k : Nat) (g : Flight → Flight) : (s.modFlight k g).mx = s.mx :=
    by unfold State.modFlight; split <;> rfl
@[simp] theorem State.modFlight_teams (s : State) (k : Nat) (g : Flight → Flight) : (s.modFlight k g).teams = s.teams :=
    by unfold State.modFlight; split <;> rfl
@[simp] theorem State.modFlight_residue (s : State) (k : Nat) (g : Flight → Flight) : (s.modFlight k g).residue = s.residue :=
    by unfold State.modFlight; split <;> rfl
@[simp] theorem State.modFlight_grids (s : State) (k : Nat) (g : Flight → Flight) : (s.modFlight k g).grids = s.grids :=
    by unfold State.modFlight; split <;> rfl
@[simp] theorem State.modFlight_barriers (s : State) (k : Nat) (g : Flight → Flight) :
    (s.modFlight k g).barriers = s.barriers :=
    by unfold State.modFlight; split <;> rfl
@[simp] theorem State.modFlight_forwards (s : State) (k : Nat) (g : Flight → Flight) :
    (s.modFlight k g).forwards = s.forwards :=
    by unfold State.modFlight; split <;> rfl
@[simp] theorem State.modFlight_owners (s : State) (k : Nat) (g : Flight → Flight) : (s.modFlight k g).owners = s.owners :=
    by unfold State.modFlight; split <;> rfl
@[simp] theorem State.modFlight_saved (s : State) (k : Nat) (g : Flight → Flight) : (s.modFlight k g).saved = s.saved :=
    by unfold State.modFlight; split <;> rfl
@[simp] theorem State.modFlight_parts (s : State) (k : Nat) (g : Flight → Flight) : (s.modFlight k g).parts = s.parts :=
    by unfold State.modFlight; split <;> rfl
@[simp] theorem State.modFlight_links (s : State) (k : Nat) (g : Flight → Flight) : (s.modFlight k g).links = s.links :=
    by unfold State.modFlight; split <;> rfl
@[simp] theorem State.modFlight_hdmTgt (s : State) (k : Nat) (g : Flight → Flight) : (s.modFlight k g).hdmTgt = s.hdmTgt :=
    by unfold State.modFlight; split <;> rfl
@[simp] theorem State.modFlight_t2size (s : State) (k : Nat) (g : Flight → Flight) : (s.modFlight k g).t2size = s.t2size :=
    by unfold State.modFlight; split <;> rfl
@[simp] theorem State.modFlight_pcie (s : State) (k : Nat) (g : Flight → Flight) : (s.modFlight k g).pcie = s.pcie :=
    by unfold State.modFlight; split <;> rfl
@[simp] theorem State.modFlight_mgmt (s : State) (k : Nat) (g : Flight → Flight) : (s.modFlight k g).mgmt = s.mgmt :=
    by unfold State.modFlight; split <;> rfl
@[simp] theorem State.modFlight_host (s : State) (k : Nat) (g : Flight → Flight) : (s.modFlight k g).host = s.host :=
    by unfold State.modFlight; split <;> rfl

/-! `State.modTeam` -/

@[simp] theorem State.modTeam_agenda (s : State) (k : Nat) (g : Team → Team) : (s.modTeam k g).agenda = s.agenda :=
    by unfold State.modTeam; split <;> rfl
@[simp] theorem State.modTeam_focus (s : State) (k : Nat) (g : Team → Team) : (s.modTeam k g).focus = s.focus :=
    by unfold State.modTeam; split <;> rfl
@[simp] theorem State.modTeam_cur (s : State) (k : Nat) (g : Team → Team) : (s.modTeam k g).cur = s.cur :=
    by unfold State.modTeam; split <;> rfl
@[simp] theorem State.modTeam_free (s : State) (k : Nat) (g : Team → Team) : (s.modTeam k g).free = s.free :=
    by unfold State.modTeam; split <;> rfl
@[simp] theorem State.modTeam_nextKey (s : State) (k : Nat) (g : Team → Team) : (s.modTeam k g).nextKey = s.nextKey :=
    by unfold State.modTeam; split <;> rfl
@[simp] theorem State.modTeam_mem (s : State) (k : Nat) (g : Team → Team) : (s.modTeam k g).mem = s.mem :=
    by unfold State.modTeam; split <;> rfl
@[simp] theorem State.modTeam_poison (s : State) (k : Nat) (g : Team → Team) : (s.modTeam k g).poison = s.poison :=
    by unfold State.modTeam; split <;> rfl
@[simp] theorem State.modTeam_lines (s : State) (k : Nat) (g : Team → Team) : (s.modTeam k g).lines = s.lines :=
    by unfold State.modTeam; split <;> rfl
@[simp] theorem State.modTeam_llc (s : State) (k : Nat) (g : Team → Team) : (s.modTeam k g).llc = s.llc :=
    by unfold State.modTeam; split <;> rfl
@[simp] theorem State.modTeam_wc (s : State) (k : Nat) (g : Team → Team) : (s.modTeam k g).wc = s.wc :=
    by unfold State.modTeam; split <;> rfl
@[simp] theorem State.modTeam_pins (s : State) (k : Nat) (g : Team → Team) : (s.modTeam k g).pins = s.pins :=
    by unfold State.modTeam; split <;> rfl
@[simp] theorem State.modTeam_l1tlb (s : State) (k : Nat) (g : Team → Team) : (s.modTeam k g).l1tlb = s.l1tlb :=
    by unfold State.modTeam; split <;> rfl
@[simp] theorem State.modTeam_l2tlb (s : State) (k : Nat) (g : Team → Team) : (s.modTeam k g).l2tlb = s.l2tlb :=
    by unfold State.modTeam; split <;> rfl
@[simp] theorem State.modTeam_l3tlb (s : State) (k : Nat) (g : Team → Team) : (s.modTeam k g).l3tlb = s.l3tlb :=
    by unfold State.modTeam; split <;> rfl
@[simp] theorem State.modTeam_recs (s : State) (k : Nat) (g : Team → Team) : (s.modTeam k g).recs = s.recs :=
    by unfold State.modTeam; split <;> rfl
@[simp] theorem State.modTeam_quads (s : State) (k : Nat) (g : Team → Team) : (s.modTeam k g).quads = s.quads :=
    by unfold State.modTeam; split <;> rfl
@[simp] theorem State.modTeam_flights (s : State) (k : Nat) (g : Team → Team) : (s.modTeam k g).flights = s.flights :=
    by unfold State.modTeam; split <;> rfl
@[simp] theorem State.modTeam_memOps (s : State) (k : Nat) (g : Team → Team) : (s.modTeam k g).memOps = s.memOps :=
    by unfold State.modTeam; split <;> rfl
@[simp] theorem State.modTeam_vfu (s : State) (k : Nat) (g : Team → Team) : (s.modTeam k g).vfu = s.vfu :=
    by unfold State.modTeam; split <;> rfl
@[simp] theorem State.modTeam_sysOps (s : State) (k : Nat) (g : Team → Team) : (s.modTeam k g).sysOps = s.sysOps :=
    by unfold State.modTeam; split <;> rfl
@[simp] theorem State.modTeam_copies (s : State) (k : Nat) (g : Team → Team) : (s.modTeam k g).copies = s.copies :=
    by unfold State.modTeam; split <;> rfl
@[simp] theorem State.modTeam_engines (s : State) (k : Nat) (g : Team → Team) : (s.modTeam k g).engines = s.engines :=
    by unfold State.modTeam; split <;> rfl
@[simp] theorem State.modTeam_mxq (s : State) (k : Nat) (g : Team → Team) : (s.modTeam k g).mxq = s.mxq :=
    by unfold State.modTeam; split <;> rfl
@[simp] theorem State.modTeam_mx (s : State) (k : Nat) (g : Team → Team) : (s.modTeam k g).mx = s.mx :=
    by unfold State.modTeam; split <;> rfl
@[simp] theorem State.modTeam_residue (s : State) (k : Nat) (g : Team → Team) : (s.modTeam k g).residue = s.residue :=
    by unfold State.modTeam; split <;> rfl
@[simp] theorem State.modTeam_grids (s : State) (k : Nat) (g : Team → Team) : (s.modTeam k g).grids = s.grids :=
    by unfold State.modTeam; split <;> rfl
@[simp] theorem State.modTeam_barriers (s : State) (k : Nat) (g : Team → Team) : (s.modTeam k g).barriers = s.barriers :=
    by unfold State.modTeam; split <;> rfl
@[simp] theorem State.modTeam_forwards (s : State) (k : Nat) (g : Team → Team) : (s.modTeam k g).forwards = s.forwards :=
    by unfold State.modTeam; split <;> rfl
@[simp] theorem State.modTeam_owners (s : State) (k : Nat) (g : Team → Team) : (s.modTeam k g).owners = s.owners :=
    by unfold State.modTeam; split <;> rfl
@[simp] theorem State.modTeam_saved (s : State) (k : Nat) (g : Team → Team) : (s.modTeam k g).saved = s.saved :=
    by unfold State.modTeam; split <;> rfl
@[simp] theorem State.modTeam_parts (s : State) (k : Nat) (g : Team → Team) : (s.modTeam k g).parts = s.parts :=
    by unfold State.modTeam; split <;> rfl
@[simp] theorem State.modTeam_links (s : State) (k : Nat) (g : Team → Team) : (s.modTeam k g).links = s.links :=
    by unfold State.modTeam; split <;> rfl
@[simp] theorem State.modTeam_hdmTgt (s : State) (k : Nat) (g : Team → Team) : (s.modTeam k g).hdmTgt = s.hdmTgt :=
    by unfold State.modTeam; split <;> rfl
@[simp] theorem State.modTeam_t2size (s : State) (k : Nat) (g : Team → Team) : (s.modTeam k g).t2size = s.t2size :=
    by unfold State.modTeam; split <;> rfl
@[simp] theorem State.modTeam_pcie (s : State) (k : Nat) (g : Team → Team) : (s.modTeam k g).pcie = s.pcie :=
    by unfold State.modTeam; split <;> rfl
@[simp] theorem State.modTeam_mgmt (s : State) (k : Nat) (g : Team → Team) : (s.modTeam k g).mgmt = s.mgmt :=
    by unfold State.modTeam; split <;> rfl
@[simp] theorem State.modTeam_host (s : State) (k : Nat) (g : Team → Team) : (s.modTeam k g).host = s.host :=
    by unfold State.modTeam; split <;> rfl

/-! `State.dropFlag` -/

@[simp] theorem State.dropFlag_agenda (s : State) (k : Nat) (n : Option Nat) : (s.dropFlag k n).agenda = s.agenda :=
    by unfold State.dropFlag; split <;> simp
@[simp] theorem State.dropFlag_focus (s : State) (k : Nat) (n : Option Nat) : (s.dropFlag k n).focus = s.focus :=
    by unfold State.dropFlag; split <;> simp
@[simp] theorem State.dropFlag_cur (s : State) (k : Nat) (n : Option Nat) : (s.dropFlag k n).cur = s.cur :=
    by unfold State.dropFlag; split <;> simp
@[simp] theorem State.dropFlag_free (s : State) (k : Nat) (n : Option Nat) : (s.dropFlag k n).free = s.free :=
    by unfold State.dropFlag; split <;> simp
@[simp] theorem State.dropFlag_nextKey (s : State) (k : Nat) (n : Option Nat) : (s.dropFlag k n).nextKey = s.nextKey :=
    by unfold State.dropFlag; split <;> simp
@[simp] theorem State.dropFlag_mem (s : State) (k : Nat) (n : Option Nat) : (s.dropFlag k n).mem = s.mem :=
    by unfold State.dropFlag; split <;> simp
@[simp] theorem State.dropFlag_poison (s : State) (k : Nat) (n : Option Nat) : (s.dropFlag k n).poison = s.poison :=
    by unfold State.dropFlag; split <;> simp
@[simp] theorem State.dropFlag_lines (s : State) (k : Nat) (n : Option Nat) : (s.dropFlag k n).lines = s.lines :=
    by unfold State.dropFlag; split <;> simp
@[simp] theorem State.dropFlag_llc (s : State) (k : Nat) (n : Option Nat) : (s.dropFlag k n).llc = s.llc :=
    by unfold State.dropFlag; split <;> simp
@[simp] theorem State.dropFlag_wc (s : State) (k : Nat) (n : Option Nat) : (s.dropFlag k n).wc = s.wc :=
    by unfold State.dropFlag; split <;> simp
@[simp] theorem State.dropFlag_pins (s : State) (k : Nat) (n : Option Nat) : (s.dropFlag k n).pins = s.pins :=
    by unfold State.dropFlag; split <;> simp
@[simp] theorem State.dropFlag_l1tlb (s : State) (k : Nat) (n : Option Nat) : (s.dropFlag k n).l1tlb = s.l1tlb :=
    by unfold State.dropFlag; split <;> simp
@[simp] theorem State.dropFlag_l2tlb (s : State) (k : Nat) (n : Option Nat) : (s.dropFlag k n).l2tlb = s.l2tlb :=
    by unfold State.dropFlag; split <;> simp
@[simp] theorem State.dropFlag_l3tlb (s : State) (k : Nat) (n : Option Nat) : (s.dropFlag k n).l3tlb = s.l3tlb :=
    by unfold State.dropFlag; split <;> simp
@[simp] theorem State.dropFlag_recs (s : State) (k : Nat) (n : Option Nat) : (s.dropFlag k n).recs = s.recs :=
    by unfold State.dropFlag; split <;> simp
@[simp] theorem State.dropFlag_quads (s : State) (k : Nat) (n : Option Nat) : (s.dropFlag k n).quads = s.quads :=
    by unfold State.dropFlag; split <;> simp
@[simp] theorem State.dropFlag_memOps (s : State) (k : Nat) (n : Option Nat) : (s.dropFlag k n).memOps = s.memOps :=
    by unfold State.dropFlag; split <;> simp
@[simp] theorem State.dropFlag_vfu (s : State) (k : Nat) (n : Option Nat) : (s.dropFlag k n).vfu = s.vfu :=
    by unfold State.dropFlag; split <;> simp
@[simp] theorem State.dropFlag_sysOps (s : State) (k : Nat) (n : Option Nat) : (s.dropFlag k n).sysOps = s.sysOps :=
    by unfold State.dropFlag; split <;> simp
@[simp] theorem State.dropFlag_copies (s : State) (k : Nat) (n : Option Nat) : (s.dropFlag k n).copies = s.copies :=
    by unfold State.dropFlag; split <;> simp
@[simp] theorem State.dropFlag_engines (s : State) (k : Nat) (n : Option Nat) : (s.dropFlag k n).engines = s.engines :=
    by unfold State.dropFlag; split <;> simp
@[simp] theorem State.dropFlag_mxq (s : State) (k : Nat) (n : Option Nat) : (s.dropFlag k n).mxq = s.mxq :=
    by unfold State.dropFlag; split <;> simp
@[simp] theorem State.dropFlag_mx (s : State) (k : Nat) (n : Option Nat) : (s.dropFlag k n).mx = s.mx :=
    by unfold State.dropFlag; split <;> simp
@[simp] theorem State.dropFlag_teams (s : State) (k : Nat) (n : Option Nat) : (s.dropFlag k n).teams = s.teams :=
    by unfold State.dropFlag; split <;> simp
@[simp] theorem State.dropFlag_residue (s : State) (k : Nat) (n : Option Nat) : (s.dropFlag k n).residue = s.residue :=
    by unfold State.dropFlag; split <;> simp
@[simp] theorem State.dropFlag_grids (s : State) (k : Nat) (n : Option Nat) : (s.dropFlag k n).grids = s.grids :=
    by unfold State.dropFlag; split <;> simp
@[simp] theorem State.dropFlag_barriers (s : State) (k : Nat) (n : Option Nat) : (s.dropFlag k n).barriers = s.barriers :=
    by unfold State.dropFlag; split <;> simp
@[simp] theorem State.dropFlag_forwards (s : State) (k : Nat) (n : Option Nat) : (s.dropFlag k n).forwards = s.forwards :=
    by unfold State.dropFlag; split <;> simp
@[simp] theorem State.dropFlag_owners (s : State) (k : Nat) (n : Option Nat) : (s.dropFlag k n).owners = s.owners :=
    by unfold State.dropFlag; split <;> simp
@[simp] theorem State.dropFlag_saved (s : State) (k : Nat) (n : Option Nat) : (s.dropFlag k n).saved = s.saved :=
    by unfold State.dropFlag; split <;> simp
@[simp] theorem State.dropFlag_parts (s : State) (k : Nat) (n : Option Nat) : (s.dropFlag k n).parts = s.parts :=
    by unfold State.dropFlag; split <;> simp
@[simp] theorem State.dropFlag_links (s : State) (k : Nat) (n : Option Nat) : (s.dropFlag k n).links = s.links :=
    by unfold State.dropFlag; split <;> simp
@[simp] theorem State.dropFlag_hdmTgt (s : State) (k : Nat) (n : Option Nat) : (s.dropFlag k n).hdmTgt = s.hdmTgt :=
    by unfold State.dropFlag; split <;> simp
@[simp] theorem State.dropFlag_t2size (s : State) (k : Nat) (n : Option Nat) : (s.dropFlag k n).t2size = s.t2size :=
    by unfold State.dropFlag; split <;> simp
@[simp] theorem State.dropFlag_pcie (s : State) (k : Nat) (n : Option Nat) : (s.dropFlag k n).pcie = s.pcie :=
    by unfold State.dropFlag; split <;> simp
@[simp] theorem State.dropFlag_mgmt (s : State) (k : Nat) (n : Option Nat) : (s.dropFlag k n).mgmt = s.mgmt :=
    by unfold State.dropFlag; split <;> simp
@[simp] theorem State.dropFlag_host (s : State) (k : Nat) (n : Option Nat) : (s.dropFlag k n).host = s.host :=
    by unfold State.dropFlag; split <;> simp

/-! `State.orFstat` -/

@[simp] theorem State.orFstat_agenda (s : State) (k : Nat) (b : BitVec 6) : (s.orFstat k b).agenda = s.agenda :=
    by simp [State.orFstat]
@[simp] theorem State.orFstat_focus (s : State) (k : Nat) (b : BitVec 6) : (s.orFstat k b).focus = s.focus :=
    by simp [State.orFstat]
@[simp] theorem State.orFstat_cur (s : State) (k : Nat) (b : BitVec 6) : (s.orFstat k b).cur = s.cur :=
    by simp [State.orFstat]
@[simp] theorem State.orFstat_free (s : State) (k : Nat) (b : BitVec 6) : (s.orFstat k b).free = s.free :=
    by simp [State.orFstat]
@[simp] theorem State.orFstat_nextKey (s : State) (k : Nat) (b : BitVec 6) : (s.orFstat k b).nextKey = s.nextKey :=
    by simp [State.orFstat]
@[simp] theorem State.orFstat_mem (s : State) (k : Nat) (b : BitVec 6) : (s.orFstat k b).mem = s.mem :=
    by simp [State.orFstat]
@[simp] theorem State.orFstat_poison (s : State) (k : Nat) (b : BitVec 6) : (s.orFstat k b).poison = s.poison :=
    by simp [State.orFstat]
@[simp] theorem State.orFstat_lines (s : State) (k : Nat) (b : BitVec 6) : (s.orFstat k b).lines = s.lines :=
    by simp [State.orFstat]
@[simp] theorem State.orFstat_llc (s : State) (k : Nat) (b : BitVec 6) : (s.orFstat k b).llc = s.llc :=
    by simp [State.orFstat]
@[simp] theorem State.orFstat_wc (s : State) (k : Nat) (b : BitVec 6) : (s.orFstat k b).wc = s.wc := by simp [State.orFstat]
@[simp] theorem State.orFstat_pins (s : State) (k : Nat) (b : BitVec 6) : (s.orFstat k b).pins = s.pins :=
    by simp [State.orFstat]
@[simp] theorem State.orFstat_l1tlb (s : State) (k : Nat) (b : BitVec 6) : (s.orFstat k b).l1tlb = s.l1tlb :=
    by simp [State.orFstat]
@[simp] theorem State.orFstat_l2tlb (s : State) (k : Nat) (b : BitVec 6) : (s.orFstat k b).l2tlb = s.l2tlb :=
    by simp [State.orFstat]
@[simp] theorem State.orFstat_l3tlb (s : State) (k : Nat) (b : BitVec 6) : (s.orFstat k b).l3tlb = s.l3tlb :=
    by simp [State.orFstat]
@[simp] theorem State.orFstat_recs (s : State) (k : Nat) (b : BitVec 6) : (s.orFstat k b).recs = s.recs :=
    by simp [State.orFstat]
@[simp] theorem State.orFstat_quads (s : State) (k : Nat) (b : BitVec 6) : (s.orFstat k b).quads = s.quads :=
    by simp [State.orFstat]
@[simp] theorem State.orFstat_memOps (s : State) (k : Nat) (b : BitVec 6) : (s.orFstat k b).memOps = s.memOps :=
    by simp [State.orFstat]
@[simp] theorem State.orFstat_vfu (s : State) (k : Nat) (b : BitVec 6) : (s.orFstat k b).vfu = s.vfu :=
    by simp [State.orFstat]
@[simp] theorem State.orFstat_sysOps (s : State) (k : Nat) (b : BitVec 6) : (s.orFstat k b).sysOps = s.sysOps :=
    by simp [State.orFstat]
@[simp] theorem State.orFstat_copies (s : State) (k : Nat) (b : BitVec 6) : (s.orFstat k b).copies = s.copies :=
    by simp [State.orFstat]
@[simp] theorem State.orFstat_engines (s : State) (k : Nat) (b : BitVec 6) : (s.orFstat k b).engines = s.engines :=
    by simp [State.orFstat]
@[simp] theorem State.orFstat_mxq (s : State) (k : Nat) (b : BitVec 6) : (s.orFstat k b).mxq = s.mxq :=
    by simp [State.orFstat]
@[simp] theorem State.orFstat_mx (s : State) (k : Nat) (b : BitVec 6) : (s.orFstat k b).mx = s.mx := by simp [State.orFstat]
@[simp] theorem State.orFstat_teams (s : State) (k : Nat) (b : BitVec 6) : (s.orFstat k b).teams = s.teams :=
    by simp [State.orFstat]
@[simp] theorem State.orFstat_residue (s : State) (k : Nat) (b : BitVec 6) : (s.orFstat k b).residue = s.residue :=
    by simp [State.orFstat]
@[simp] theorem State.orFstat_grids (s : State) (k : Nat) (b : BitVec 6) : (s.orFstat k b).grids = s.grids :=
    by simp [State.orFstat]
@[simp] theorem State.orFstat_barriers (s : State) (k : Nat) (b : BitVec 6) : (s.orFstat k b).barriers = s.barriers :=
    by simp [State.orFstat]
@[simp] theorem State.orFstat_forwards (s : State) (k : Nat) (b : BitVec 6) : (s.orFstat k b).forwards = s.forwards :=
    by simp [State.orFstat]
@[simp] theorem State.orFstat_owners (s : State) (k : Nat) (b : BitVec 6) : (s.orFstat k b).owners = s.owners :=
    by simp [State.orFstat]
@[simp] theorem State.orFstat_saved (s : State) (k : Nat) (b : BitVec 6) : (s.orFstat k b).saved = s.saved :=
    by simp [State.orFstat]
@[simp] theorem State.orFstat_parts (s : State) (k : Nat) (b : BitVec 6) : (s.orFstat k b).parts = s.parts :=
    by simp [State.orFstat]
@[simp] theorem State.orFstat_links (s : State) (k : Nat) (b : BitVec 6) : (s.orFstat k b).links = s.links :=
    by simp [State.orFstat]
@[simp] theorem State.orFstat_hdmTgt (s : State) (k : Nat) (b : BitVec 6) : (s.orFstat k b).hdmTgt = s.hdmTgt :=
    by simp [State.orFstat]
@[simp] theorem State.orFstat_t2size (s : State) (k : Nat) (b : BitVec 6) : (s.orFstat k b).t2size = s.t2size :=
    by simp [State.orFstat]
@[simp] theorem State.orFstat_pcie (s : State) (k : Nat) (b : BitVec 6) : (s.orFstat k b).pcie = s.pcie :=
    by simp [State.orFstat]
@[simp] theorem State.orFstat_mgmt (s : State) (k : Nat) (b : BitVec 6) : (s.orFstat k b).mgmt = s.mgmt :=
    by simp [State.orFstat]
@[simp] theorem State.orFstat_host (s : State) (k : Nat) (b : BitVec 6) : (s.orFstat k b).host = s.host :=
    by simp [State.orFstat]

/-! `State.clearLatches` -/

@[simp] theorem State.clearLatches_agenda (s : State) (f : Flight) : (s.clearLatches f).agenda = s.agenda :=
    by unfold State.clearLatches; dsimp only; split <;> rfl
@[simp] theorem State.clearLatches_focus (s : State) (f : Flight) : (s.clearLatches f).focus = s.focus :=
    by unfold State.clearLatches; dsimp only; split <;> rfl
@[simp] theorem State.clearLatches_cur (s : State) (f : Flight) : (s.clearLatches f).cur = s.cur :=
    by unfold State.clearLatches; dsimp only; split <;> rfl
@[simp] theorem State.clearLatches_free (s : State) (f : Flight) : (s.clearLatches f).free = s.free :=
    by unfold State.clearLatches; dsimp only; split <;> rfl
@[simp] theorem State.clearLatches_nextKey (s : State) (f : Flight) : (s.clearLatches f).nextKey = s.nextKey :=
    by unfold State.clearLatches; dsimp only; split <;> rfl
@[simp] theorem State.clearLatches_mem (s : State) (f : Flight) : (s.clearLatches f).mem = s.mem :=
    by unfold State.clearLatches; dsimp only; split <;> rfl
@[simp] theorem State.clearLatches_poison (s : State) (f : Flight) : (s.clearLatches f).poison = s.poison :=
    by unfold State.clearLatches; dsimp only; split <;> rfl
@[simp] theorem State.clearLatches_lines (s : State) (f : Flight) : (s.clearLatches f).lines = s.lines :=
    by unfold State.clearLatches; dsimp only; split <;> rfl
@[simp] theorem State.clearLatches_llc (s : State) (f : Flight) : (s.clearLatches f).llc = s.llc :=
    by unfold State.clearLatches; dsimp only; split <;> rfl
@[simp] theorem State.clearLatches_wc (s : State) (f : Flight) : (s.clearLatches f).wc = s.wc :=
    by unfold State.clearLatches; dsimp only; split <;> rfl
@[simp] theorem State.clearLatches_pins (s : State) (f : Flight) : (s.clearLatches f).pins = s.pins :=
    by unfold State.clearLatches; dsimp only; split <;> rfl
@[simp] theorem State.clearLatches_l1tlb (s : State) (f : Flight) : (s.clearLatches f).l1tlb = s.l1tlb :=
    by unfold State.clearLatches; dsimp only; split <;> rfl
@[simp] theorem State.clearLatches_l2tlb (s : State) (f : Flight) : (s.clearLatches f).l2tlb = s.l2tlb :=
    by unfold State.clearLatches; dsimp only; split <;> rfl
@[simp] theorem State.clearLatches_l3tlb (s : State) (f : Flight) : (s.clearLatches f).l3tlb = s.l3tlb :=
    by unfold State.clearLatches; dsimp only; split <;> rfl
@[simp] theorem State.clearLatches_recs (s : State) (f : Flight) : (s.clearLatches f).recs = s.recs :=
    by unfold State.clearLatches; dsimp only; split <;> rfl
@[simp] theorem State.clearLatches_flights (s : State) (f : Flight) : (s.clearLatches f).flights = s.flights :=
    by unfold State.clearLatches; dsimp only; split <;> rfl
@[simp] theorem State.clearLatches_memOps (s : State) (f : Flight) : (s.clearLatches f).memOps = s.memOps :=
    by unfold State.clearLatches; dsimp only; split <;> rfl
@[simp] theorem State.clearLatches_vfu (s : State) (f : Flight) : (s.clearLatches f).vfu = s.vfu :=
    by unfold State.clearLatches; dsimp only; split <;> rfl
@[simp] theorem State.clearLatches_sysOps (s : State) (f : Flight) : (s.clearLatches f).sysOps = s.sysOps :=
    by unfold State.clearLatches; dsimp only; split <;> rfl
@[simp] theorem State.clearLatches_copies (s : State) (f : Flight) : (s.clearLatches f).copies = s.copies :=
    by unfold State.clearLatches; dsimp only; split <;> rfl
@[simp] theorem State.clearLatches_engines (s : State) (f : Flight) : (s.clearLatches f).engines = s.engines :=
    by unfold State.clearLatches; dsimp only; split <;> rfl
@[simp] theorem State.clearLatches_mxq (s : State) (f : Flight) : (s.clearLatches f).mxq = s.mxq :=
    by unfold State.clearLatches; dsimp only; split <;> rfl
@[simp] theorem State.clearLatches_mx (s : State) (f : Flight) : (s.clearLatches f).mx = s.mx :=
    by unfold State.clearLatches; dsimp only; split <;> rfl
@[simp] theorem State.clearLatches_teams (s : State) (f : Flight) : (s.clearLatches f).teams = s.teams :=
    by unfold State.clearLatches; dsimp only; split <;> rfl
@[simp] theorem State.clearLatches_residue (s : State) (f : Flight) : (s.clearLatches f).residue = s.residue :=
    by unfold State.clearLatches; dsimp only; split <;> rfl
@[simp] theorem State.clearLatches_grids (s : State) (f : Flight) : (s.clearLatches f).grids = s.grids :=
    by unfold State.clearLatches; dsimp only; split <;> rfl
@[simp] theorem State.clearLatches_barriers (s : State) (f : Flight) : (s.clearLatches f).barriers = s.barriers :=
    by unfold State.clearLatches; dsimp only; split <;> rfl
@[simp] theorem State.clearLatches_forwards (s : State) (f : Flight) : (s.clearLatches f).forwards = s.forwards :=
    by unfold State.clearLatches; dsimp only; split <;> rfl
@[simp] theorem State.clearLatches_owners (s : State) (f : Flight) : (s.clearLatches f).owners = s.owners :=
    by unfold State.clearLatches; dsimp only; split <;> rfl
@[simp] theorem State.clearLatches_saved (s : State) (f : Flight) : (s.clearLatches f).saved = s.saved :=
    by unfold State.clearLatches; dsimp only; split <;> rfl
@[simp] theorem State.clearLatches_parts (s : State) (f : Flight) : (s.clearLatches f).parts = s.parts :=
    by unfold State.clearLatches; dsimp only; split <;> rfl
@[simp] theorem State.clearLatches_links (s : State) (f : Flight) : (s.clearLatches f).links = s.links :=
    by unfold State.clearLatches; dsimp only; split <;> rfl
@[simp] theorem State.clearLatches_hdmTgt (s : State) (f : Flight) : (s.clearLatches f).hdmTgt = s.hdmTgt :=
    by unfold State.clearLatches; dsimp only; split <;> rfl
@[simp] theorem State.clearLatches_t2size (s : State) (f : Flight) : (s.clearLatches f).t2size = s.t2size :=
    by unfold State.clearLatches; dsimp only; split <;> rfl
@[simp] theorem State.clearLatches_pcie (s : State) (f : Flight) : (s.clearLatches f).pcie = s.pcie :=
    by unfold State.clearLatches; dsimp only; split <;> rfl
@[simp] theorem State.clearLatches_mgmt (s : State) (f : Flight) : (s.clearLatches f).mgmt = s.mgmt :=
    by unfold State.clearLatches; dsimp only; split <;> rfl
@[simp] theorem State.clearLatches_host (s : State) (f : Flight) : (s.clearLatches f).host = s.host :=
    by unfold State.clearLatches; dsimp only; split <;> rfl

/-! `State.land` -/

@[simp] theorem State.land_agenda (s : State) (k : Nat) (t : Option Nat) : (s.land k t).agenda = s.agenda :=
    by unfold State.land; split <;> rfl
@[simp] theorem State.land_focus (s : State) (k : Nat) (t : Option Nat) : (s.land k t).focus = s.focus :=
    by unfold State.land; split <;> rfl
@[simp] theorem State.land_cur (s : State) (k : Nat) (t : Option Nat) : (s.land k t).cur = s.cur :=
    by unfold State.land; split <;> rfl
@[simp] theorem State.land_free (s : State) (k : Nat) (t : Option Nat) : (s.land k t).free = s.free :=
    by unfold State.land; split <;> rfl
@[simp] theorem State.land_nextKey (s : State) (k : Nat) (t : Option Nat) : (s.land k t).nextKey = s.nextKey :=
    by unfold State.land; split <;> rfl
@[simp] theorem State.land_mem (s : State) (k : Nat) (t : Option Nat) : (s.land k t).mem = s.mem :=
    by unfold State.land; split <;> rfl
@[simp] theorem State.land_poison (s : State) (k : Nat) (t : Option Nat) : (s.land k t).poison = s.poison :=
    by unfold State.land; split <;> rfl
@[simp] theorem State.land_lines (s : State) (k : Nat) (t : Option Nat) : (s.land k t).lines = s.lines :=
    by unfold State.land; split <;> rfl
@[simp] theorem State.land_llc (s : State) (k : Nat) (t : Option Nat) : (s.land k t).llc = s.llc :=
    by unfold State.land; split <;> rfl
@[simp] theorem State.land_wc (s : State) (k : Nat) (t : Option Nat) : (s.land k t).wc = s.wc :=
    by unfold State.land; split <;> rfl
@[simp] theorem State.land_pins (s : State) (k : Nat) (t : Option Nat) : (s.land k t).pins = s.pins :=
    by unfold State.land; split <;> rfl
@[simp] theorem State.land_l1tlb (s : State) (k : Nat) (t : Option Nat) : (s.land k t).l1tlb = s.l1tlb :=
    by unfold State.land; split <;> rfl
@[simp] theorem State.land_l2tlb (s : State) (k : Nat) (t : Option Nat) : (s.land k t).l2tlb = s.l2tlb :=
    by unfold State.land; split <;> rfl
@[simp] theorem State.land_l3tlb (s : State) (k : Nat) (t : Option Nat) : (s.land k t).l3tlb = s.l3tlb :=
    by unfold State.land; split <;> rfl
@[simp] theorem State.land_recs (s : State) (k : Nat) (t : Option Nat) : (s.land k t).recs = s.recs :=
    by unfold State.land; split <;> rfl
@[simp] theorem State.land_memOps (s : State) (k : Nat) (t : Option Nat) : (s.land k t).memOps = s.memOps :=
    by unfold State.land; split <;> rfl
@[simp] theorem State.land_vfu (s : State) (k : Nat) (t : Option Nat) : (s.land k t).vfu = s.vfu :=
    by unfold State.land; split <;> rfl
@[simp] theorem State.land_sysOps (s : State) (k : Nat) (t : Option Nat) : (s.land k t).sysOps = s.sysOps :=
    by unfold State.land; split <;> rfl
@[simp] theorem State.land_copies (s : State) (k : Nat) (t : Option Nat) : (s.land k t).copies = s.copies :=
    by unfold State.land; split <;> rfl
@[simp] theorem State.land_engines (s : State) (k : Nat) (t : Option Nat) : (s.land k t).engines = s.engines :=
    by unfold State.land; split <;> rfl
@[simp] theorem State.land_mxq (s : State) (k : Nat) (t : Option Nat) : (s.land k t).mxq = s.mxq :=
    by unfold State.land; split <;> rfl
@[simp] theorem State.land_mx (s : State) (k : Nat) (t : Option Nat) : (s.land k t).mx = s.mx :=
    by unfold State.land; split <;> rfl
@[simp] theorem State.land_teams (s : State) (k : Nat) (t : Option Nat) : (s.land k t).teams = s.teams :=
    by unfold State.land; split <;> rfl
@[simp] theorem State.land_residue (s : State) (k : Nat) (t : Option Nat) : (s.land k t).residue = s.residue :=
    by unfold State.land; split <;> rfl
@[simp] theorem State.land_grids (s : State) (k : Nat) (t : Option Nat) : (s.land k t).grids = s.grids :=
    by unfold State.land; split <;> rfl
@[simp] theorem State.land_barriers (s : State) (k : Nat) (t : Option Nat) : (s.land k t).barriers = s.barriers :=
    by unfold State.land; split <;> rfl
@[simp] theorem State.land_forwards (s : State) (k : Nat) (t : Option Nat) : (s.land k t).forwards = s.forwards :=
    by unfold State.land; split <;> rfl
@[simp] theorem State.land_owners (s : State) (k : Nat) (t : Option Nat) : (s.land k t).owners = s.owners :=
    by unfold State.land; split <;> rfl
@[simp] theorem State.land_saved (s : State) (k : Nat) (t : Option Nat) : (s.land k t).saved = s.saved :=
    by unfold State.land; split <;> rfl
@[simp] theorem State.land_parts (s : State) (k : Nat) (t : Option Nat) : (s.land k t).parts = s.parts :=
    by unfold State.land; split <;> rfl
@[simp] theorem State.land_links (s : State) (k : Nat) (t : Option Nat) : (s.land k t).links = s.links :=
    by unfold State.land; split <;> rfl
@[simp] theorem State.land_hdmTgt (s : State) (k : Nat) (t : Option Nat) : (s.land k t).hdmTgt = s.hdmTgt :=
    by unfold State.land; split <;> rfl
@[simp] theorem State.land_t2size (s : State) (k : Nat) (t : Option Nat) : (s.land k t).t2size = s.t2size :=
    by unfold State.land; split <;> rfl
@[simp] theorem State.land_pcie (s : State) (k : Nat) (t : Option Nat) : (s.land k t).pcie = s.pcie :=
    by unfold State.land; split <;> rfl
@[simp] theorem State.land_mgmt (s : State) (k : Nat) (t : Option Nat) : (s.land k t).mgmt = s.mgmt :=
    by unfold State.land; split <;> rfl
@[simp] theorem State.land_host (s : State) (k : Nat) (t : Option Nat) : (s.land k t).host = s.host :=
    by unfold State.land; split <;> rfl

/-! `Flight.setPC` -/

@[simp] theorem Flight.setPC_key (f : Flight) (a : DWord) : (f.setPC a).key = f.key := rfl
@[simp] theorem Flight.setPC_team (f : Flight) (a : DWord) : (f.setPC a).team = f.team := rfl
@[simp] theorem Flight.setPC_index (f : Flight) (a : DWord) : (f.setPC a).index = f.index := rfl
@[simp] theorem Flight.setPC_vd (f : Flight) (a : DWord) : (f.setPC a).vd = f.vd := rfl
@[simp] theorem Flight.setPC_core (f : Flight) (a : DWord) : (f.setPC a).core = f.core := rfl
@[simp] theorem Flight.setPC_quad (f : Flight) (a : DWord) : (f.setPC a).quad = f.quad := rfl
@[simp] theorem Flight.setPC_role (f : Flight) (a : DWord) : (f.setPC a).role = f.role := rfl
@[simp] theorem Flight.setPC_pc (f : Flight) (a : DWord) : (f.setPC a).pc = a &&& pcMask := rfl
@[simp] theorem Flight.setPC_em (f : Flight) (a : DWord) : (f.setPC a).em = f.em := rfl
@[simp] theorem Flight.setPC_preds (f : Flight) (a : DWord) : (f.setPC a).preds = f.preds := rfl
@[simp] theorem Flight.setPC_flags (f : Flight) (a : DWord) : (f.setPC a).flags = f.flags := rfl
@[simp] theorem Flight.setPC_fstat (f : Flight) (a : DWord) : (f.setPC a).fstat = f.fstat := rfl
@[simp] theorem Flight.setPC_regs (f : Flight) (a : DWord) : (f.setPC a).regs = f.regs := rfl
@[simp] theorem Flight.setPC_classMap (f : Flight) (a : DWord) : (f.setPC a).classMap = f.classMap := rfl
@[simp] theorem Flight.setPC_waitTable (f : Flight) (a : DWord) : (f.setPC a).waitTable = f.waitTable := rfl
@[simp] theorem Flight.setPC_chain (f : Flight) (a : DWord) : (f.setPC a).chain = f.chain := rfl
@[simp] theorem Flight.setPC_macroStep (f : Flight) (a : DWord) : (f.setPC a).macroStep = f.macroStep := rfl
@[simp] theorem Flight.setPC_bars (f : Flight) (a : DWord) : (f.setPC a).bars = f.bars := rfl
@[simp] theorem Flight.setPC_lastIssue (f : Flight) (a : DWord) : (f.setPC a).lastIssue = f.lastIssue := rfl
@[simp] theorem Flight.setPC_waitCount (f : Flight) (a : DWord) : (f.setPC a).waitCount = f.waitCount := rfl
@[simp] theorem Flight.setPC_block (f : Flight) (a : DWord) : (f.setPC a).block = f.block := rfl
@[simp] theorem Flight.setPC_yielding (f : Flight) (a : DWord) : (f.setPC a).yielding = f.yielding := rfl
@[simp] theorem Flight.setPC_halted (f : Flight) (a : DWord) : (f.setPC a).halted = f.halted := rfl
@[simp] theorem Flight.setPC_ended (f : Flight) (a : DWord) : (f.setPC a).ended = f.ended := rfl
@[simp] theorem Flight.setPC_trap (f : Flight) (a : DWord) : (f.setPC a).trap = f.trap := rfl
@[simp] theorem Flight.setPC_pend (f : Flight) (a : DWord) : (f.setPC a).pend = f.pend := rfl
@[simp] theorem Flight.setPC_early (f : Flight) (a : DWord) : (f.setPC a).early = f.early := rfl
@[simp] theorem Flight.setPC_poisoned (f : Flight) (a : DWord) : (f.setPC a).poisoned = f.poisoned := rfl

/-! `Flight.setEM` -/

@[simp] theorem Flight.setEM_key (f : Flight) (m : Word) : (f.setEM m).key = f.key := rfl
@[simp] theorem Flight.setEM_team (f : Flight) (m : Word) : (f.setEM m).team = f.team := rfl
@[simp] theorem Flight.setEM_index (f : Flight) (m : Word) : (f.setEM m).index = f.index := rfl
@[simp] theorem Flight.setEM_vd (f : Flight) (m : Word) : (f.setEM m).vd = f.vd := rfl
@[simp] theorem Flight.setEM_core (f : Flight) (m : Word) : (f.setEM m).core = f.core := rfl
@[simp] theorem Flight.setEM_quad (f : Flight) (m : Word) : (f.setEM m).quad = f.quad := rfl
@[simp] theorem Flight.setEM_role (f : Flight) (m : Word) : (f.setEM m).role = f.role := rfl
@[simp] theorem Flight.setEM_pc (f : Flight) (m : Word) : (f.setEM m).pc = f.pc := rfl
@[simp] theorem Flight.setEM_preds (f : Flight) (m : Word) : (f.setEM m).preds = f.preds := rfl
@[simp] theorem Flight.setEM_flags (f : Flight) (m : Word) : (f.setEM m).flags = f.flags := rfl
@[simp] theorem Flight.setEM_fstat (f : Flight) (m : Word) : (f.setEM m).fstat = f.fstat := rfl
@[simp] theorem Flight.setEM_regs (f : Flight) (m : Word) : (f.setEM m).regs = f.regs := rfl
@[simp] theorem Flight.setEM_classMap (f : Flight) (m : Word) : (f.setEM m).classMap = f.classMap := rfl
@[simp] theorem Flight.setEM_waitTable (f : Flight) (m : Word) : (f.setEM m).waitTable = f.waitTable := rfl
@[simp] theorem Flight.setEM_chain (f : Flight) (m : Word) : (f.setEM m).chain = f.chain := rfl
@[simp] theorem Flight.setEM_macroStep (f : Flight) (m : Word) : (f.setEM m).macroStep = f.macroStep := rfl
@[simp] theorem Flight.setEM_bars (f : Flight) (m : Word) : (f.setEM m).bars = f.bars := rfl
@[simp] theorem Flight.setEM_lastIssue (f : Flight) (m : Word) : (f.setEM m).lastIssue = f.lastIssue := rfl
@[simp] theorem Flight.setEM_waitCount (f : Flight) (m : Word) : (f.setEM m).waitCount = f.waitCount := rfl
@[simp] theorem Flight.setEM_block (f : Flight) (m : Word) : (f.setEM m).block = f.block := rfl
@[simp] theorem Flight.setEM_yielding (f : Flight) (m : Word) : (f.setEM m).yielding = f.yielding := rfl
@[simp] theorem Flight.setEM_halted (f : Flight) (m : Word) : (f.setEM m).halted = f.halted := rfl
@[simp] theorem Flight.setEM_ended (f : Flight) (m : Word) : (f.setEM m).ended = f.ended := rfl
@[simp] theorem Flight.setEM_trap (f : Flight) (m : Word) : (f.setEM m).trap = f.trap := rfl
@[simp] theorem Flight.setEM_pend (f : Flight) (m : Word) : (f.setEM m).pend = f.pend := rfl
@[simp] theorem Flight.setEM_early (f : Flight) (m : Word) : (f.setEM m).early = f.early := rfl
@[simp] theorem Flight.setEM_poisoned (f : Flight) (m : Word) : (f.setEM m).poisoned = f.poisoned := rfl

/-! `Flight.addFlag` -/

@[simp] theorem Flight.addFlag_key (f : Flight) (n : Nat) : (f.addFlag n).key = f.key := rfl
@[simp] theorem Flight.addFlag_team (f : Flight) (n : Nat) : (f.addFlag n).team = f.team := rfl
@[simp] theorem Flight.addFlag_index (f : Flight) (n : Nat) : (f.addFlag n).index = f.index := rfl
@[simp] theorem Flight.addFlag_vd (f : Flight) (n : Nat) : (f.addFlag n).vd = f.vd := rfl
@[simp] theorem Flight.addFlag_core (f : Flight) (n : Nat) : (f.addFlag n).core = f.core := rfl
@[simp] theorem Flight.addFlag_quad (f : Flight) (n : Nat) : (f.addFlag n).quad = f.quad := rfl
@[simp] theorem Flight.addFlag_role (f : Flight) (n : Nat) : (f.addFlag n).role = f.role := rfl
@[simp] theorem Flight.addFlag_pc (f : Flight) (n : Nat) : (f.addFlag n).pc = f.pc := rfl
@[simp] theorem Flight.addFlag_em (f : Flight) (n : Nat) : (f.addFlag n).em = f.em := rfl
@[simp] theorem Flight.addFlag_preds (f : Flight) (n : Nat) : (f.addFlag n).preds = f.preds := rfl
@[simp] theorem Flight.addFlag_flags (f : Flight) (n : Nat) :
    (f.addFlag n).flags = listSet f.flags n (min 63 (f.flags.getD n 0 + 1)) :=
    rfl
@[simp] theorem Flight.addFlag_fstat (f : Flight) (n : Nat) : (f.addFlag n).fstat = f.fstat := rfl
@[simp] theorem Flight.addFlag_regs (f : Flight) (n : Nat) : (f.addFlag n).regs = f.regs := rfl
@[simp] theorem Flight.addFlag_classMap (f : Flight) (n : Nat) : (f.addFlag n).classMap = f.classMap := rfl
@[simp] theorem Flight.addFlag_waitTable (f : Flight) (n : Nat) : (f.addFlag n).waitTable = f.waitTable := rfl
@[simp] theorem Flight.addFlag_chain (f : Flight) (n : Nat) : (f.addFlag n).chain = f.chain := rfl
@[simp] theorem Flight.addFlag_macroStep (f : Flight) (n : Nat) : (f.addFlag n).macroStep = f.macroStep := rfl
@[simp] theorem Flight.addFlag_bars (f : Flight) (n : Nat) : (f.addFlag n).bars = f.bars := rfl
@[simp] theorem Flight.addFlag_lastIssue (f : Flight) (n : Nat) : (f.addFlag n).lastIssue = f.lastIssue := rfl
@[simp] theorem Flight.addFlag_waitCount (f : Flight) (n : Nat) : (f.addFlag n).waitCount = f.waitCount := rfl
@[simp] theorem Flight.addFlag_block (f : Flight) (n : Nat) : (f.addFlag n).block = f.block := rfl
@[simp] theorem Flight.addFlag_yielding (f : Flight) (n : Nat) : (f.addFlag n).yielding = f.yielding := rfl
@[simp] theorem Flight.addFlag_halted (f : Flight) (n : Nat) : (f.addFlag n).halted = f.halted := rfl
@[simp] theorem Flight.addFlag_ended (f : Flight) (n : Nat) : (f.addFlag n).ended = f.ended := rfl
@[simp] theorem Flight.addFlag_trap (f : Flight) (n : Nat) : (f.addFlag n).trap = f.trap := rfl
@[simp] theorem Flight.addFlag_pend (f : Flight) (n : Nat) : (f.addFlag n).pend = f.pend := rfl
@[simp] theorem Flight.addFlag_early (f : Flight) (n : Nat) : (f.addFlag n).early = f.early := rfl
@[simp] theorem Flight.addFlag_poisoned (f : Flight) (n : Nat) : (f.addFlag n).poisoned = f.poisoned := rfl

/-! `Flight.dropFlag` -/

@[simp] theorem Flight.dropFlag_key (f : Flight) (n : Nat) : (f.dropFlag n).key = f.key := rfl
@[simp] theorem Flight.dropFlag_team (f : Flight) (n : Nat) : (f.dropFlag n).team = f.team := rfl
@[simp] theorem Flight.dropFlag_index (f : Flight) (n : Nat) : (f.dropFlag n).index = f.index := rfl
@[simp] theorem Flight.dropFlag_vd (f : Flight) (n : Nat) : (f.dropFlag n).vd = f.vd := rfl
@[simp] theorem Flight.dropFlag_core (f : Flight) (n : Nat) : (f.dropFlag n).core = f.core := rfl
@[simp] theorem Flight.dropFlag_quad (f : Flight) (n : Nat) : (f.dropFlag n).quad = f.quad := rfl
@[simp] theorem Flight.dropFlag_role (f : Flight) (n : Nat) : (f.dropFlag n).role = f.role := rfl
@[simp] theorem Flight.dropFlag_pc (f : Flight) (n : Nat) : (f.dropFlag n).pc = f.pc := rfl
@[simp] theorem Flight.dropFlag_em (f : Flight) (n : Nat) : (f.dropFlag n).em = f.em := rfl
@[simp] theorem Flight.dropFlag_preds (f : Flight) (n : Nat) : (f.dropFlag n).preds = f.preds := rfl
@[simp] theorem Flight.dropFlag_flags (f : Flight) (n : Nat) :
    (f.dropFlag n).flags = listSet f.flags n (f.flags.getD n 0 - 1) :=
    rfl
@[simp] theorem Flight.dropFlag_fstat (f : Flight) (n : Nat) : (f.dropFlag n).fstat = f.fstat := rfl
@[simp] theorem Flight.dropFlag_regs (f : Flight) (n : Nat) : (f.dropFlag n).regs = f.regs := rfl
@[simp] theorem Flight.dropFlag_classMap (f : Flight) (n : Nat) : (f.dropFlag n).classMap = f.classMap := rfl
@[simp] theorem Flight.dropFlag_waitTable (f : Flight) (n : Nat) : (f.dropFlag n).waitTable = f.waitTable := rfl
@[simp] theorem Flight.dropFlag_chain (f : Flight) (n : Nat) : (f.dropFlag n).chain = f.chain := rfl
@[simp] theorem Flight.dropFlag_macroStep (f : Flight) (n : Nat) : (f.dropFlag n).macroStep = f.macroStep := rfl
@[simp] theorem Flight.dropFlag_bars (f : Flight) (n : Nat) : (f.dropFlag n).bars = f.bars := rfl
@[simp] theorem Flight.dropFlag_lastIssue (f : Flight) (n : Nat) : (f.dropFlag n).lastIssue = f.lastIssue := rfl
@[simp] theorem Flight.dropFlag_waitCount (f : Flight) (n : Nat) : (f.dropFlag n).waitCount = f.waitCount := rfl
@[simp] theorem Flight.dropFlag_block (f : Flight) (n : Nat) : (f.dropFlag n).block = f.block := rfl
@[simp] theorem Flight.dropFlag_yielding (f : Flight) (n : Nat) : (f.dropFlag n).yielding = f.yielding := rfl
@[simp] theorem Flight.dropFlag_halted (f : Flight) (n : Nat) : (f.dropFlag n).halted = f.halted := rfl
@[simp] theorem Flight.dropFlag_ended (f : Flight) (n : Nat) : (f.dropFlag n).ended = f.ended := rfl
@[simp] theorem Flight.dropFlag_trap (f : Flight) (n : Nat) : (f.dropFlag n).trap = f.trap := rfl
@[simp] theorem Flight.dropFlag_pend (f : Flight) (n : Nat) : (f.dropFlag n).pend = f.pend := rfl
@[simp] theorem Flight.dropFlag_early (f : Flight) (n : Nat) : (f.dropFlag n).early = f.early := rfl
@[simp] theorem Flight.dropFlag_poisoned (f : Flight) (n : Nat) : (f.dropFlag n).poisoned = f.poisoned := rfl

/-! `Flight.setReg` -/

@[simp] theorem Flight.setReg_key (f : Flight) (r : Nat) (v : RegVal) : (f.setReg r v).key = f.key := rfl
@[simp] theorem Flight.setReg_team (f : Flight) (r : Nat) (v : RegVal) : (f.setReg r v).team = f.team := rfl
@[simp] theorem Flight.setReg_index (f : Flight) (r : Nat) (v : RegVal) : (f.setReg r v).index = f.index := rfl
@[simp] theorem Flight.setReg_vd (f : Flight) (r : Nat) (v : RegVal) : (f.setReg r v).vd = f.vd := rfl
@[simp] theorem Flight.setReg_core (f : Flight) (r : Nat) (v : RegVal) : (f.setReg r v).core = f.core := rfl
@[simp] theorem Flight.setReg_quad (f : Flight) (r : Nat) (v : RegVal) : (f.setReg r v).quad = f.quad := rfl
@[simp] theorem Flight.setReg_role (f : Flight) (r : Nat) (v : RegVal) : (f.setReg r v).role = f.role := rfl
@[simp] theorem Flight.setReg_pc (f : Flight) (r : Nat) (v : RegVal) : (f.setReg r v).pc = f.pc := rfl
@[simp] theorem Flight.setReg_em (f : Flight) (r : Nat) (v : RegVal) : (f.setReg r v).em = f.em := rfl
@[simp] theorem Flight.setReg_preds (f : Flight) (r : Nat) (v : RegVal) : (f.setReg r v).preds = f.preds := rfl
@[simp] theorem Flight.setReg_flags (f : Flight) (r : Nat) (v : RegVal) : (f.setReg r v).flags = f.flags := rfl
@[simp] theorem Flight.setReg_fstat (f : Flight) (r : Nat) (v : RegVal) : (f.setReg r v).fstat = f.fstat := rfl
@[simp] theorem Flight.setReg_regs (f : Flight) (r : Nat) (v : RegVal) : (f.setReg r v).regs = kset Prod.fst (r, v) f.regs :=
    rfl
@[simp] theorem Flight.setReg_classMap (f : Flight) (r : Nat) (v : RegVal) : (f.setReg r v).classMap = f.classMap := rfl
@[simp] theorem Flight.setReg_waitTable (f : Flight) (r : Nat) (v : RegVal) : (f.setReg r v).waitTable = f.waitTable := rfl
@[simp] theorem Flight.setReg_chain (f : Flight) (r : Nat) (v : RegVal) : (f.setReg r v).chain = f.chain := rfl
@[simp] theorem Flight.setReg_macroStep (f : Flight) (r : Nat) (v : RegVal) : (f.setReg r v).macroStep = f.macroStep := rfl
@[simp] theorem Flight.setReg_bars (f : Flight) (r : Nat) (v : RegVal) : (f.setReg r v).bars = f.bars := rfl
@[simp] theorem Flight.setReg_lastIssue (f : Flight) (r : Nat) (v : RegVal) : (f.setReg r v).lastIssue = f.lastIssue := rfl
@[simp] theorem Flight.setReg_waitCount (f : Flight) (r : Nat) (v : RegVal) : (f.setReg r v).waitCount = f.waitCount := rfl
@[simp] theorem Flight.setReg_block (f : Flight) (r : Nat) (v : RegVal) : (f.setReg r v).block = f.block := rfl
@[simp] theorem Flight.setReg_yielding (f : Flight) (r : Nat) (v : RegVal) : (f.setReg r v).yielding = f.yielding := rfl
@[simp] theorem Flight.setReg_halted (f : Flight) (r : Nat) (v : RegVal) : (f.setReg r v).halted = f.halted := rfl
@[simp] theorem Flight.setReg_ended (f : Flight) (r : Nat) (v : RegVal) : (f.setReg r v).ended = f.ended := rfl
@[simp] theorem Flight.setReg_trap (f : Flight) (r : Nat) (v : RegVal) : (f.setReg r v).trap = f.trap := rfl
@[simp] theorem Flight.setReg_pend (f : Flight) (r : Nat) (v : RegVal) : (f.setReg r v).pend = f.pend := rfl
@[simp] theorem Flight.setReg_early (f : Flight) (r : Nat) (v : RegVal) : (f.setReg r v).early = f.early := rfl
@[simp] theorem Flight.setReg_poisoned (f : Flight) (r : Nat) (v : RegVal) : (f.setReg r v).poisoned = f.poisoned := rfl

/-! `Flight.xret` -/

@[simp] theorem Flight.xret_key (f : Flight) : (f.xret).key = f.key := rfl
@[simp] theorem Flight.xret_team (f : Flight) : (f.xret).team = f.team := rfl
@[simp] theorem Flight.xret_index (f : Flight) : (f.xret).index = f.index := rfl
@[simp] theorem Flight.xret_vd (f : Flight) : (f.xret).vd = f.vd := rfl
@[simp] theorem Flight.xret_core (f : Flight) : (f.xret).core = f.core := rfl
@[simp] theorem Flight.xret_quad (f : Flight) : (f.xret).quad = f.quad := rfl
@[simp] theorem Flight.xret_role (f : Flight) : (f.xret).role = .lane := rfl
@[simp] theorem Flight.xret_pc (f : Flight) : (f.xret).pc = f.trap.tepc &&& pcMask := rfl
@[simp] theorem Flight.xret_em (f : Flight) : (f.xret).em = f.trap.em := rfl
@[simp] theorem Flight.xret_preds (f : Flight) : (f.xret).preds = f.preds := rfl
@[simp] theorem Flight.xret_flags (f : Flight) : (f.xret).flags = f.flags := rfl
@[simp] theorem Flight.xret_fstat (f : Flight) : (f.xret).fstat = f.fstat := rfl
@[simp] theorem Flight.xret_regs (f : Flight) : (f.xret).regs = f.regs := rfl
@[simp] theorem Flight.xret_classMap (f : Flight) : (f.xret).classMap = f.classMap := rfl
@[simp] theorem Flight.xret_waitTable (f : Flight) : (f.xret).waitTable = f.waitTable := rfl
@[simp] theorem Flight.xret_chain (f : Flight) : (f.xret).chain = Chain.closed := rfl
@[simp] theorem Flight.xret_macroStep (f : Flight) : (f.xret).macroStep = stepOfCode f.trap.tstep := rfl
@[simp] theorem Flight.xret_bars (f : Flight) : (f.xret).bars = f.bars := rfl
@[simp] theorem Flight.xret_lastIssue (f : Flight) : (f.xret).lastIssue = f.lastIssue := rfl
@[simp] theorem Flight.xret_waitCount (f : Flight) : (f.xret).waitCount = f.waitCount := rfl
@[simp] theorem Flight.xret_block (f : Flight) : (f.xret).block = f.block := rfl
@[simp] theorem Flight.xret_yielding (f : Flight) : (f.xret).yielding = f.yielding := rfl
@[simp] theorem Flight.xret_halted (f : Flight) : (f.xret).halted = f.halted := rfl
@[simp] theorem Flight.xret_ended (f : Flight) : (f.xret).ended = f.ended := rfl
@[simp] theorem Flight.xret_trap (f : Flight) : (f.xret).trap = f.trap := rfl
@[simp] theorem Flight.xret_pend (f : Flight) : (f.xret).pend = f.pend := rfl
@[simp] theorem Flight.xret_early (f : Flight) : (f.xret).early = f.early := rfl
@[simp] theorem Flight.xret_poisoned (f : Flight) : (f.xret).poisoned = f.poisoned := rfl

/-! `Flight.rewind` -/

@[simp] theorem Flight.rewind_key (f : Flight) : (f.rewind).key = f.key := by unfold Flight.rewind; split <;> rfl
@[simp] theorem Flight.rewind_team (f : Flight) : (f.rewind).team = f.team := by unfold Flight.rewind; split <;> rfl
@[simp] theorem Flight.rewind_index (f : Flight) : (f.rewind).index = f.index := by unfold Flight.rewind; split <;> rfl
@[simp] theorem Flight.rewind_vd (f : Flight) : (f.rewind).vd = f.vd := by unfold Flight.rewind; split <;> rfl
@[simp] theorem Flight.rewind_core (f : Flight) : (f.rewind).core = f.core := by unfold Flight.rewind; split <;> rfl
@[simp] theorem Flight.rewind_quad (f : Flight) : (f.rewind).quad = f.quad := by unfold Flight.rewind; split <;> rfl
@[simp] theorem Flight.rewind_role (f : Flight) : (f.rewind).role = f.role := by unfold Flight.rewind; split <;> rfl
@[simp] theorem Flight.rewind_em (f : Flight) : (f.rewind).em = f.em := by unfold Flight.rewind; split <;> rfl
@[simp] theorem Flight.rewind_preds (f : Flight) : (f.rewind).preds = f.preds := by unfold Flight.rewind; split <;> rfl
@[simp] theorem Flight.rewind_flags (f : Flight) : (f.rewind).flags = f.flags := by unfold Flight.rewind; split <;> rfl
@[simp] theorem Flight.rewind_fstat (f : Flight) : (f.rewind).fstat = f.fstat := by unfold Flight.rewind; split <;> rfl
@[simp] theorem Flight.rewind_regs (f : Flight) : (f.rewind).regs = f.regs := by unfold Flight.rewind; split <;> rfl
@[simp] theorem Flight.rewind_classMap (f : Flight) : (f.rewind).classMap = f.classMap :=
    by unfold Flight.rewind; split <;> rfl
@[simp] theorem Flight.rewind_waitTable (f : Flight) : (f.rewind).waitTable = f.waitTable :=
    by unfold Flight.rewind; split <;> rfl
@[simp] theorem Flight.rewind_bars (f : Flight) : (f.rewind).bars = f.bars := by unfold Flight.rewind; split <;> rfl
@[simp] theorem Flight.rewind_lastIssue (f : Flight) : (f.rewind).lastIssue = f.lastIssue :=
    by unfold Flight.rewind; split <;> rfl
@[simp] theorem Flight.rewind_waitCount (f : Flight) : (f.rewind).waitCount = f.waitCount :=
    by unfold Flight.rewind; split <;> rfl
@[simp] theorem Flight.rewind_block (f : Flight) : (f.rewind).block = f.block := by unfold Flight.rewind; split <;> rfl
@[simp] theorem Flight.rewind_yielding (f : Flight) : (f.rewind).yielding = f.yielding :=
    by unfold Flight.rewind; split <;> rfl
@[simp] theorem Flight.rewind_halted (f : Flight) : (f.rewind).halted = f.halted := by unfold Flight.rewind; split <;> rfl
@[simp] theorem Flight.rewind_ended (f : Flight) : (f.rewind).ended = f.ended := by unfold Flight.rewind; split <;> rfl
@[simp] theorem Flight.rewind_trap (f : Flight) : (f.rewind).trap = f.trap := by unfold Flight.rewind; split <;> rfl
@[simp] theorem Flight.rewind_pend (f : Flight) : (f.rewind).pend = f.pend := by unfold Flight.rewind; split <;> rfl
@[simp] theorem Flight.rewind_early (f : Flight) : (f.rewind).early = f.early := by unfold Flight.rewind; split <;> rfl
@[simp] theorem Flight.rewind_poisoned (f : Flight) : (f.rewind).poisoned = f.poisoned :=
    by unfold Flight.rewind; split <;> rfl

/-! `Flight.halt` -/

@[simp] theorem Flight.halt_key (f : Flight) : (f.halt).key = f.key := by simp [Flight.halt]
@[simp] theorem Flight.halt_team (f : Flight) : (f.halt).team = f.team := by simp [Flight.halt]
@[simp] theorem Flight.halt_index (f : Flight) : (f.halt).index = f.index := by simp [Flight.halt]
@[simp] theorem Flight.halt_vd (f : Flight) : (f.halt).vd = f.vd := by simp [Flight.halt]
@[simp] theorem Flight.halt_core (f : Flight) : (f.halt).core = f.core := by simp [Flight.halt]
@[simp] theorem Flight.halt_quad (f : Flight) : (f.halt).quad = f.quad := by simp [Flight.halt]
@[simp] theorem Flight.halt_role (f : Flight) : (f.halt).role = f.role := by simp [Flight.halt]
@[simp] theorem Flight.halt_em (f : Flight) : (f.halt).em = f.em := by simp [Flight.halt]
@[simp] theorem Flight.halt_preds (f : Flight) : (f.halt).preds = f.preds := by simp [Flight.halt]
@[simp] theorem Flight.halt_flags (f : Flight) : (f.halt).flags = f.flags := by simp [Flight.halt]
@[simp] theorem Flight.halt_fstat (f : Flight) : (f.halt).fstat = f.fstat := by simp [Flight.halt]
@[simp] theorem Flight.halt_regs (f : Flight) : (f.halt).regs = f.regs := by simp [Flight.halt]
@[simp] theorem Flight.halt_classMap (f : Flight) : (f.halt).classMap = f.classMap := by simp [Flight.halt]
@[simp] theorem Flight.halt_waitTable (f : Flight) : (f.halt).waitTable = f.waitTable := by simp [Flight.halt]
@[simp] theorem Flight.halt_chain (f : Flight) : (f.halt).chain = f.chain := by simp [Flight.halt]
@[simp] theorem Flight.halt_bars (f : Flight) : (f.halt).bars = f.bars := by simp [Flight.halt]
@[simp] theorem Flight.halt_lastIssue (f : Flight) : (f.halt).lastIssue = f.lastIssue := by simp [Flight.halt]
@[simp] theorem Flight.halt_waitCount (f : Flight) : (f.halt).waitCount = f.waitCount := by simp [Flight.halt]
@[simp] theorem Flight.halt_block (f : Flight) : (f.halt).block = f.block := by simp [Flight.halt]
@[simp] theorem Flight.halt_yielding (f : Flight) : (f.halt).yielding = f.yielding := by simp [Flight.halt]
@[simp] theorem Flight.halt_halted (f : Flight) : (f.halt).halted = true := by simp [Flight.halt]
@[simp] theorem Flight.halt_ended (f : Flight) : (f.halt).ended = f.ended := by simp [Flight.halt]
@[simp] theorem Flight.halt_trap (f : Flight) : (f.halt).trap = f.trap := by simp [Flight.halt]
@[simp] theorem Flight.halt_pend (f : Flight) : (f.halt).pend = f.pend := by simp [Flight.halt]
@[simp] theorem Flight.halt_early (f : Flight) : (f.halt).early = f.early := by simp [Flight.halt]
@[simp] theorem Flight.halt_poisoned (f : Flight) : (f.halt).poisoned = f.poisoned := by simp [Flight.halt]

/-! `Flight.landReg` -/

@[simp] theorem Flight.landReg_key (f : Flight) (p : RegPut) : (f.landReg p).key = f.key :=
    by unfold Flight.landReg; split <;> rfl
@[simp] theorem Flight.landReg_team (f : Flight) (p : RegPut) : (f.landReg p).team = f.team :=
    by unfold Flight.landReg; split <;> rfl
@[simp] theorem Flight.landReg_index (f : Flight) (p : RegPut) : (f.landReg p).index = f.index :=
    by unfold Flight.landReg; split <;> rfl
@[simp] theorem Flight.landReg_vd (f : Flight) (p : RegPut) : (f.landReg p).vd = f.vd :=
    by unfold Flight.landReg; split <;> rfl
@[simp] theorem Flight.landReg_core (f : Flight) (p : RegPut) : (f.landReg p).core = f.core :=
    by unfold Flight.landReg; split <;> rfl
@[simp] theorem Flight.landReg_quad (f : Flight) (p : RegPut) : (f.landReg p).quad = f.quad :=
    by unfold Flight.landReg; split <;> rfl
@[simp] theorem Flight.landReg_role (f : Flight) (p : RegPut) : (f.landReg p).role = f.role :=
    by unfold Flight.landReg; split <;> rfl
@[simp] theorem Flight.landReg_pc (f : Flight) (p : RegPut) : (f.landReg p).pc = f.pc :=
    by unfold Flight.landReg; split <;> rfl
@[simp] theorem Flight.landReg_em (f : Flight) (p : RegPut) : (f.landReg p).em = f.em :=
    by unfold Flight.landReg; split <;> rfl
@[simp] theorem Flight.landReg_preds (f : Flight) (p : RegPut) : (f.landReg p).preds = f.preds :=
    by unfold Flight.landReg; split <;> rfl
@[simp] theorem Flight.landReg_flags (f : Flight) (p : RegPut) : (f.landReg p).flags = f.flags :=
    by unfold Flight.landReg; split <;> rfl
@[simp] theorem Flight.landReg_fstat (f : Flight) (p : RegPut) : (f.landReg p).fstat = f.fstat :=
    by unfold Flight.landReg; split <;> rfl
@[simp] theorem Flight.landReg_classMap (f : Flight) (p : RegPut) : (f.landReg p).classMap = f.classMap :=
    by unfold Flight.landReg; split <;> rfl
@[simp] theorem Flight.landReg_waitTable (f : Flight) (p : RegPut) : (f.landReg p).waitTable = f.waitTable :=
    by unfold Flight.landReg; split <;> rfl
@[simp] theorem Flight.landReg_chain (f : Flight) (p : RegPut) : (f.landReg p).chain = f.chain :=
    by unfold Flight.landReg; split <;> rfl
@[simp] theorem Flight.landReg_macroStep (f : Flight) (p : RegPut) : (f.landReg p).macroStep = f.macroStep :=
    by unfold Flight.landReg; split <;> rfl
@[simp] theorem Flight.landReg_bars (f : Flight) (p : RegPut) : (f.landReg p).bars = f.bars :=
    by unfold Flight.landReg; split <;> rfl
@[simp] theorem Flight.landReg_lastIssue (f : Flight) (p : RegPut) : (f.landReg p).lastIssue = f.lastIssue :=
    by unfold Flight.landReg; split <;> rfl
@[simp] theorem Flight.landReg_waitCount (f : Flight) (p : RegPut) : (f.landReg p).waitCount = f.waitCount :=
    by unfold Flight.landReg; split <;> rfl
@[simp] theorem Flight.landReg_block (f : Flight) (p : RegPut) : (f.landReg p).block = f.block :=
    by unfold Flight.landReg; split <;> rfl
@[simp] theorem Flight.landReg_yielding (f : Flight) (p : RegPut) : (f.landReg p).yielding = f.yielding :=
    by unfold Flight.landReg; split <;> rfl
@[simp] theorem Flight.landReg_halted (f : Flight) (p : RegPut) : (f.landReg p).halted = f.halted :=
    by unfold Flight.landReg; split <;> rfl
@[simp] theorem Flight.landReg_ended (f : Flight) (p : RegPut) : (f.landReg p).ended = f.ended :=
    by unfold Flight.landReg; split <;> rfl
@[simp] theorem Flight.landReg_trap (f : Flight) (p : RegPut) : (f.landReg p).trap = f.trap :=
    by unfold Flight.landReg; split <;> rfl
@[simp] theorem Flight.landReg_pend (f : Flight) (p : RegPut) : (f.landReg p).pend = f.pend :=
    by unfold Flight.landReg; split <;> rfl
@[simp] theorem Flight.landReg_early (f : Flight) (p : RegPut) : (f.landReg p).early = f.early :=
    by unfold Flight.landReg; split <;> rfl
@[simp] theorem Flight.landReg_poisoned (f : Flight) (p : RegPut) : (f.landReg p).poisoned = f.poisoned :=
    by unfold Flight.landReg; split <;> rfl

/-! `Flight.setPred` -/

@[simp] theorem Flight.setPred_key (f : Flight) (n : Nat) (m : Word) (b : Word) : (f.setPred n m b).key = f.key :=
    by unfold Flight.setPred; split <;> rfl
@[simp] theorem Flight.setPred_team (f : Flight) (n : Nat) (m : Word) (b : Word) : (f.setPred n m b).team = f.team :=
    by unfold Flight.setPred; split <;> rfl
@[simp] theorem Flight.setPred_index (f : Flight) (n : Nat) (m : Word) (b : Word) : (f.setPred n m b).index = f.index :=
    by unfold Flight.setPred; split <;> rfl
@[simp] theorem Flight.setPred_vd (f : Flight) (n : Nat) (m : Word) (b : Word) : (f.setPred n m b).vd = f.vd :=
    by unfold Flight.setPred; split <;> rfl
@[simp] theorem Flight.setPred_core (f : Flight) (n : Nat) (m : Word) (b : Word) : (f.setPred n m b).core = f.core :=
    by unfold Flight.setPred; split <;> rfl
@[simp] theorem Flight.setPred_quad (f : Flight) (n : Nat) (m : Word) (b : Word) : (f.setPred n m b).quad = f.quad :=
    by unfold Flight.setPred; split <;> rfl
@[simp] theorem Flight.setPred_role (f : Flight) (n : Nat) (m : Word) (b : Word) : (f.setPred n m b).role = f.role :=
    by unfold Flight.setPred; split <;> rfl
@[simp] theorem Flight.setPred_pc (f : Flight) (n : Nat) (m : Word) (b : Word) : (f.setPred n m b).pc = f.pc :=
    by unfold Flight.setPred; split <;> rfl
@[simp] theorem Flight.setPred_em (f : Flight) (n : Nat) (m : Word) (b : Word) : (f.setPred n m b).em = f.em :=
    by unfold Flight.setPred; split <;> rfl
@[simp] theorem Flight.setPred_flags (f : Flight) (n : Nat) (m : Word) (b : Word) : (f.setPred n m b).flags = f.flags :=
    by unfold Flight.setPred; split <;> rfl
@[simp] theorem Flight.setPred_fstat (f : Flight) (n : Nat) (m : Word) (b : Word) : (f.setPred n m b).fstat = f.fstat :=
    by unfold Flight.setPred; split <;> rfl
@[simp] theorem Flight.setPred_regs (f : Flight) (n : Nat) (m : Word) (b : Word) : (f.setPred n m b).regs = f.regs :=
    by unfold Flight.setPred; split <;> rfl
@[simp] theorem Flight.setPred_classMap (f : Flight) (n : Nat) (m : Word) (b : Word) :
    (f.setPred n m b).classMap = f.classMap :=
    by unfold Flight.setPred; split <;> rfl
@[simp] theorem Flight.setPred_waitTable (f : Flight) (n : Nat) (m : Word) (b : Word) :
    (f.setPred n m b).waitTable = f.waitTable :=
    by unfold Flight.setPred; split <;> rfl
@[simp] theorem Flight.setPred_chain (f : Flight) (n : Nat) (m : Word) (b : Word) : (f.setPred n m b).chain = f.chain :=
    by unfold Flight.setPred; split <;> rfl
@[simp] theorem Flight.setPred_macroStep (f : Flight) (n : Nat) (m : Word) (b : Word) :
    (f.setPred n m b).macroStep = f.macroStep :=
    by unfold Flight.setPred; split <;> rfl
@[simp] theorem Flight.setPred_bars (f : Flight) (n : Nat) (m : Word) (b : Word) : (f.setPred n m b).bars = f.bars :=
    by unfold Flight.setPred; split <;> rfl
@[simp] theorem Flight.setPred_lastIssue (f : Flight) (n : Nat) (m : Word) (b : Word) :
    (f.setPred n m b).lastIssue = f.lastIssue :=
    by unfold Flight.setPred; split <;> rfl
@[simp] theorem Flight.setPred_waitCount (f : Flight) (n : Nat) (m : Word) (b : Word) :
    (f.setPred n m b).waitCount = f.waitCount :=
    by unfold Flight.setPred; split <;> rfl
@[simp] theorem Flight.setPred_block (f : Flight) (n : Nat) (m : Word) (b : Word) : (f.setPred n m b).block = f.block :=
    by unfold Flight.setPred; split <;> rfl
@[simp] theorem Flight.setPred_yielding (f : Flight) (n : Nat) (m : Word) (b : Word) :
    (f.setPred n m b).yielding = f.yielding :=
    by unfold Flight.setPred; split <;> rfl
@[simp] theorem Flight.setPred_halted (f : Flight) (n : Nat) (m : Word) (b : Word) : (f.setPred n m b).halted = f.halted :=
    by unfold Flight.setPred; split <;> rfl
@[simp] theorem Flight.setPred_ended (f : Flight) (n : Nat) (m : Word) (b : Word) : (f.setPred n m b).ended = f.ended :=
    by unfold Flight.setPred; split <;> rfl
@[simp] theorem Flight.setPred_trap (f : Flight) (n : Nat) (m : Word) (b : Word) : (f.setPred n m b).trap = f.trap :=
    by unfold Flight.setPred; split <;> rfl
@[simp] theorem Flight.setPred_pend (f : Flight) (n : Nat) (m : Word) (b : Word) : (f.setPred n m b).pend = f.pend :=
    by unfold Flight.setPred; split <;> rfl
@[simp] theorem Flight.setPred_early (f : Flight) (n : Nat) (m : Word) (b : Word) : (f.setPred n m b).early = f.early :=
    by unfold Flight.setPred; split <;> rfl
@[simp] theorem Flight.setPred_poisoned (f : Flight) (n : Nat) (m : Word) (b : Word) :
    (f.setPred n m b).poisoned = f.poisoned :=
    by unfold Flight.setPred; split <;> rfl

/-! `Flight.advance` -/

@[simp] theorem Flight.advance_key (f : Flight) (s : State) (n : Nat) (nx : Next) : (f.advance s n nx).key = f.key :=
    by unfold Flight.advance; split <;> (try split) <;> (try split) <;> rfl
@[simp] theorem Flight.advance_team (f : Flight) (s : State) (n : Nat) (nx : Next) : (f.advance s n nx).team = f.team :=
    by unfold Flight.advance; split <;> (try split) <;> (try split) <;> rfl
@[simp] theorem Flight.advance_index (f : Flight) (s : State) (n : Nat) (nx : Next) : (f.advance s n nx).index = f.index :=
    by unfold Flight.advance; split <;> (try split) <;> (try split) <;> rfl
@[simp] theorem Flight.advance_vd (f : Flight) (s : State) (n : Nat) (nx : Next) : (f.advance s n nx).vd = f.vd :=
    by unfold Flight.advance; split <;> (try split) <;> (try split) <;> rfl
@[simp] theorem Flight.advance_core (f : Flight) (s : State) (n : Nat) (nx : Next) : (f.advance s n nx).core = f.core :=
    by unfold Flight.advance; split <;> (try split) <;> (try split) <;> rfl
@[simp] theorem Flight.advance_quad (f : Flight) (s : State) (n : Nat) (nx : Next) : (f.advance s n nx).quad = f.quad :=
    by unfold Flight.advance; split <;> (try split) <;> (try split) <;> rfl
@[simp] theorem Flight.advance_role (f : Flight) (s : State) (n : Nat) (nx : Next) : (f.advance s n nx).role = f.role :=
    by unfold Flight.advance; split <;> (try split) <;> (try split) <;> rfl
@[simp] theorem Flight.advance_em (f : Flight) (s : State) (n : Nat) (nx : Next) : (f.advance s n nx).em = f.em :=
    by unfold Flight.advance; split <;> (try split) <;> (try split) <;> rfl
@[simp] theorem Flight.advance_preds (f : Flight) (s : State) (n : Nat) (nx : Next) : (f.advance s n nx).preds = f.preds :=
    by unfold Flight.advance; split <;> (try split) <;> (try split) <;> rfl
@[simp] theorem Flight.advance_flags (f : Flight) (s : State) (n : Nat) (nx : Next) : (f.advance s n nx).flags = f.flags :=
    by unfold Flight.advance; split <;> (try split) <;> (try split) <;> rfl
@[simp] theorem Flight.advance_fstat (f : Flight) (s : State) (n : Nat) (nx : Next) : (f.advance s n nx).fstat = f.fstat :=
    by unfold Flight.advance; split <;> (try split) <;> (try split) <;> rfl
@[simp] theorem Flight.advance_regs (f : Flight) (s : State) (n : Nat) (nx : Next) : (f.advance s n nx).regs = f.regs :=
    by unfold Flight.advance; split <;> (try split) <;> (try split) <;> rfl
@[simp] theorem Flight.advance_classMap (f : Flight) (s : State) (n : Nat) (nx : Next) :
    (f.advance s n nx).classMap = f.classMap :=
    by unfold Flight.advance; split <;> (try split) <;> (try split) <;> rfl
@[simp] theorem Flight.advance_waitTable (f : Flight) (s : State) (n : Nat) (nx : Next) :
    (f.advance s n nx).waitTable = f.waitTable :=
    by unfold Flight.advance; split <;> (try split) <;> (try split) <;> rfl
@[simp] theorem Flight.advance_chain (f : Flight) (s : State) (n : Nat) (nx : Next) : (f.advance s n nx).chain = f.chain :=
    by unfold Flight.advance; split <;> (try split) <;> (try split) <;> rfl
@[simp] theorem Flight.advance_bars (f : Flight) (s : State) (n : Nat) (nx : Next) : (f.advance s n nx).bars = f.bars :=
    by unfold Flight.advance; split <;> (try split) <;> (try split) <;> rfl
@[simp] theorem Flight.advance_lastIssue (f : Flight) (s : State) (n : Nat) (nx : Next) :
    (f.advance s n nx).lastIssue = f.lastIssue :=
    by unfold Flight.advance; split <;> (try split) <;> (try split) <;> rfl
@[simp] theorem Flight.advance_waitCount (f : Flight) (s : State) (n : Nat) (nx : Next) :
    (f.advance s n nx).waitCount = f.waitCount :=
    by unfold Flight.advance; split <;> (try split) <;> (try split) <;> rfl
@[simp] theorem Flight.advance_block (f : Flight) (s : State) (n : Nat) (nx : Next) : (f.advance s n nx).block = f.block :=
    by unfold Flight.advance; split <;> (try split) <;> (try split) <;> rfl
@[simp] theorem Flight.advance_yielding (f : Flight) (s : State) (n : Nat) (nx : Next) :
    (f.advance s n nx).yielding = f.yielding :=
    by unfold Flight.advance; split <;> (try split) <;> (try split) <;> rfl
@[simp] theorem Flight.advance_halted (f : Flight) (s : State) (n : Nat) (nx : Next) : (f.advance s n nx).halted = f.halted :=
    by unfold Flight.advance; split <;> (try split) <;> (try split) <;> rfl
@[simp] theorem Flight.advance_ended (f : Flight) (s : State) (n : Nat) (nx : Next) : (f.advance s n nx).ended = f.ended :=
    by unfold Flight.advance; split <;> (try split) <;> (try split) <;> rfl
@[simp] theorem Flight.advance_trap (f : Flight) (s : State) (n : Nat) (nx : Next) : (f.advance s n nx).trap = f.trap :=
    by unfold Flight.advance; split <;> (try split) <;> (try split) <;> rfl
@[simp] theorem Flight.advance_pend (f : Flight) (s : State) (n : Nat) (nx : Next) : (f.advance s n nx).pend = f.pend :=
    by unfold Flight.advance; split <;> (try split) <;> (try split) <;> rfl
@[simp] theorem Flight.advance_early (f : Flight) (s : State) (n : Nat) (nx : Next) : (f.advance s n nx).early = f.early :=
    by unfold Flight.advance; split <;> (try split) <;> (try split) <;> rfl
@[simp] theorem Flight.advance_poisoned (f : Flight) (s : State) (n : Nat) (nx : Next) :
    (f.advance s n nx).poisoned = f.poisoned :=
    by unfold Flight.advance; split <;> (try split) <;> (try split) <;> rfl

/-! `Flight.landOne` -/

@[simp] theorem Flight.landOne_key (f : Flight) (p : Pending) : (f.landOne p).key = f.key := by
    unfold Flight.landOne
    exact (foldl_keeps Flight.key _ (fun _ _ => by simp) _ _).trans
      (foldl_keeps Flight.key _ (fun _ _ => by simp) _ _)
@[simp] theorem Flight.landOne_team (f : Flight) (p : Pending) : (f.landOne p).team = f.team := by
    unfold Flight.landOne
    exact (foldl_keeps Flight.team _ (fun _ _ => by simp) _ _).trans
      (foldl_keeps Flight.team _ (fun _ _ => by simp) _ _)
@[simp] theorem Flight.landOne_index (f : Flight) (p : Pending) : (f.landOne p).index = f.index := by
    unfold Flight.landOne
    exact (foldl_keeps Flight.index _ (fun _ _ => by simp) _ _).trans
      (foldl_keeps Flight.index _ (fun _ _ => by simp) _ _)
@[simp] theorem Flight.landOne_vd (f : Flight) (p : Pending) : (f.landOne p).vd = f.vd := by
    unfold Flight.landOne
    exact (foldl_keeps Flight.vd _ (fun _ _ => by simp) _ _).trans
      (foldl_keeps Flight.vd _ (fun _ _ => by simp) _ _)
@[simp] theorem Flight.landOne_core (f : Flight) (p : Pending) : (f.landOne p).core = f.core := by
    unfold Flight.landOne
    exact (foldl_keeps Flight.core _ (fun _ _ => by simp) _ _).trans
      (foldl_keeps Flight.core _ (fun _ _ => by simp) _ _)
@[simp] theorem Flight.landOne_quad (f : Flight) (p : Pending) : (f.landOne p).quad = f.quad := by
    unfold Flight.landOne
    exact (foldl_keeps Flight.quad _ (fun _ _ => by simp) _ _).trans
      (foldl_keeps Flight.quad _ (fun _ _ => by simp) _ _)
@[simp] theorem Flight.landOne_role (f : Flight) (p : Pending) : (f.landOne p).role = f.role := by
    unfold Flight.landOne
    exact (foldl_keeps Flight.role _ (fun _ _ => by simp) _ _).trans
      (foldl_keeps Flight.role _ (fun _ _ => by simp) _ _)
@[simp] theorem Flight.landOne_pc (f : Flight) (p : Pending) : (f.landOne p).pc = f.pc := by
    unfold Flight.landOne
    exact (foldl_keeps Flight.pc _ (fun _ _ => by simp) _ _).trans
      (foldl_keeps Flight.pc _ (fun _ _ => by simp) _ _)
@[simp] theorem Flight.landOne_em (f : Flight) (p : Pending) : (f.landOne p).em = f.em := by
    unfold Flight.landOne
    exact (foldl_keeps Flight.em _ (fun _ _ => by simp) _ _).trans
      (foldl_keeps Flight.em _ (fun _ _ => by simp) _ _)
@[simp] theorem Flight.landOne_flags (f : Flight) (p : Pending) : (f.landOne p).flags = f.flags := by
    unfold Flight.landOne
    exact (foldl_keeps Flight.flags _ (fun _ _ => by simp) _ _).trans
      (foldl_keeps Flight.flags _ (fun _ _ => by simp) _ _)
@[simp] theorem Flight.landOne_classMap (f : Flight) (p : Pending) : (f.landOne p).classMap = f.classMap := by
    unfold Flight.landOne
    exact (foldl_keeps Flight.classMap _ (fun _ _ => by simp) _ _).trans
      (foldl_keeps Flight.classMap _ (fun _ _ => by simp) _ _)
@[simp] theorem Flight.landOne_waitTable (f : Flight) (p : Pending) : (f.landOne p).waitTable = f.waitTable := by
    unfold Flight.landOne
    exact (foldl_keeps Flight.waitTable _ (fun _ _ => by simp) _ _).trans
      (foldl_keeps Flight.waitTable _ (fun _ _ => by simp) _ _)
@[simp] theorem Flight.landOne_chain (f : Flight) (p : Pending) : (f.landOne p).chain = f.chain := by
    unfold Flight.landOne
    exact (foldl_keeps Flight.chain _ (fun _ _ => by simp) _ _).trans
      (foldl_keeps Flight.chain _ (fun _ _ => by simp) _ _)
@[simp] theorem Flight.landOne_macroStep (f : Flight) (p : Pending) : (f.landOne p).macroStep = f.macroStep := by
    unfold Flight.landOne
    exact (foldl_keeps Flight.macroStep _ (fun _ _ => by simp) _ _).trans
      (foldl_keeps Flight.macroStep _ (fun _ _ => by simp) _ _)
@[simp] theorem Flight.landOne_bars (f : Flight) (p : Pending) : (f.landOne p).bars = f.bars := by
    unfold Flight.landOne
    exact (foldl_keeps Flight.bars _ (fun _ _ => by simp) _ _).trans
      (foldl_keeps Flight.bars _ (fun _ _ => by simp) _ _)
@[simp] theorem Flight.landOne_lastIssue (f : Flight) (p : Pending) : (f.landOne p).lastIssue = f.lastIssue := by
    unfold Flight.landOne
    exact (foldl_keeps Flight.lastIssue _ (fun _ _ => by simp) _ _).trans
      (foldl_keeps Flight.lastIssue _ (fun _ _ => by simp) _ _)
@[simp] theorem Flight.landOne_waitCount (f : Flight) (p : Pending) : (f.landOne p).waitCount = f.waitCount := by
    unfold Flight.landOne
    exact (foldl_keeps Flight.waitCount _ (fun _ _ => by simp) _ _).trans
      (foldl_keeps Flight.waitCount _ (fun _ _ => by simp) _ _)
@[simp] theorem Flight.landOne_block (f : Flight) (p : Pending) : (f.landOne p).block = f.block := by
    unfold Flight.landOne
    exact (foldl_keeps Flight.block _ (fun _ _ => by simp) _ _).trans
      (foldl_keeps Flight.block _ (fun _ _ => by simp) _ _)
@[simp] theorem Flight.landOne_yielding (f : Flight) (p : Pending) : (f.landOne p).yielding = f.yielding := by
    unfold Flight.landOne
    exact (foldl_keeps Flight.yielding _ (fun _ _ => by simp) _ _).trans
      (foldl_keeps Flight.yielding _ (fun _ _ => by simp) _ _)
@[simp] theorem Flight.landOne_halted (f : Flight) (p : Pending) : (f.landOne p).halted = f.halted := by
    unfold Flight.landOne
    exact (foldl_keeps Flight.halted _ (fun _ _ => by simp) _ _).trans
      (foldl_keeps Flight.halted _ (fun _ _ => by simp) _ _)
@[simp] theorem Flight.landOne_ended (f : Flight) (p : Pending) : (f.landOne p).ended = f.ended := by
    unfold Flight.landOne
    exact (foldl_keeps Flight.ended _ (fun _ _ => by simp) _ _).trans
      (foldl_keeps Flight.ended _ (fun _ _ => by simp) _ _)
@[simp] theorem Flight.landOne_trap (f : Flight) (p : Pending) : (f.landOne p).trap = f.trap := by
    unfold Flight.landOne
    exact (foldl_keeps Flight.trap _ (fun _ _ => by simp) _ _).trans
      (foldl_keeps Flight.trap _ (fun _ _ => by simp) _ _)
@[simp] theorem Flight.landOne_pend (f : Flight) (p : Pending) : (f.landOne p).pend = f.pend := by
    unfold Flight.landOne
    exact (foldl_keeps Flight.pend _ (fun _ _ => by simp) _ _).trans
      (foldl_keeps Flight.pend _ (fun _ _ => by simp) _ _)
@[simp] theorem Flight.landOne_early (f : Flight) (p : Pending) : (f.landOne p).early = f.early := by
    unfold Flight.landOne
    exact (foldl_keeps Flight.early _ (fun _ _ => by simp) _ _).trans
      (foldl_keeps Flight.early _ (fun _ _ => by simp) _ _)
@[simp] theorem Flight.landOne_poisoned (f : Flight) (p : Pending) : (f.landOne p).poisoned = f.poisoned := by
    unfold Flight.landOne
    exact (foldl_keeps Flight.poisoned _ (fun _ _ => by simp) _ _).trans
      (foldl_keeps Flight.poisoned _ (fun _ _ => by simp) _ _)

/-! `Flight.resume` -/

@[simp] theorem Flight.resume_key (f : Flight) : (f.resume).key = f.key :=
    by unfold Flight.resume; exact foldl_keeps Flight.key _ (fun _ _ => by simp) _ _
@[simp] theorem Flight.resume_team (f : Flight) : (f.resume).team = f.team :=
    by unfold Flight.resume; exact foldl_keeps Flight.team _ (fun _ _ => by simp) _ _
@[simp] theorem Flight.resume_index (f : Flight) : (f.resume).index = f.index :=
    by unfold Flight.resume; exact foldl_keeps Flight.index _ (fun _ _ => by simp) _ _
@[simp] theorem Flight.resume_vd (f : Flight) : (f.resume).vd = f.vd :=
    by unfold Flight.resume; exact foldl_keeps Flight.vd _ (fun _ _ => by simp) _ _
@[simp] theorem Flight.resume_core (f : Flight) : (f.resume).core = f.core :=
    by unfold Flight.resume; exact foldl_keeps Flight.core _ (fun _ _ => by simp) _ _
@[simp] theorem Flight.resume_quad (f : Flight) : (f.resume).quad = f.quad :=
    by unfold Flight.resume; exact foldl_keeps Flight.quad _ (fun _ _ => by simp) _ _
@[simp] theorem Flight.resume_role (f : Flight) : (f.resume).role = f.role :=
    by unfold Flight.resume; exact foldl_keeps Flight.role _ (fun _ _ => by simp) _ _
@[simp] theorem Flight.resume_pc (f : Flight) : (f.resume).pc = f.pc :=
    by unfold Flight.resume; exact foldl_keeps Flight.pc _ (fun _ _ => by simp) _ _
@[simp] theorem Flight.resume_em (f : Flight) : (f.resume).em = f.em :=
    by unfold Flight.resume; exact foldl_keeps Flight.em _ (fun _ _ => by simp) _ _
@[simp] theorem Flight.resume_flags (f : Flight) : (f.resume).flags = f.flags :=
    by unfold Flight.resume; exact foldl_keeps Flight.flags _ (fun _ _ => by simp) _ _
@[simp] theorem Flight.resume_classMap (f : Flight) : (f.resume).classMap = f.classMap :=
    by unfold Flight.resume; exact foldl_keeps Flight.classMap _ (fun _ _ => by simp) _ _
@[simp] theorem Flight.resume_waitTable (f : Flight) : (f.resume).waitTable = f.waitTable :=
    by unfold Flight.resume; exact foldl_keeps Flight.waitTable _ (fun _ _ => by simp) _ _
@[simp] theorem Flight.resume_chain (f : Flight) : (f.resume).chain = Chain.closed := rfl
@[simp] theorem Flight.resume_macroStep (f : Flight) : (f.resume).macroStep = f.macroStep :=
    by unfold Flight.resume; exact foldl_keeps Flight.macroStep _ (fun _ _ => by simp) _ _
@[simp] theorem Flight.resume_bars (f : Flight) : (f.resume).bars = f.bars :=
    by unfold Flight.resume; exact foldl_keeps Flight.bars _ (fun _ _ => by simp) _ _
@[simp] theorem Flight.resume_lastIssue (f : Flight) : (f.resume).lastIssue = none := rfl
@[simp] theorem Flight.resume_waitCount (f : Flight) : (f.resume).waitCount = 0 := rfl
@[simp] theorem Flight.resume_block (f : Flight) : (f.resume).block = f.block :=
    by unfold Flight.resume; exact foldl_keeps Flight.block _ (fun _ _ => by simp) _ _
@[simp] theorem Flight.resume_yielding (f : Flight) : (f.resume).yielding = f.yielding :=
    by unfold Flight.resume; exact foldl_keeps Flight.yielding _ (fun _ _ => by simp) _ _
@[simp] theorem Flight.resume_halted (f : Flight) : (f.resume).halted = false := rfl
@[simp] theorem Flight.resume_ended (f : Flight) : (f.resume).ended = f.ended :=
    by unfold Flight.resume; exact foldl_keeps Flight.ended _ (fun _ _ => by simp) _ _
@[simp] theorem Flight.resume_trap (f : Flight) : (f.resume).trap = f.trap :=
    by unfold Flight.resume; exact foldl_keeps Flight.trap _ (fun _ _ => by simp) _ _
@[simp] theorem Flight.resume_pend (f : Flight) : (f.resume).pend = [] := rfl
@[simp] theorem Flight.resume_early (f : Flight) : (f.resume).early = f.early :=
    by unfold Flight.resume; exact foldl_keeps Flight.early _ (fun _ _ => by simp) _ _
@[simp] theorem Flight.resume_poisoned (f : Flight) : (f.resume).poisoned = f.poisoned :=
    by unfold Flight.resume; exact foldl_keeps Flight.poisoned _ (fun _ _ => by simp) _ _

end Sys2Proof.Machine
end

