-- ==== Sys2Proof/Laws/Tables.lean ====
section
/-!
SUPPORT. Keyed lists, and the lookups of the state's tables after their updates.
-/

namespace Sys2Proof

theorem kget_key {α : Type} {key : α → Nat} {k : Nat} {as : List α} {a : α} (h : kget key k as = some a) : key a = k := by
  induction as with
  | nil => simp [kget] at h
  | cons b bs ih =>
    simp only [kget] at h
    split at h
    · cases h; assumption
    · exact ih h

theorem kget_mem {α : Type} {key : α → Nat} {k : Nat} {as : List α} {a : α} (h : kget key k as = some a) : a ∈ as := by
  induction as with
  | nil => simp [kget] at h
  | cons b bs ih =>
    simp only [kget] at h
    split at h
    · cases h; simp
    · exact List.mem_cons_of_mem _ (ih h)

@[simp] theorem kget_kset_self {α : Type} (key : α → Nat) (a : α) (as : List α) : kget key (key a) (kset key a as) = some a := by
  induction as with
  | nil => simp [kset, kget]
  | cons b bs ih =>
    simp only [kset]
    split
    · simp [kget]
    · simp [kget, *]

theorem kget_kset_ne {α : Type} {key : α → Nat} {a : α} {k : Nat} (h : key a ≠ k) (as : List α) :
    kget key k (kset key a as) = kget key k as := by
  induction as with
  | nil => simp [kset, kget, h]
  | cons b bs ih =>
    simp only [kset]
    split
    · rename_i hb; simp [kget, h, show key b ≠ k by rw [hb]; exact h]
    · simp [kget, ih]

/-- A map that keeps keys carries lookups over. -/
theorem kget_map {α : Type} {key : α → Nat} {g : α → α} (hg : ∀ a, key (g a) = key a) (k : Nat) (as : List α) :
    kget key k (as.map g) = (kget key k as).map g := by
  induction as with
  | nil => simp [kget]
  | cons b bs ih =>
    simp only [List.map_cons, kget, hg]
    split <;> simp [ih]

theorem listSet_length {α : Type} (as : List α) (i : Nat) (a : α) : (listSet as i a).length = as.length := by
  induction as generalizing i with
  | nil => simp [listSet]
  | cons b bs ih => cases i <;> simp [listSet, ih]

theorem listSet_getD_self {α : Type} {as : List α} {i : Nat} (h : i < as.length) (a d : α) : (listSet as i a).getD i d = a := by
  induction as generalizing i with
  | nil => simp at h
  | cons b bs ih =>
    cases i with
    | zero => simp [listSet]
    | succ n => simpa [listSet] using ih (by simpa using h)

theorem listSet_getD_ne {α : Type} (as : List α) {i j : Nat} (h : j ≠ i) (a d : α) :
    (listSet as i a).getD j d = as.getD j d := by
  induction as generalizing i j with
  | nil => simp [listSet]
  | cons b bs ih =>
    cases i with
    | zero => cases j with
      | zero => exact absurd rfl h
      | succ m => simp [listSet]
    | succ n => cases j with
      | zero => simp [listSet]
      | succ m => simpa [listSet] using ih (i := n) (j := m) (by omega)

theorem lanes_at_tab (g : Nat → Word) {l : Nat} (h : l < 32) : (Lanes.tab g).at l = g l := by
  unfold Lanes.at Lanes.tab laneIds
  rw [List.getD_eq_getElem?_getD, List.getElem?_map, List.getElem?_range h]
  rfl

end Sys2Proof

namespace Sys2Proof.Machine

theorem State.flight_key {s : State} {k : Nat} {f : Flight} (h : s.flight k = some f) : f.key = k := kget_key h

@[simp] theorem State.flight_putFlight_self (s : State) (f : Flight) : (s.putFlight f).flight f.key = some f :=
  kget_kset_self _ _ _

theorem State.flight_putFlight_ne (s : State) {f : Flight} {k : Nat} (h : f.key ≠ k) : (s.putFlight f).flight k = s.flight k :=
  kget_kset_ne h _

theorem State.flight_modFlight_self {s : State} {k : Nat} {f : Flight} (h : s.flight k = some f) (g : Flight → Flight)
    (hg : (g f).key = f.key) : (s.modFlight k g).flight k = some (g f) := by
  have hk := State.flight_key h
  unfold State.modFlight
  rw [h]
  have h2 := State.flight_putFlight_self s (g f)
  rwa [hg, hk] at h2

theorem State.flight_modFlight_ne (s : State) {k j : Nat} (h : k ≠ j) (g : Flight → Flight) (hg : ∀ f, (g f).key = f.key) :
    (s.modFlight k g).flight j = s.flight j := by
  unfold State.modFlight
  split
  · rename_i f hf
    exact State.flight_putFlight_ne s (by rw [hg, State.flight_key hf]; exact h)
  · rfl

@[simp] theorem State.team_putTeam_self (s : State) (t : Team) : (s.putTeam t).team t.key = some t := kget_kset_self _ _ _
theorem State.team_putTeam_ne (s : State) {t : Team} {k : Nat} (h : t.key ≠ k) : (s.putTeam t).team k = s.team k :=
  kget_kset_ne h _
theorem State.team_key {s : State} {k : Nat} {t : Team} (h : s.team k = some t) : t.key = k := kget_key h

@[simp] theorem State.grid_putGrid_self (s : State) (g : Grid) : (s.putGrid g).grid g.key = some g := kget_kset_self _ _ _
theorem State.grid_putGrid_ne (s : State) {g : Grid} {k : Nat} (h : g.key ≠ k) : (s.putGrid g).grid k = s.grid k :=
  kget_kset_ne h _
theorem State.grid_key {s : State} {k : Nat} {g : Grid} (h : s.grid k = some g) : g.key = k := kget_key h

@[simp] theorem State.copy_putCopy_self (s : State) (c : Copy) : (s.putCopy c).copy c.key = some c := kget_kset_self _ _ _
theorem State.copy_key {s : State} {k : Nat} {c : Copy} (h : s.copy k = some c) : c.key = k := kget_key h

@[simp] theorem State.mxCmd_putMxCmd_self (s : State) (c : MxCmd) : (s.putMxCmd c).mxCmd c.key = some c := kget_kset_self _ _ _
theorem State.mxCmd_key {s : State} {k : Nat} {c : MxCmd} (h : s.mxCmd k = some c) : c.key = k := kget_key h

@[simp] theorem State.quad_putQuad_self (s : State) (q : Quad) : (s.putQuad q).quad q.num = q := by
  simp [State.quad, State.putQuad]
theorem State.quad_putQuad_eq (s : State) {q : Quad} {n : Nat} (h : q.num = n) : (s.putQuad q).quad n = q := by
  rw [← h]; exact State.quad_putQuad_self s q
theorem State.quad_putQuad_ne (s : State) {q : Quad} {n : Nat} (h : q.num ≠ n) : (s.putQuad q).quad n = s.quad n := by
  simp [State.quad, State.putQuad, kget_kset_ne h]
theorem State.quad_num (s : State) (n : Nat) : (s.quad n).num = n := by
  unfold State.quad
  cases h : kget Quad.num n s.quads with
  | none => rfl
  | some q => exact kget_key h

@[simp] theorem State.owner_putOwner_self (s : State) (o : Owner) : (s.putOwner o).owner o.vd = o := by
  simp [State.owner, State.putOwner]
theorem State.owner_putOwner_ne (s : State) {o : Owner} {n : Nat} (h : o.vd ≠ n) : (s.putOwner o).owner n = s.owner n := by
  simp [State.owner, State.putOwner, kget_kset_ne h]
@[simp] theorem State.owner_vd (s : State) (n : Nat) : (s.owner n).vd = n := by
  unfold State.owner
  cases h : kget Owner.vd n s.owners with
  | none => rfl
  | some q => exact kget_key h

theorem State.owner_modOwner_self (s : State) {vd : Nat} {g : Owner → Owner} (h : (g (s.owner vd)).vd = vd) :
    (s.modOwner vd g).owner vd = g (s.owner vd) := by
  have := State.owner_putOwner_self s (g (s.owner vd))
  rwa [h] at this
theorem State.owner_modOwner_ne (s : State) {vd n : Nat} {g : Owner → Owner} (hv : (g (s.owner vd)).vd = vd) (h : vd ≠ n) :
    (s.modOwner vd g).owner n = s.owner n := State.owner_putOwner_ne s (by rw [hv]; exact h)

@[simp] theorem State.part_putPart_self (s : State) (p : Partition) : (s.putPart p).part p.num = p := by
  simp [State.part, State.putPart]
theorem State.part_putPart_ne (s : State) {p : Partition} {n : Nat} (h : p.num ≠ n) : (s.putPart p).part n = s.part n := by
  simp [State.part, State.putPart, kget_kset_ne h]
@[simp] theorem State.part_num (s : State) (n : Nat) : (s.part n).num = n := by
  unfold State.part
  cases h : kget Partition.num n s.parts with
  | none => rfl
  | some q => exact kget_key h

@[simp] theorem State.link_putLink_self (s : State) (l : Link) : (s.putLink l).link l.num = l := by
  simp [State.link, State.putLink]
@[simp] theorem State.mxCore_putMx_self (s : State) (m : MxCore) : (s.putMx m).mxCore m.core = m := by
  simp [State.mxCore, State.putMx]

end Sys2Proof.Machine
end

