-- ==== Sys2Proof/Safety.lean ====
section
/-!
DEFINITION. The vocabulary of claims: what counts as a safe run, when an instruction passes its checks at issue, what a
state keeps when an instruction issues, and the result that each fixed-latency instruction puts on its way.
-/

namespace Sys2Proof

/-- Physical memory is in canonical form. -/
def memoryWf (s : Machine.State) : Bool := s.mem.wf

/-- The outcome is a next state. -/
def goesOn (o : Host.Outcome Machine.State Machine.Fault Machine.Refusal) : Prop := ∃ s, o = .next s

end Sys2Proof

namespace Sys2Proof.Machine

/-! ### At issue -/

/-- What an instruction that passes its checks sees (02 R49; 03 R87, R93). -/
def Ctx.atIssue (v : View) (s : State) (f : Flight) (x : XF) : Ctx :=
  ⟨(s.clearLatches f).drawn, f, x, v.op9, v.len, s.now f.vd⟩

/-- The instruction of view `v` passes every check of 02 R49 for the current flight `f`, with fields `x`: it is not marked O
in lane mode (15 R325), it may stand in a macro body if one is active (03 R93), its set, WS, unused-field and modifier values
are allowed, and its register and predicate fields name what is there. -/
structure AtIssue (v : View) (s : State) (f : Flight) (x : XF) : Prop where
  cur    : s.curFlight = some f
  mode   : (rowOf v.op9).owner = true → f.role.isOwner = true
  nest   : f.macroStep.isSome = true → isControl v.op9 = false ∧ v.op9 ≠ 0x183
  fields : s.fieldsOf f v = .ok x
  enc    : v.encOk = true
  opnd   : v.opndOk = true
  regs   : fieldsOk (rowOf v.op9) f x = true

/-- The destination field writes no register, or names a general one (a pair: two), under which no result breaks a shape
class (02 R44, R45; 04 R110, R113). -/
def Ctx.anyFits (c : Ctx) (pair : Bool) : Prop :=
  c.x.ws = true ∨ 240 ≤ c.x.d.toNat ∨
    (c.f.cls c.x.d.toNat = .general ∧ (pair = true → c.f.cls (c.x.d.toNat + 1) = .general))

/-- The writes of a result under `anyFits`: register, lanes, values. -/
def Ctx.writes (c : Ctx) (o : FixedOut) : List (Nat × Word × Lanes) :=
  if c.x.ws || 240 ≤ c.x.d.toNat || o.mask = 0 then []
  else (c.x.d.toNat, o.mask, o.lo) :: match o.hi with
    | some hi => [(c.x.d.toNat + 1, o.mask, hi)]
    | none => []

/-- What a result on its way writes: register, lanes, values. -/
def Pending.writes (p : Pending) : List (Nat × Word × Lanes) := p.regs.map fun q => (q.reg, q.mask, q.vals)

/-- The current flight `g` after its instruction has issued in sequence, with the results `ps` on their way and the flags
`flags`: only its PC, macro step, chain and issue bookkeeping differ, and outside a macro body the PC is the next
instruction's (03 R75, R79, R93). -/
def Ctx.SeqIssued (c : Ctx) (ps : List Pending) (flags : List Nat) (g : Flight) : Prop :=
  g = { c.f with
    pc := g.pc, macroStep := g.macroStep, chain := g.chain, pend := c.f.pend ++ ps, flags := flags
    lastIssue := some c.now, waitCount := 0, block := .none, yielding := none }
  ∧ (c.f.macroStep = none → g.pc = (c.f.pc + dw c.len) &&& pcMask ∧ g.macroStep = none)

/-- Outside the current flight `t` keeps what an instruction that only issues keeps: every other flight but the waits of YIELD
in its quadrant, every other quadrant, the placement order of its own, every owner but its progress count, and every byte of
memory. -/
def Ctx.Others (c : Ctx) (s t : State) : Prop :=
  (∀ k, k ≠ c.f.key → t.flight k = (s.flight k).map fun h => if h.quad = c.f.quad then { h with yielding := none } else h)
  ∧ (∀ n, n ≠ c.f.quad → t.quad n = s.quad n)
  ∧ (t.quad c.f.quad).order = (s.quad c.f.quad).order
  ∧ (∀ vd, t.owner vd = { s.owner vd with progress := (t.owner vd).progress })
  ∧ ∀ a, t.byte a = s.byte a

/-- Outside the current flight an instruction that only issues changes nothing but the latches of its quadrant, the waits of
YIELD there, its owner's progress count and the model's own counter of free values: every other register of every other
flight, every owner register, and every byte of memory stand. -/
def Ctx.Elsewhere (c : Ctx) (s t : State) : Prop :=
  t = { s with flights := t.flights, quads := t.quads, owners := t.owners, free := t.free } ∧ c.Others s t

/-- The flags after a kind-V instruction has issued: its set flag counts one more (03 R82). -/
def Ctx.flagsUp (c : Ctx) : List Nat :=
  match c.flag with
  | some n => listSet c.f.flags n (min 63 (c.f.flags.getD n 0 + 1))
  | none => c.f.flags

/-- The current flight `g` after a kind-V instruction has issued: its set flag is up, its registers stand until it completes, and
only what SeqIssued names has changed (03 R82, R83). -/
def Ctx.VarIssued (c : Ctx) (g : Flight) : Prop :=
  g = { c.f with
    pc := g.pc, macroStep := g.macroStep, chain := g.chain, flags := c.flagsUp
    lastIssue := some c.now, waitCount := 0, block := .none, yielding := none }
  ∧ (c.f.macroStep = none → g.pc = (c.f.pc + dw c.len) &&& pcMask ∧ g.macroStep = none)

/-- Byte `i` of a line below L1 and L2: as the LLC holds it, else as memory does. -/
def State.below (s : State) (ln i : Nat) : Byte :=
  match kget LlcLine.line ln s.llc with
  | some l => l.bytes.getD i 0
  | none => s.mem.get (128 * ln + i)

/-- Memory is in canonical form and the caches agree with it: the LLC holds a line once and only lines of HBM, its clean bytes agree
with memory; an L1 or L2 copy agrees with what lies below it but in the bytes that it has dirty, which an M copy alone has, and no
other copy stands beside that one; no stash window is open (17 R371, R375). -/
structure Coherent (s : State) : Prop where
  form    : s.mem.wf = true
  llc     : ∀ l ∈ s.llc, l.bytes.length = 128 ∧ llcMay l.line = true
  once    : (s.llc.map LlcLine.line).Nodup
  clean   : ∀ l ∈ s.llc, ∀ i, i < 128 → l.dirty.getLsbD i = false → l.bytes.getD i 0 = s.mem.get (128 * l.line + i)
  upper   : ∀ c ∈ s.lines, c.bytes.length = 128 ∧ (c.state ≠ .M → c.dirty = 0)
    ∧ ∀ i, i < 128 → c.dirty.getLsbD i = false → c.bytes.getD i 0 = s.below c.line i
  owned   : ∀ c ∈ s.lines, ∀ d ∈ s.lines, c.line = d.line → c.state = .M → c = d
  windows : ∀ u ∈ s.teams, u.windows = []

/-! ### Variable-latency work -/

/-- Outside the queues the current instruction has only issued. -/
def Ctx.Entered (c : Ctx) (s t : State) : Prop := (∃ g, t.flight c.f.key = some g ∧ c.VarIssued g) ∧ c.Others s t

/-- The operation `o` of the current instruction has entered the memory queue; nothing of it has been performed, and its registers
stand (03 R82, R83; 08 R192, R193). -/
def Ctx.MemEntered (c : Ctx) (s t : State) (o : MemOp) : Prop :=
  c.Entered s t
  ∧ t = { s with
    flights := t.flights, quads := t.quads, owners := t.owners, free := t.free, recs := t.recs
    memOps := s.memOps ++ [{ o with key := s.nextKey }], nextKey := s.nextKey + 1 }

/-- The instruction of the launch, owner and system classes has entered its queue with what it does at completion. -/
def Ctx.SysEntered (c : Ctx) (s t : State) (kind : SysKind) : Prop :=
  c.Entered s t
  ∧ t = { s with
    flights := t.flights, quads := t.quads, owners := t.owners, free := t.free
    sysOps := s.sysOps ++ [⟨s.nextKey, c.f.key, kind, c.x.d.toNat, c.f.em, c.flag, c.f.pc⟩], nextKey := s.nextKey + 1 }

/-- The flight `h` after a control-class instruction has issued that leads to `pc`: its chain is closed (03 R84). -/
def Ctx.left (c : Ctx) (h : Flight) (pc : DWord) : Flight :=
  { h with
    pc := pc &&& pcMask, chain := Chain.closed, lastIssue := some c.now, waitCount := 0, block := .none, yielding := none }

/-! ### Results by instruction -/

/-- The latency and the result of each fixed-latency instruction with one register result: its lanes, or the trap of a check of
its own (03 R79, R103, R107; 04 R118 to R127; 05 R153 to R163; 07 R172 to R177; 12 R290; 14 R323; 15 R355, R356). LEA and
BSEAL, whose results come with other effects, are apart. -/
def fixedResult (i : Instr) : Option (Nat × (Ctx → Chk FixedOut)) :=
  match i with
  | .iadd _ | .iaddW32 _ | .iaddSatW32 _ | .iaddH16 _ => some (4, outIadd)
  | .isub _ | .isubW32 _ | .isubSatW32 _ | .isubH16 _ => some (4, outIsub)
  | .imul _ | .imulW32 _ => some (6, outImul)
  | .imulh _ | .imulhI32W32 _ | .imulhN32W32 _ => some (6, outImulh)
  | .imla _ => some (6, outImla)
  | .imlalI32 _ => some (6, outImlalI32)
  | .imlalN32 _ => some (6, outImlalN32)
  | .imin _ | .iminI32W32 _ | .iminN32W32 _ | .iminH16 _ => some (4, outImin)
  | .imax _ | .imaxI32W32 _ | .imaxN32W32 _ | .imaxH16 _ => some (4, outImax)
  | .iabs _ | .iabsW32 _ => some (4, outIabs)
  | .ineg _ | .inegW32 _ => some (4, outIneg)
  | .iaddminI32 _ => some (4, outIaddminI32)
  | .iaddminI16x2 _ => some (4, outIaddminI16x2)
  | .and _ | .andW32 _ | .andH16 _ => some (4, outAnd)
  | .or _ | .orW32 _ | .orH16 _ => some (4, outOr)
  | .xor _ | .xorW32 _ | .xorH16 _ => some (4, outXor)
  | .andn _ | .andnW32 _ => some (4, outAndn)
  | .not _ | .notW32 _ => some (4, outNot)
  | .shl _ | .shlW32 _ | .shlH16 _ => some (4, outShl)
  | .shr _ | .shrW32 _ | .shrH16 _ => some (4, outShr)
  | .sar _ | .sarW32 _ | .sarH16 _ => some (4, outSar)
  | .rotl _ | .rotlW32 _ => some (4, outRotl)
  | .shlImm _ | .shlImmW32 _ => some (4, outShlImm)
  | .shrImm _ | .shrImmW32 _ => some (4, outShrImm)
  | .sarImm _ | .sarImmW32 _ => some (4, outSarImm)
  | .rotlImm _ | .rotlImmW32 _ => some (4, outRotlImm)
  | .clz _ | .clzW32 _ => some (4, outClz)
  | .popc _ | .popcW32 _ => some (4, outPopc)
  | .brev _ | .brevW32 _ => some (4, outBrev)
  | .bfxN32 _ => some (4, outBfxN32)
  | .bfxI32 _ => some (4, outBfxI32)
  | .bfi _ => some (4, outBfi)
  | .sel _ => some (4, outSel)
  | .mov _ | .movW32 _ | .movH16 _ => some (4, outMov)
  | .movi _ | .moviW32 _ => some (4, outMovi)
  | .movhi _ => some (4, outMovhi)
  | .fadd _ | .faddW32 _ | .faddH16 _ => some (6, outFadd)
  | .fsub _ | .fsubW32 _ | .fsubH16 _ => some (6, outFsub)
  | .fmul _ | .fmulW32 _ | .fmulH16 _ => some (6, outFmul)
  | .fmacRn _ => some (6, outFmacRn)
  | .fmacRz _ => some (6, outFmacRz)
  | .fmacRu _ => some (6, outFmacRu)
  | .fmacRd _ => some (6, outFmacRd)
  | .fmin _ | .fminW32 _ | .fminH16 _ => some (6, outFmin)
  | .fmax _ | .fmaxW32 _ | .fmaxH16 _ => some (6, outFmax)
  | .fclass _ => some (6, outFclass)
  | .frint _ => some (6, outFrint)
  | .pkadd _ | .pkaddF16x2W32 _ | .pkaddBf16x2W32 _ => some (6, outPkadd)
  | .pkmul _ | .pkmulF16x2W32 _ | .pkmulBf16x2W32 _ => some (6, outPkmul)
  | .pkfmaF16x2 _ => some (6, outPkfmaF16x2)
  | .pkfmaBf16x2 _ => some (6, outPkfmaBf16x2)
  | .cvtF _ => some (6, outCvtF)
  | .cvtI _ => some (6, outCvtI)
  | .lperm _ | .lpermW32 _ => some (8, outLperm)
  | .lshu _ | .lshuW32 _ => some (8, outLshu)
  | .lshd _ | .lshdW32 _ => some (8, outLshd)
  | .lxor _ | .lxorW32 _ => some (8, outLxor)
  | .lrot _ => some (8, outLrot)
  | .pollMask _ | .pollMaskW32 _ => some (8, outPollMask)
  | .leqMask _ => some (8, outLeqMask)
  | .leqAll _ => some (8, outLeqAll)
  | .redAdd _ => some (8, outRedAdd)
  | .redMin _ => some (8, outRedMin)
  | .redMax _ => some (8, outRedMax)
  | .redAnd _ => some (8, outRedAnd)
  | .redOr _ => some (8, outRedOr)
  | .redXor _ => some (8, outRedXor)
  | .redFadd _ => some (8, outRedFadd)
  | .redFmin _ => some (8, outRedFmin)
  | .redFmax _ => some (8, outRedFmax)
  | .scanAdd _ => some (8, outScanAdd)
  | .emget _ | .emgetW32 _ => some (4, outEmget)
  | .getsr _ | .getsrW32 _ => some (4, outGetsr)
  | .varq _ => some (4, outVarq)
  | .mstat _ => some (4, outMstat)
  | .ownget _ => some (4, outOwnget)
  | .lget _ => some (4, outLget)
  | _ => none

/-- The same for a predicate result (04 R126; 05 R155; 07 R173). -/
def predResult (i : Instr) : Option (Nat × (Ctx → Chk (Word × Flags))) :=
  match i with
  | .icmp _ | .icmpEqW32 _ | .icmpNeW32 _ | .icmpLtW32 _ | .icmpLeW32 _ | .icmpLtN32W32 _ | .icmpLeN32W32 _ => some (4, outIcmp)
  | .fcmp _ => some (6, outFcmp)
  | .pollAny _ => some (8, outPollAny)
  | .pollAll _ => some (8, outPollAll)
  | _ => none

/-- The instruction `i` issued in `c`, with the one-register or pair result `o` on its way: due after `lat` cycles, to the lanes
of its mask, with FSTAT bits only if a lane is active and its chain latch; nothing else changes. This holds of every state in which
`i` passes its checks with this context and its destination takes any lanes (03 R79, R86; 02 R49). -/
def Ctx.Lands (c : Ctx) (i : Instr) (lat : Nat) (o : FixedOut) : Prop :=
  ∀ (v : View) (s : State) (f : Flight) (x : XF), i.view = some v → AtIssue v s f x → Ctx.atIssue v s f x = c →
    c.anyFits o.hi.isSome →
    ∃ t g p, exec i s = .next t ∧ t.flight f.key = some g ∧ c.SeqIssued [p] f.flags g ∧ c.Elsewhere s t
      ∧ p.due = s.now f.vd + lat ∧ p.writes = c.writes o ∧ p.preds = []
      ∧ p.fstat = (if o.mask = 0 then 0 else o.flags) ∧ p.latch = c.latchPut o.mask o.lo

/-- The same for a predicate result: the bits `b` of the active lanes, with the FSTAT bits `fl`. -/
def Ctx.LandsP (c : Ctx) (i : Instr) (lat : Nat) (b : Word) (fl : Flags) : Prop :=
  ∀ (v : View) (s : State) (f : Flight) (x : XF), i.view = some v → AtIssue v s f x → Ctx.atIssue v s f x = c →
    ∃ t g, exec i s = .next t ∧ t.flight f.key = some g ∧ c.Elsewhere s t
      ∧ c.SeqIssued [⟨s.now f.vd + lat, [], [⟨x.d.toNat, f.em, b⟩], none, if f.em = 0 then 0 else fl⟩] f.flags g

/-- The result of `i` is one word in each active lane, the word `g` gives, with no flag, after `lat` cycles. -/
def Result32 (i : Instr) (c : Ctx) (lat : Nat) (g : Nat → Word) : Prop :=
  ∃ out o, fixedResult i = some (lat, out) ∧ out c = .ok o ∧ c.Lands i lat o ∧ o.mask = c.f.em ∧ o.hi = none ∧ o.flags = Fl.none
    ∧ ∀ l, l < 32 → o.lo.at l = g l

/-- The result of `i` is a pair in each active lane, the 64-bit value `g` gives, with no flag, after `lat` cycles. -/
def Result64 (i : Instr) (c : Ctx) (lat : Nat) (g : Nat → DWord) : Prop :=
  ∃ out o hi, fixedResult i = some (lat, out) ∧ out c = .ok o ∧ c.Lands i lat o ∧ o.mask = c.f.em ∧ o.hi = some hi ∧ o.flags = Fl.none
    ∧ ∀ l, l < 32 → pair64 (o.lo.at l) (hi.at l) = g l

/-- The predicate result of `i`: the bit `g` gives in each lane, and its FSTAT bits. -/
def ResultP (i : Instr) (c : Ctx) (lat : Nat) (g : Nat → Bool) (fl : Flags) : Prop :=
  ∃ out b, predResult i = some (lat, out) ∧ out c = .ok (b, fl) ∧ c.LandsP i lat b fl
    ∧ ∀ l, l < 32 → b.getLsbD l = g l

/-! ### Integer types (04 R115) -/

/-- Bits of a type of R115; those of .I16X2 are of one half. -/
def typeBits (t : Nat) : Nat :=
  match t with
  | 2 | 3 | 8 => 16
  | 4 | 5 => 8
  | 6 | 7 => 64
  | _ => 32

def typeSigned (t : Nat) : Bool := t % 2 = 0

/-- The exact integer that a source stands for: its low bits, with or without sign. -/
def asInt {n : Nat} (t : Nat) (w : BitVec n) : Int :=
  if typeSigned t then Int.bmod w.toNat (2 ^ typeBits t) else (w.toNat : Int) % 2 ^ typeBits t

/-- `r` is what is written for the exact result `x`: wrapped to the type, or under .SAT clamped to its range, then extended to
the width of `r`. -/
def Stores {n : Nat} (t : Nat) (sat : Bool) (x : Int) (r : BitVec n) : Prop :=
  (if typeSigned t then r.toInt else (r.toNat : Int)) =
    if sat then max (rangeT t).1 (min (rangeT t).2 x)
    else if typeSigned t then Int.bmod x (2 ^ typeBits t) else x % 2 ^ typeBits t

/-- Half `h` of a word. -/
def half (w : Word) (h : Nat) : BitVec 16 := w.extractLsb' (16 * h) 16

/-- The result of `i` is, in each active lane, `op` of its exact sources, stored under the type and .SAT bit of its modifier
byte: one word, a pair under a 64-bit type, or the two halves under .I16X2 (04 R115). -/
def IntResult (i : Instr) (c : Ctx) (lat : Nat) (op : Int → Int → Int) : Prop :=
  (c.itype < 6 → ∃ g, Result32 i c lat g ∧ ∀ l, l < 32 →
    Stores c.itype c.isat (op (asInt c.itype (c.srcA.at l)) (asInt c.itype (c.srcB.at l))) (g l))
  ∧ (c.itype = 6 ∨ c.itype = 7 → ∃ g, Result64 i c lat g ∧ ∀ l, l < 32 →
    Stores c.itype c.isat (op (asInt c.itype (c.pairAt 1 c.x.a l)) (asInt c.itype (c.pairAt 2 c.x.b l))) (g l))
  ∧ (c.itype = 8 → ∃ g, Result32 i c lat g ∧ ∀ l h, l < 32 → h < 2 →
    Stores 8 c.isat (op (asInt 8 (half (c.srcA.at l) h)) (asInt 8 (half (c.srcB.at l) h))) (half (g l) h))

/-- The result of `i` is, in each active lane, `g32` of its words, or `g64` of its pairs under a 64-bit type. -/
def BitResult (i : Instr) (c : Ctx) (lat : Nat) (g32 : Word → Word → Word) (g64 : DWord → DWord → DWord) : Prop :=
  (c.itype < 6 → Result32 i c lat fun l => g32 (c.srcA.at l) (c.srcB.at l))
  ∧ (c.itype = 6 ∨ c.itype = 7 → Result64 i c lat fun l => g64 (c.pairAt 1 c.x.a l) (c.pairAt 2 c.x.b l))

/-- The same with a count: the whole unsigned value of Vb's low register (04 R123). -/
def ShiftResult (i : Instr) (c : Ctx) (g32 : Word → Nat → Word) (g64 : DWord → Nat → DWord) : Prop :=
  (c.itype < 6 → Result32 i c 4 fun l => g32 (c.srcA.at l) (c.srcB.at l).toNat)
  ∧ (c.itype = 6 ∨ c.itype = 7 → Result64 i c 4 fun l => g64 (c.pairAt 1 c.x.a l) (c.srcB.at l).toNat)

/-- The result of `i` is one word in each active lane with the flags `fl`, which gather those of the active lanes. -/
def ResultF (i : Instr) (c : Ctx) (lat : Nat) (g : Nat → Word × Flags) : Prop :=
  ∃ out o, fixedResult i = some (lat, out) ∧ out c = .ok o ∧ c.Lands i lat o ∧ o.mask = c.f.em ∧ o.hi = none
    ∧ (∀ l, l < 32 → o.lo.at l = (g l).1)
    ∧ ∀ b, b < 6 → (o.flags.getLsbD b = true ↔ ∃ l, l < 32 ∧ c.f.em.getLsbD l = true ∧ (g l).2.getLsbD b = true)

/-! ### F32 values of words (05 R130, R131) -/

abbrev isNaN32 (w : Word) : Prop := 0x7F800000 < w.toNat % 2 ^ 31
/-- A NaN whose first fraction bit is 0. -/
abbrev isSNaN32 (w : Word) : Prop := isNaN32 w ∧ w.getLsbD 22 = false
abbrev isInf32 (w : Word) : Prop := w.toNat % 2 ^ 31 = 0x7F800000
abbrev isZero32 (w : Word) : Prop := w.toNat % 2 ^ 31 = 0

/-- The value of a word that is neither a NaN nor an infinity. -/
def val32 (w : Word) : ℚ :=
  (if w.msb then -1 else 1) *
    if w.toNat / 2 ^ 23 % 256 = 0 then ((w.toNat % 2 ^ 23 : Nat) : ℚ) / 2 ^ 149
    else ((2 ^ 23 + w.toNat % 2 ^ 23 : Nat) : ℚ) * 2 ^ (w.toNat / 2 ^ 23 % 256) / 2 ^ 150

abbrev finite32 (w : Word) : Prop := ¬isNaN32 w ∧ ¬isInf32 w

/-- What 06 R151 to R153 say of an operation in F32 on the inputs `ws`: the canonical NaN with NV where it is invalid; else the
canonical NaN for a NaN, with NV for a signalling one; else the infinity `inf` where there is one; else, where the exact result `x`
is a value of the format and not zero, that value and no flag. -/
def FloatRule (ws : List Word) (invalid : Prop) (inf : Word → Prop) (x : ℚ) (r : Word × Flags) : Prop :=
  (invalid → r = (0x7FC00000, Fl.nv))
  ∧ (¬invalid → (∃ w ∈ ws, isNaN32 w) → r.1 = 0x7FC00000
    ∧ ((∃ w ∈ ws, isSNaN32 w) → r.2 = Fl.nv) ∧ ((∀ w ∈ ws, ¬isSNaN32 w) → r.2 = Fl.none))
  ∧ (¬invalid → (∀ w ∈ ws, ¬isNaN32 w) →
    (∀ w, inf w → r = (w, Fl.none))
    ∧ ((∀ w ∈ ws, finite32 w) → ∀ w, finite32 w → val32 w = x → x ≠ 0 → r = (w, Fl.none)))

/-! ### The combining tree (07 R169) -/

/-- Node `i` of level `n`: the leaves are level 0, and a node combines two of the level below, the lower index on the left. -/
def treeAt (op : Word → Word → Word) (leaf : Nat → Word) : Nat → Nat → Word
  | 0, i => leaf i
  | n + 1, i => op (treeAt op leaf n (2 * i)) (treeAt op leaf n (2 * i + 1))

/-- The flags of all nodes at or below node `i` of level `n`. -/
def treeFlags (op : Word → Word → Word) (fl : Word → Word → Flags) (leaf : Nat → Word) : Nat → Nat → Flags
  | 0, _ => Fl.none
  | n + 1, i => fl (treeAt op leaf n (2 * i)) (treeAt op leaf n (2 * i + 1))
      ||| treeFlags op fl leaf n (2 * i) ||| treeFlags op fl leaf n (2 * i + 1)

/-- The reduction `i` writes the root of its tree in every active lane (07 R169): an inactive lane's leaf is `identity`. -/
def TreeResult (i : Instr) (c : Ctx) (identity : Word) (op : Word → Word → Word) (fl : Word → Word → Flags) : Prop :=
  let leaf (l : Nat) : Word := if c.f.em.getLsbD l then c.srcA.at l else identity
  ∃ out o, fixedResult i = some (8, out) ∧ out c = .ok o ∧ c.Lands i 8 o ∧ o.mask = c.f.em ∧ o.hi = none
    ∧ (∀ l, l < 32 → o.lo.at l = treeAt op leaf 5 0) ∧ o.flags = treeFlags op fl leaf 5 0

end Sys2Proof.Machine
end

