-- ==== Sys2Proof/Laws/Issue.lean ====
section
/-!
SUPPORT. What an instruction at issue can do: one lemma per shape, and the bookkeeping of one that issues.
-/

namespace Sys2Proof.Machine

/-- An instruction whose checks pass sees the context of the claims. -/
theorem gate_ok {v : View} {s : State} {f : Flight} {x : XF} (h : AtIssue v s f x) : gate v s f = .ok (Ctx.atIssue v s f x) := by
  have h1 : ((rowOf v.op9).owner && !f.role.isOwner) = false := by
    cases ho : (rowOf v.op9).owner with
    | false => rfl
    | true => simp [h.mode ho]
  have h2 : (f.macroStep.isSome && (isControl v.op9 || decide (v.op9 = 0x183))) = false := by
    cases hm : f.macroStep.isSome with
    | false => rfl
    | true => simp [h.nest hm]
  unfold gate
  simp [h1, h2, h.fields, h.enc, h.opnd, h.regs, Ctx.atIssue]

theorem issue_ok {v : View} {s : State} {f : Flight} {x : XF} (h : AtIssue v s f x) {body : Ctx → Chk State} {t : State}
    (hb : body (Ctx.atIssue v s f x) = .ok t) : issue v s body = .next t := by
  simp [issue, h.cur, gate_ok h, hb]

theorem issue_stop {v : View} {s : State} {f : Flight} {x : XF} (h : AtIssue v s f x) {body : Ctx → Chk State} {e : Stop}
    (hb : body (Ctx.atIssue v s f x) = .error e) : issue v s body = .next (s.stopped f v.len e) := by
  simp [issue, h.cur, gate_ok h, hb]

theorem ctlOp_ok {v : View} {s : State} {f : Flight} {x : XF} (h : AtIssue v s f x) {body : Ctx → Chk (State × Next)}
    {o : State × Next} (hb : body (Ctx.atIssue v s f x) = .ok o) :
    ctlOp v s body = .next ((Ctx.atIssue v s f x).finish o.1 o.2 none) := issue_ok h (by simp [hb])

theorem ctlOp_stop {v : View} {s : State} {f : Flight} {x : XF} (h : AtIssue v s f x) {body : Ctx → Chk (State × Next)}
    {e : Stop} (hb : body (Ctx.atIssue v s f x) = .error e) : ctlOp v s body = .next (s.stopped f v.len e) :=
  issue_stop h (by simp [hb])

theorem varOp_ok {v : View} {s : State} {f : Flight} {x : XF} (h : AtIssue v s f x) {body : Ctx → Chk State} {s' : State}
    (hb : body (Ctx.atIssue v s f x) = .ok s') : varOp v s body = .next ((Ctx.atIssue v s f x).finish s' .seq none) :=
  issue_ok h (by simp [hb])

theorem varOp_stop {v : View} {s : State} {f : Flight} {x : XF} (h : AtIssue v s f x) {body : Ctx → Chk State} {e : Stop}
    (hb : body (Ctx.atIssue v s f x) = .error e) : varOp v s body = .next (s.stopped f v.len e) := issue_stop h (by simp [hb])

theorem fixedOp_ok {lat : Nat} {v : View} {s : State} {f : Flight} {x : XF} (h : AtIssue v s f x) {body : Ctx → Chk FixedOut}
    {o : FixedOut} {puts : List RegPut} (hb : body (Ctx.atIssue v s f x) = .ok o)
    (hp : (Ctx.atIssue v s f x).putDst ((Ctx.atIssue v s f x).now + lat) o.mask o.lo o.hi = .ok puts) :
    fixedOp lat v s body = .next ((Ctx.atIssue v s f x).finish ((Ctx.atIssue v s f x).postFixed lat o puts) .seq
      ((Ctx.atIssue v s f x).writer lat o)) := issue_ok h (by simp [hb, hp])

theorem fixedOp_stop {lat : Nat} {v : View} {s : State} {f : Flight} {x : XF} (h : AtIssue v s f x)
    {body : Ctx → Chk FixedOut} {o : FixedOut} {e : Stop} (hb : body (Ctx.atIssue v s f x) = .ok o)
    (hp : (Ctx.atIssue v s f x).putDst ((Ctx.atIssue v s f x).now + lat) o.mask o.lo o.hi = .error e) :
    fixedOp lat v s body = .next (s.stopped f v.len e) := issue_stop h (by simp [hb, hp])

theorem predOp_ok {lat : Nat} {v : View} {s : State} {f : Flight} {x : XF} (h : AtIssue v s f x)
    {body : Ctx → Chk (Word × Flags)} {o : Word × Flags} (hb : body (Ctx.atIssue v s f x) = .ok o) :
    predOp lat v s body = .next ((Ctx.atIssue v s f x).finish ((Ctx.atIssue v s f x).postPred lat o.1 o.2) .seq none) :=
  issue_ok h (by simp [hb])

/-! ### Destinations -/

theorem formShape_general {cls : ShapeClass} (h : cls = .general) (st m : Word) (res : Lanes) :
    formShape cls st m res = .ok (.general res) := by simp [formShape, h]

theorem fitShape_general {cls : ShapeClass} (h : cls = .general) (st m : Word) (res : Lanes) :
    fitShape cls st m res = .ok (.general res) := by simp [fitShape, formShape_general h]

/-- One result under a general register. -/
theorem putReg_general {c : Ctx} {t r : Nat} {mask : Word} {new : Lanes} (h : c.f.cls r = .general) :
    ∃ ps, c.putReg t r mask new = .ok ps
      ∧ ps.map (fun q => (q.reg, q.mask, q.vals)) = (if mask = 0 then [] else [(r, mask, new)]) := by
  unfold Ctx.putReg
  by_cases hm : mask = 0
  · exact ⟨[], by simp [hm]⟩
  · rw [if_neg hm]
    dsimp only
    rw [formShape_general h]
    exact ⟨_, rfl, by rw [if_neg hm]; rfl⟩

/-- A result whose destination fits any value. -/
theorem putDst_anyFits {c : Ctx} {t : Nat} {o : FixedOut} (h : c.anyFits o.hi.isSome) :
    ∃ ps, c.putDst t o.mask o.lo o.hi = .ok ps ∧ ps.map (fun q => (q.reg, q.mask, q.vals)) = c.writes o := by
  unfold Ctx.putDst Ctx.writes
  by_cases hd : (c.x.ws || decide (240 ≤ c.x.d.toNat)) = true
  · exact ⟨[], by simp [hd]⟩
  · have hd' : ¬(c.x.ws = true) ∧ ¬(240 ≤ c.x.d.toNat) := by simpa using hd
    rcases h with h | h | h
    · exact absurd h hd'.1
    · exact absurd h hd'.2
    · obtain ⟨ps, h1, h2⟩ := putReg_general (t := t) (mask := o.mask) (new := o.lo) h.1
      simp only [hd, Bool.false_eq_true, ↓reduceIte, h1, Bool.false_or]
      cases hh : o.hi with
      | none =>
        refine ⟨ps, by simp, ?_⟩
        rw [h2]
        by_cases hm : o.mask = 0
        · simp [hm]
        · simp only [if_neg hm]; simp [show ¬o.mask = 0#32 from hm]
      | some hi =>
        obtain ⟨qs, g1, g2⟩ := putReg_general (t := t) (mask := o.mask) (new := hi) (h.2 (by simp [hh]))
        refine ⟨ps ++ qs, by simp [g1], ?_⟩
        rw [List.map_append, h2, g2]
        by_cases hm : o.mask = 0
        · simp [hm]
        · simp only [if_neg hm]; simp [show ¬o.mask = 0#32 from hm]

/-! ### Bookkeeping -/

@[simp] theorem Ctx.atIssue_f (v : View) (s : State) (f : Flight) (x : XF) : (Ctx.atIssue v s f x).f = f := rfl
@[simp] theorem Ctx.atIssue_x (v : View) (s : State) (f : Flight) (x : XF) : (Ctx.atIssue v s f x).x = x := rfl
@[simp] theorem Ctx.atIssue_s (v : View) (s : State) (f : Flight) (x : XF) :
    (Ctx.atIssue v s f x).s = (s.clearLatches f).drawn := rfl
@[simp] theorem Ctx.atIssue_op9 (v : View) (s : State) (f : Flight) (x : XF) : (Ctx.atIssue v s f x).op9 = v.op9 := rfl
@[simp] theorem Ctx.atIssue_len (v : View) (s : State) (f : Flight) (x : XF) : (Ctx.atIssue v s f x).len = v.len := rfl
@[simp] theorem Ctx.atIssue_now (v : View) (s : State) (f : Flight) (x : XF) : (Ctx.atIssue v s f x).now = s.now f.vd := rfl

theorem AtIssue.flight {v : View} {s : State} {f : Flight} {x : XF} (h : AtIssue v s f x) : s.flight f.key = some f := by
  have hc := h.cur
  unfold State.curFlight at hc
  cases hk : s.cur with
  | none => simp [hk] at hc
  | some k =>
    rw [hk] at hc
    have hc : s.flight k = some f := hc
    rw [State.flight_key hc]; exact hc

@[simp] theorem Ctx.issued_key (c : Ctx) (s : State) (nx : Next) (l : Option Writer) (f : Flight) :
    (c.issued s nx l f).key = f.key := by
  unfold Ctx.issued; dsimp only; split <;> simp

/-- Every flight after another's issue slot: the others of its quadrant end their YIELD waits. -/
theorem State.tookSlot_flight (s : State) (f : Flight) (k : Nat) :
    (s.tookSlot f).flight k = (s.flight k).map fun g => if g.quad = f.quad && g.key ≠ f.key then { g with yielding := none } else g := by
  have h : (s.tookSlot f).flights = (s.endYields f).flights := by unfold State.tookSlot; split <;> simp
  unfold State.flight
  rw [h, State.endYields_flights, kget_map (by intro a; split <;> rfl)]

/-- The current flight after the bookkeeping: it has issued. -/
theorem Ctx.finish_flight {c : Ctx} {s : State} {f : Flight} (h : s.flight c.f.key = some f) (hk : f.key = c.f.key)
    (nx : Next) (l : Option Writer) : (c.finish s nx l).flight c.f.key = some (c.issued s nx l f) := by
  unfold Ctx.finish
  rw [State.tookSlot_flight, State.flight_modFlight_self h _ (by rw [Ctx.issued_key, hk])]
  simp [hk]

/-- Every other flight after the bookkeeping. -/
theorem Ctx.finish_flight_ne {c : Ctx} {s : State} {k : Nat} (h : k ≠ c.f.key) (nx : Next) (l : Option Writer) :
    (c.finish s nx l).flight k = (s.flight k).map fun h => if h.quad = c.f.quad then { h with yielding := none } else h := by
  unfold Ctx.finish
  rw [State.tookSlot_flight, State.flight_modFlight_ne s (fun e => h e.symm) _ (fun _ => Ctx.issued_key _ _ _ _ _)]
  cases hk : s.flight k with
  | none => rfl
  | some g => have := State.flight_key hk; simp [this, h]

/-- What the bookkeeping leaves of the state: all but the flights and the owner's progress count. -/
theorem Ctx.finish_rest (c : Ctx) (s : State) (nx : Next) (l : Option Writer) :
    c.finish s nx l = { s with flights := (c.finish s nx l).flights, owners := (c.finish s nx l).owners } := by
  have hm : ∀ (k : Nat) (g : Flight → Flight), s.modFlight k g = { s with flights := (s.modFlight k g).flights } := by
    intro k g; unfold State.modFlight; split <;> rfl
  have ht : ∀ (s : State) (f : Flight), s.tookSlot f = { s with flights := (s.tookSlot f).flights, owners := (s.tookSlot f).owners } := by
    intro s f
    unfold State.tookSlot State.progressed
    split
    · rfl
    · split <;> rfl
  unfold Ctx.finish
  rw [ht, hm]

theorem Ctx.finish_owner (c : Ctx) (s : State) (nx : Next) (l : Option Writer) (vd : Nat) :
    (c.finish s nx l).owner vd = { s.owner vd with progress := ((c.finish s nx l).owner vd).progress } := by
  have h0 : ((s.modFlight c.f.key fun f => c.issued s nx l f).endYields c.f).owner vd = s.owner vd := by
    unfold State.owner; simp
  unfold Ctx.finish State.tookSlot State.progressed
  split
  · rw [h0]
  · split
    · rw [h0]
    · by_cases hv : c.f.vd = vd
      · subst hv
        rw [State.owner_modOwner_self _ (by simp), h0]
      · rw [State.owner_modOwner_ne _ (by simp) hv, h0]

theorem State.clearLatches_quad_ne (s : State) (f : Flight) {n : Nat} (h : n ≠ f.quad) : (s.clearLatches f).quad n = s.quad n := by
  unfold State.clearLatches
  dsimp only
  split
  · rfl
  · exact State.quad_putQuad_ne s (by simp [State.quad_num]; exact fun e => h e.symm)

theorem State.clearLatches_order (s : State) (f : Flight) : ((s.clearLatches f).quad f.quad).order = (s.quad f.quad).order := by
  unfold State.clearLatches
  dsimp only
  split
  · rfl
  · rw [State.quad_putQuad_eq]
    exact State.quad_num s f.quad

/-- An instruction without other effect leaves everything outside the current flight alone. -/
theorem Ctx.finish_elsewhere (v : View) (s : State) (f : Flight) (x : XF) {g : Flight} (hg : g.key = f.key)
    (nx : Next) (l : Option Writer) :
    (Ctx.atIssue v s f x).Elsewhere s ((Ctx.atIssue v s f x).finish ((Ctx.atIssue v s f x).s.putFlight g) nx l) := by
  have hr := Ctx.finish_rest (Ctx.atIssue v s f x) ((Ctx.atIssue v s f x).s.putFlight g) nx l
  have hq : ∀ n, ((Ctx.atIssue v s f x).finish ((Ctx.atIssue v s f x).s.putFlight g) nx l).quad n = (s.clearLatches f).quad n := by
    intro n; rw [hr]; rfl
  refine ⟨?_, ?_, ?_, ?_, ?_, ?_⟩
  · generalize (Ctx.atIssue v s f x).finish ((Ctx.atIssue v s f x).s.putFlight g) nx l = t at hr
    have h1 : t.quads = (s.clearLatches f).quads := by rw [hr]; rfl
    have h2 : t.free = s.free + 1 := by rw [hr]; simp
    rw [h1, h2]
    refine hr.trans ?_
    simp
  · intro k hk
    rw [Ctx.finish_flight_ne hk nx l]
    congr 1
    have : ((Ctx.atIssue v s f x).s.putFlight g).flight k = (Ctx.atIssue v s f x).s.flight k :=
      State.flight_putFlight_ne _ (by rw [hg]; exact fun e => hk e.symm)
    rw [this]
    unfold State.flight; simp
  · intro n hn; rw [hq]; exact State.clearLatches_quad_ne s f hn
  · rw [hq]; exact State.clearLatches_order s f
  · intro vd
    rw [Ctx.finish_owner]
    have : ((Ctx.atIssue v s f x).s.putFlight g).owner vd = s.owner vd := by unfold State.owner; simp
    rw [this]
  · intro a
    rw [hr]
    unfold State.byte State.cached State.copyOf
    simp

/-! ### Fixed-latency results -/

@[simp] theorem substParams_set (r : Row) (m x : XF) : (substParams r m x).set = x.set := rfl

/-- Parameter slots leave the set field alone. -/
theorem fieldsOf_set {s : State} {f : Flight} {v : View} {x : XF} (h : s.fieldsOf f v = .ok x) : x.set = v.x.set := by
  unfold State.fieldsOf at h
  split at h
  · cases h; rfl
  · split at h
    · cases h
    · cases h; rfl

set_option maxHeartbeats 4000000 in
theorem fixed_exec (i : Instr) (v : View) (lat : Nat) (out : Ctx → Chk FixedOut) (hv : i.view = some v)
    (hf : fixedResult i = some (lat, out)) (s : State) : exec i s = fixedOp lat v s out := by
  cases i <;> cases hf <;> cases hv <;> rfl

theorem toX_set (f : WForm) (c : Nat) (w : WF) : (f.toX c w).set = 15 := by cases f <;> rfl

theorem set_enc {i : Instr} {v : View} (hv : i.view = some v) (he : v.encOk = true) (hk : (rowOf v.op9).kind ≠ .V) : v.x.set = 15 := by
  unfold Instr.view at hv
  split at hv
  · cases hv
    simp only [viewX, Row.encOk] at he hk ⊢
    split at he
    · rename_i h; exact absurd h hk
    · simp only [Bool.and_eq_true, decide_eq_true_eq] at he; exact he.1.1.1.1.1.1.1
  · rename_i op7 w _
    cases hc : wCell op7 with
    | none => simp [hc] at hv
    | some p => simp [hc] at hv; subst hv; exact toX_set _ _ _
  · cases hv; rfl
  · cases hv

set_option maxHeartbeats 4000000 in
theorem fixed_kind (i : Instr) (v : View) (lat : Nat) (out : Ctx → Chk FixedOut) (hv : i.view = some v)
    (hf : fixedResult i = some (lat, out)) : (rowOf v.op9).kind ≠ .V := by
  cases i <;> cases hf <;> cases hv <;> exact fun h => Kind.noConfusion h


theorem flag_none {v : View} {s : State} {f : Flight} {x : XF} (h : x.set = 15) : (Ctx.atIssue v s f x).flag = none := by
  simp [Ctx.flag, h]

theorem advance_none (f : Flight) (s : State) (n : Nat) (h : f.macroStep = none) :
    f.advance s n .seq = { f with pc := (f.pc + dw n) &&& pcMask } := by
  simp [Flight.advance, h, Flight.setPC]

theorem issued_seq (c : Ctx) (s : State) (l : Option Writer) (ps : List Pending) (hfl : c.flag = none) :
    c.SeqIssued ps c.f.flags (c.issued s .seq l { c.f with pend := c.f.pend ++ ps }) := by
  constructor
  · unfold Ctx.issued
    simp only [hfl]
    unfold Flight.advance
    dsimp only
    split
    · rfl
    · split <;> rfl
  · intro hm
    unfold Ctx.issued
    simp only [hfl]
    rw [advance_none _ _ _ (by exact hm)]
    exact ⟨rfl, hm⟩

set_option maxHeartbeats 4000000 in
/-- The predicate results, by shape. -/
theorem pred_exec (i : Instr) (v : View) (lat : Nat) (out : Ctx → Chk (Word × Flags)) (hv : i.view = some v)
    (hf : predResult i = some (lat, out)) (s : State) : exec i s = predOp lat v s out := by
  cases i <;> cases hf <;> cases hv <;> rfl

theorem pred_kind (i : Instr) (v : View) (lat : Nat) (out : Ctx → Chk (Word × Flags)) (hv : i.view = some v)
    (hf : predResult i = some (lat, out)) : (rowOf v.op9).kind ≠ .V := by
  cases i <;> cases hf <;> cases hv <;> exact fun h => Kind.noConfusion h

/-! ### Control-class instructions -/

theorem Ctx.chainAfter_control {c : Ctx} (h : isControl c.op9 = true) (l : Option Writer) : c.chainAfter l = Chain.closed := by
  unfold Ctx.chainAfter
  split
  · rfl
  · rw [if_pos (by simp [closesChain, h])]

theorem Ctx.issued_goto {c : Ctx} (h : isControl c.op9 = true) (hf : c.flag = none) (s : State) (pc : DWord) (l : Option Writer)
    (g : Flight) : c.issued s (.goto pc) l g = c.left g pc := by
  unfold Ctx.issued
  simp only [hf, Ctx.chainAfter_control h]
  rfl

theorem Ctx.issued_next {c : Ctx} (h : isControl c.op9 = true) (hf : c.flag = none) (s : State) (l : Option Writer)
    {g : Flight} (hm : g.macroStep = none) : c.issued s .seq l g = c.left g (g.pc + dw c.len) := by
  unfold Ctx.issued
  simp only [hf, Ctx.chainAfter_control h]
  rw [advance_none _ _ _ hm]
  rfl

/-- A control-class instruction stands in no macro body. -/
theorem AtIssue.noBody {v : View} {s : State} {f : Flight} {x : XF} (h : AtIssue v s f x) (hc : isControl v.op9 = true) :
    f.macroStep = none := by
  cases hm : f.macroStep with
  | none => rfl
  | some _ => have := (h.nest (by simp [hm])).1; rw [hc] at this; cases this

/-- The state at issue agrees with the state before but for the latches and the counter of free values. -/
theorem Ctx.atIssue_flight (v : View) (s : State) (f : Flight) (x : XF) (k : Nat) :
    (Ctx.atIssue v s f x).s.flight k = s.flight k := by
  unfold State.flight; simp

theorem putFlight_same {s : State} {f : Flight} {k : Nat} (h : s.flight k = some f) : s.putFlight f = s := by
  have hk : f.key = k := State.flight_key h
  subst hk
  unfold State.putFlight
  have : kset Flight.key f s.flights = s.flights := by
    unfold State.flight at h
    generalize s.flights = fs at h
    induction fs with
    | nil => cases h
    | cons a as ih =>
      unfold kget at h
      unfold kset
      by_cases e : a.key = f.key
      · rw [if_pos e] at h ⊢; cases h; rfl
      · rw [if_neg e] at h ⊢; rw [ih h]
  rw [this]

/-- An instruction at issue that changes its own flight alone and leads somewhere. -/
theorem ctlOp_goes {v : View} {s : State} {f : Flight} {x : XF} (h : AtIssue v s f x) {body : Ctx → Chk (State × Next)}
    {g : Flight} {nx : Next} (hg : g.key = f.key)
    (hb : body (Ctx.atIssue v s f x) = .ok ((Ctx.atIssue v s f x).s.putFlight g, nx)) :
    ∃ t, ctlOp v s body = .next t
      ∧ t.flight f.key = some ((Ctx.atIssue v s f x).issued ((Ctx.atIssue v s f x).s.putFlight g) nx none g)
      ∧ (Ctx.atIssue v s f x).Elsewhere s t := by
  refine ⟨_, ctlOp_ok h hb, ?_, Ctx.finish_elsewhere v s f x hg nx none⟩
  exact Ctx.finish_flight (by rw [Ctx.atIssue_f, ← hg]; exact State.flight_putFlight_self _ _) hg nx none

/-- The same for one that changes nothing of its own. -/
theorem ctlOp_leads {v : View} {s : State} {f : Flight} {x : XF} (h : AtIssue v s f x) {body : Ctx → Chk (State × Next)}
    {nx : Next} (hb : body (Ctx.atIssue v s f x) = .ok ((Ctx.atIssue v s f x).s, nx)) :
    ∃ t, ctlOp v s body = .next t
      ∧ t.flight f.key = some ((Ctx.atIssue v s f x).issued (Ctx.atIssue v s f x).s nx none f)
      ∧ (Ctx.atIssue v s f x).Elsewhere s t := by
  have hs : (Ctx.atIssue v s f x).s.putFlight f = (Ctx.atIssue v s f x).s :=
    putFlight_same (k := f.key) (by rw [Ctx.atIssue_flight]; exact h.flight)
  have := ctlOp_goes (g := f) (nx := nx) h rfl (by rw [hs]; exact hb)
  rwa [hs] at this

/-- The set field of a row that is not of kind V holds 15 once the checks have passed. -/
theorem AtIssue.noFlag {i : Instr} {v : View} {s : State} {f : Flight} {x : XF} (h : AtIssue v s f x) (hv : i.view = some v)
    (hk : (rowOf v.op9).kind ≠ .V) : (Ctx.atIssue v s f x).flag = none := by
  apply flag_none
  rw [fieldsOf_set h.fields]
  exact set_enc hv h.enc hk

end Sys2Proof.Machine
end

