-- ==== Sys2Proof/Certificates/Slice0/Obligations.lean ====
section
/-!
DEFINITION. The statements for the provers. Where a statement says 'here', it names the states or forms that it covers; `exec`
answers a next state in every conclusion. A clause that rests on the model's choice names the log entry.
-/

open Sys2Proof Sys2Proof.Machine

/-- Decoding an encoded instruction gives it back, with its length, whatever bytes follow (02 R33, R35 to R38). -/
def Obligations.DecodeOfEncode : Prop :=
  ∀ (i : Instr) (bs rest : List Byte), encode i = some bs → decode (bs ++ rest) = .ok (i, bs.length)

/-- No bit of a decoded instruction is dropped: encoding what decode gives yields the bytes it came from (02 R33, R35 to R38).
-/
def Obligations.EncodeOfDecode : Prop :=
  ∀ (bs : List Byte) (i : Instr) (n : Nat), decode bs = .ok (i, n) → n ≤ bs.length ∧ encode i = some (bs.take n)

/-- Words the manual encodes itself decode to their instructions (02 R35 to R38; the examples of 03 R101, R102, R104, R107, 04
R123, R126 and 07 R172, R173). -/
def Obligations.SpecWordsDecode : Prop :=
  decode (leBytes 4 0xFF41C181) = .ok (.brpAnyW32 ⟨7, 0x34, 0x3F, 0, 0⟩, 4)
  ∧ decode (leBytes 8 0x0000100A00BE0003) = .ok (.call ⟨20, 0x20, 0, 0, false, 15, 0, 0, false⟩, 8)
  ∧ decode (leBytes 4 0x0000DB01) = .ok (.getsrW32 ⟨3, 0, 0, 0, 0⟩, 4)
  ∧ decode (leBytes 4 0x0C615085) = .ok (.shlImmW32 ⟨5, 6, 3, 0, 1⟩, 4)
  ∧ decode (leBytes 4 0x08105501) = .ok (.icmpLtW32 ⟨1, 1, 2, 0, 0⟩, 4)
  ∧ decode (leBytes 4 0x04616481) = .ok (.lshuW32 ⟨5, 6, 1, 0, 0⟩, 4)
  ∧ decode (leBytes 4 0x0010A601) = .ok (.pollMaskW32 ⟨2, 1, 0, 0, 0⟩, 4)
  ∧ decode (leBytes 8 0x008002019A3E0003) = .ok (.redMin ⟨3, 4, 0, 1, false, 15, 0, 0, false⟩, 8)

/-- A turn that fetches bytes that decode runs that instruction, in the state that the turn leaves with its flight as the
current one; bytes that decode to none trap ILLEGAL_ENCODING at the lowest active lane; an event on the agenda runs (02 R49,
R54; 03 R76, R77, R96). A flight alone in its quadrant, with nothing pending, no wait and no chain, runs the instruction at its
PC: the step is exec of what the bytes there decode to, in the state with that flight current and the quadrant's turn recorded
(03 R76, R77). -/
def Obligations.StepRunsDecoded : Prop :=
  ((∀ (s s' : State) (n : Nat) (rest : List Turn) (bytes : List Byte) (i : Instr) (len : Nat),
      s.agenda = .quad n :: rest → State.turn { s with agenda := rest } n = .fetched s' bytes → decode bytes = .ok (i, len) →
      step s = exec i s')
    ∧ (∀ (s s' : State) (n : Nat) (rest : List Turn) (bytes : List Byte) (e : DecodeError) (f : Flight),
      s.agenda = .quad n :: rest → State.turn { s with agenda := rest } n = .fetched s' bytes → decode bytes = .error e →
      s'.curFlight = some f → step s = .next (s'.takeTrap f 1 (lowestLane f.em) 0 f.pc 0))
    ∧ ∀ (s : State) (i : Instr) (rest : List Turn), s.agenda = .event i :: rest → step s = exec i { s with agenda := rest })
  ∧ (∀ (s : State) (n k : Nat) (rest : List Turn) (p : Partition) (f : Flight) (bytes : List Byte) (i : Instr) (len : Nat),
      s.agenda = .quad n :: rest → s.partitionOfCore (coreOfQuad n) = some p → s.part p.num = p →
      (s.quad n).turnCycle ≠ some p.cycle → (s.quad n).order = [k] → s.flight k = some f → f.quad = n →
      f.block = .none → f.halted = false → f.ended = false → f.pend = [] → f.poisoned = [] → f.macroStep = none →
      f.chain.isOpen = false → f.lastIssue = none → f.yielding = none → f.waitCount = 0 → (∀ j, f.flags.getD j 0 = 0) →
      s.memOps = [] → s.vfu = [] → s.copies = [] → s.mxq = [] → f.early = [] → (∀ u ∈ s.teams, u.windows = []) →
      (∀ o ∈ s.owners, ∀ e ∈ o.entries, e.owed = []) →
      s.fetchWord f = .ok bytes → s.devHold (s.fetchAddrs f bytes.length) (.op f.key) = none → decode bytes = .ok (i, len) →
      ∃ s', step s = exec i s' ∧ s'.curFlight = some f ∧ s'.quad n = { s.quad n with turnCycle := some p.cycle }
        ∧ s' = { s with agenda := rest, cur := some k, quads := s'.quads })

/-- After a package reset no partition is active, every owner is stopped with nothing resident, and ARCID is 0 (21 R423). The
memories are in canonical form at reset. -/
def Obligations.ResetIsIdle : Prop :=
  ((∀ p, (State.reset.part p).active = false) ∧ (∀ vd, (State.reset.owner vd).state = 0)
    ∧ (∀ k, State.reset.flight k = none ∧ State.reset.team k = none ∧ State.reset.grid k = none)
    ∧ State.reset.mgmt.arcid = 0 ∧ State.reset.mgmt.rstreq = 0)
  ∧ (memoryWf State.reset = true)

/-- Every step keeps physical memory in canonical form: addresses rising, nothing listed that an unlisted byte reads as. The
form is the model's own (log 3). -/
def Obligations.StepKeepsForm : Prop :=
  ∀ s t : State, memoryWf s = true → step s = .next t → memoryWf t = true

/-- The checks at decode, in their order (02 R49): an instruction marked O in lane mode traps ILLEGAL_ENCODING; a control
instruction or LAND in a macro body traps MACRO_NEST; a set, WS, unused-field or modifier value that is not allowed traps
ILLEGAL_ENCODING; a register or predicate field that is not allowed traps ILLEGAL_OPERAND. Each is reported at the lowest active
lane, with the flight's PC (03 R96, R98). -/
def Obligations.ChecksTrapInOrder : Prop :=
  ∀ (i : Instr) (v : View) (s : State) (f : Flight), i.view = some v → s.curFlight = some f →
    let trap (code : Nat) : Prop := exec i s = .next (s.takeTrap f code (lowestLane f.em) 0 f.pc 0)
    let own := (rowOf v.op9).owner = true ∧ f.role.isOwner = false
    let nest := f.macroStep.isSome = true ∧ (isControl v.op9 = true ∨ v.op9 = 0x183)
    (own → trap 1)
    ∧ (¬own → nest → trap 4)
    ∧ ∀ x, ¬own → ¬nest → s.fieldsOf f v = .ok x →
      (v.encOk = false → trap 1)
      ∧ (v.encOk = true → v.opndOk = false ∨ fieldsOk (rowOf v.op9) f x = false → trap 2)

/-- A trap in lane mode collapses the flight onto the reported lane and enters OWN.TVEC. EM, the resume point, the cause, the
lane and imm8 are saved; the resume point is the chain head in an open chain, past the instruction for TRAP (`skip`), else the
instruction; earlier fixed-latency results land; flags and outstanding work stay (03 R89, R94 to R98). What a trap in lane mode
leaves alone: every other flight, every owner, every team and grid, every outstanding operation and every byte of memory; and
with no result pending, the flight's registers, predicates and FSTAT (03 R95, R97). -/
def Obligations.TrapCollapsesFlight : Prop :=
  (∀ (s : State) (f : Flight) (code lane imm skip : Nat) (detail : DWord), s.flight f.key = some f → f.role.isOwner = false →
      ∃ g, (s.takeTrap f code lane imm detail skip).flight f.key = some g
        ∧ g.role = .collapsed lane ∧ g.em = laneBit lane ∧ g.pc = (s.owner f.vd).tvec &&& pcMask
        ∧ g.trap.cause = BitVec.ofNat 8 code ∧ g.trap.lane = BitVec.ofNat 5 lane ∧ g.trap.imm = BitVec.ofNat 8 imm
        ∧ g.trap.em = f.em ∧ g.trap.tdpc = detail
        ∧ g.trap.tepc = (if skip ≠ 0 then (f.pc + dw skip) &&& pcMask else if f.chain.isOpen then f.chain.head else f.pc)
        ∧ g.trap.tstep = stepCode (if f.chain.isOpen then f.macroStep.map fun m => (m.1, f.chain.headStep) else f.macroStep)
        ∧ g.macroStep = none ∧ g.chain.isOpen = false ∧ g.pend = [] ∧ g.block = .none
        ∧ g.flags = f.flags ∧ g.bars = f.bars ∧ g.early = f.early ∧ g.classMap = f.classMap)
  ∧ (∀ (s : State) (f : Flight) (code lane imm skip : Nat) (detail : DWord), s.flight f.key = some f → f.role.isOwner = false →
      let t := s.takeTrap f code lane imm detail skip
      t = { s with flights := t.flights, quads := t.quads }
      ∧ (∀ k, k ≠ f.key → t.flight k = s.flight k) ∧ (∀ a, t.byte a = s.byte a)
      ∧ ∀ g, f.pend = [] → t.flight f.key = some g → g.regs = f.regs ∧ g.preds = f.preds ∧ g.fstat = f.fstat)

/-- A trap in owner mode enters no handler: the owner stalls with DOUBLE_TRAP, its flights halt where they are, no other owner
changes, and the host is told (03 R99; 15 R350, R351). OWNSTALL stalls the owner with reason k under 15 R351: its flights halt,
STATE is 2, VDEVT bit 0 is set and the host is told. A k below 0x80 traps ILLEGAL_OPERAND, which stalls the owner with
DOUBLE_TRAP (03 R99). -/
def Obligations.OwnerModeStalls : Prop :=
  (∀ (s : State) (f g : Flight) (code lane imm skip : Nat) (detail : DWord), f.role.isOwner = true → s.flight g.key = some g →
      let t := s.takeTrap f code lane imm detail skip
      (t.owner f.vd).state = 2 ∧ (t.owner f.vd).reason = 1
      ∧ (∃ h, t.flight g.key = some h ∧ (g.vd = f.vd → g.ended = false → h.halted = true) ∧ (g.vd ≠ f.vd → h = g))
      ∧ (∀ vd, vd ≠ f.vd → t.owner vd = s.owner vd)
      ∧ .stall f.vd ∈ t.host)
  ∧ (∀ (x y : XF) (s : State) (f : Flight), AtIssue (viewX 0x1AB x) s f y →
      let k := y.c.toNat
      let stalled (t : State) (reason : Nat) : Prop := (t.owner f.vd).state = 2 ∧ (t.owner f.vd).reason = reason
        ∧ (HostEvent.stall f.vd : HostEvent) ∈ t.host ∧ (t.owner f.vd).vdevt.getLsbD 0 = true
        ∧ (∀ j g, s.flight j = some g → g.vd = f.vd → g.ended = false → ∃ h, t.flight j = some h ∧ h.halted = true)
        ∧ ∀ v, v ≠ f.vd → (t.owner v).state = (s.owner v).state
      (0x80 ≤ k → ∃ t, exec (.ownstall x) s = .next t ∧ stalled t k)
      ∧ (k < 0x80 → ∃ t, exec (.ownstall x) s = .next t ∧ stalled t 1))

/-- TRAP #k raises SOFTWARE with k at the lowest active lane and resumes past itself; in owner mode the owner stalls (03
R104). -/
def Obligations.TrapInstruction : Prop :=
  ∀ (x y : XF) (s : State) (f : Flight), AtIssue (viewX 0x011 x) s f y →
    exec (.trap x) s = .next (s.takeTrap f 5 (lowestLane f.em) y.c.toNat f.pc 8)
    ∧ (f.role.isOwner = false → ∃ t g, exec (.trap x) s = .next t ∧ t.flight f.key = some g ∧ g.role = .collapsed (lowestLane f.em)
      ∧ g.trap.cause = 5 ∧ g.trap.imm = y.c ∧ g.trap.em = f.em ∧ g.trap.tepc = (f.pc + 8) &&& pcMask
      ∧ g.pc = (s.owner f.vd).tvec &&& pcMask)
    ∧ (f.role.isOwner = true → ∃ t, exec (.trap x) s = .next t ∧ (t.owner f.vd).state = 2 ∧ (t.owner f.vd).reason = 1)

/-- XRET of a collapsed flight whose OWN.TEPC is a legal target returns to lane mode: EM from OWN.TEM, the macro step from
OWN.TSTEP when its bit 15 is set, PC from OWN.TEPC, no chain open. A target that is odd or above bit 56, or another role, traps
ILLEGAL_OPERAND (15 R357, R329). -/
def Obligations.XretReturns : Prop :=
  ∀ (x y : XF) (s : State) (f : Flight), AtIssue (viewX 0x1A4 x) s f y →
    (f.role.isService = false → f.trap.tepc.getLsbD 0 = false → f.trap.tepc >>> 57 = 0 →
      ∃ t g, exec (.xret x) s = .next t ∧ t.flight f.key = some g ∧ g.role = .lane ∧ g.em = f.trap.em
        ∧ g.macroStep = (if f.trap.tstep.getLsbD 15 then some (bits f.trap.tstep.toNat 10 5, bits f.trap.tstep.toNat 4 0) else none)
        ∧ g.pc = f.trap.tepc ∧ g.chain = Chain.closed
        ∧ g.regs = f.regs ∧ g.preds = f.preds ∧ g.flags = f.flags ∧ g.fstat = f.fstat ∧ g.trap = f.trap
        ∧ (Ctx.atIssue (viewX 0x1A4 x) s f y).Elsewhere s t)
    ∧ (f.role.isService = true ∨ f.trap.tepc.getLsbD 0 = true ∨ f.trap.tepc >>> 57 ≠ 0 →
      exec (.xret x) s = .next (s.takeTrap f 2 (lowestLane f.em) 0 f.pc 0))

/-- An instruction with a fixed-latency register result that passes its checks issues: the result of its own rule
(fixedResult, Safety.lean) is on its way to the lanes of its mask, due after its latency, with FSTAT bits only if a lane is
active; nothing else changes (03 R79, R80, R86). These are IADD, ISUB, IMUL, IMULH, IMLA, IMLAL, IMIN, IMAX, IABS, INEG,
IADDMIN, AND, OR, XOR, ANDN, NOT, the shifts, CLZ, POPC, BREV, BFX, BFI, SEL, MOV, MOVI, MOVHI; FADD, FSUB, FMUL, FMAC, FMIN,
FMAX, FCLASS, FRINT, PKADD, PKMUL, PKFMA, CVT.F, CVT.I; LPERM, LSHU, LSHD, LXOR, LROT, POLL.MASK, LEQ.MASK, LEQ.ALL, RED.*,
SCAN.ADD; EMGET, GETSR, VARQ, MSTAT, OWNGET and LGET, in every format. Each has a result whatever its operands hold, but
MSTAT, where the flight's team holds the array (12 R270), OWNGET, of a register of 15 R334 that the flight has and through an
operand of its width (15 R355), and LGET, in a collapsed flight and of a register or predicate that is there (15 R356). Here
the destination register takes any lanes; the other classes are ShapesAcceptOrTrap's. -/
def Obligations.FixedResultsComplete : Prop :=
  (∀ (c : Ctx) (i : Instr) (lat : Nat) (out : Ctx → Chk FixedOut) (o : FixedOut),
      fixedResult i = some (lat, out) → out c = .ok o → c.Lands i lat o)
  ∧ ∀ (c : Ctx) (i : Instr) (x : XF) (lat : Nat) (out : Ctx → Chk FixedOut), fixedResult i = some (lat, out) →
      let n := c.x.b.toNat
      let d := c.x.d.toNat
      let sel := c.x.c.toNat
      let wide := n ≤ 0x06 ∨ n = 0x09 ∨ n = 0x0A ∨ n = 0x0F ∨ 0x40 ≤ n
      let named := n ≤ 0x0F ∨ (0x40 ≤ n ∧ n ≤ 0x7F)
      (i = .mstat x → c.f.role.isOwner = false ∧ (c.s.mxCore c.f.core).team = some c.f.team) →
      (i = .ownget x → named ∧ (0x08 ≤ n → n ≤ 0x0C → c.f.role.isService = false)
        ∧ (wide → d = 248 ∨ (d % 2 = 0 ∧ c.f.present d = true ∧ c.f.present (d + 1) = true))) →
      (i = .lget x → (∃ l, c.f.role = .collapsed l) ∧ (c.f.present sel = true ∨ (240 ≤ sel ∧ sel ≤ 246))) →
      ∃ o, out c = .ok o ∧ c.Lands i lat o

/-- IADD and ISUB write A + B and A − B of the exact sources, wrapped or saturated to the type (04 R115, R118). IADDMIN: the sum
saturates before the minimum is taken (04 R121). The products of 04 R119: the low half of the exact product, the high word
signed under .I32 and unsigned otherwise, the multiply-add modulo 2^32, and the long multiply-add modulo 2^64. -/
def Obligations.SumsAndProducts : Prop :=
  (∀ (x : XF) (w : WF) (h : HF) (c : Ctx) (i : Instr),
      (i ∈ [.iadd x, .iaddW32 w, .iaddSatW32 w, .iaddH16 h] → IntResult i c 4 (· + ·))
      ∧ (i ∈ [.isub x, .isubW32 w, .isubSatW32 w, .isubH16 h] → IntResult i c 4 (· - ·)))
  ∧ (∀ (x : XF) (c : Ctx),
      (∃ g, Result32 (.iaddminI32 x) c 4 g ∧ ∀ l, l < 32 → (g l).toInt =
        min (max (-2147483648) (min 2147483647 ((c.srcA.at l).toInt + (c.srcB.at l).toInt))) (c.srcC.at l).toInt)
      ∧ ∃ g, Result32 (.iaddminI16x2 x) c 4 g ∧ ∀ l h, l < 32 → h < 2 → (half (g l) h).toInt =
        min (max (-32768) (min 32767 ((half (c.srcA.at l) h).toInt + (half (c.srcB.at l) h).toInt))) (half (c.srcC.at l) h).toInt)
  ∧ (∀ (x : XF) (w : WF) (c : Ctx) (i : Instr),
      (i ∈ [.imul x, .imulW32 w] → IntResult i c 6 (· * ·))
      ∧ (i ∈ [.imulh x, .imulhI32W32 w, .imulhN32W32 w] →
        (c.itype = 0 → Result32 i c 6 fun l =>
          (((c.srcA.at l).signExtend 64 * (c.srcB.at l).signExtend 64) >>> 32).setWidth 32)
        ∧ (c.itype = 1 → Result32 i c 6 fun l =>
          (((c.srcA.at l).setWidth 64 * (c.srcB.at l).setWidth 64) >>> 32).setWidth 32))
      ∧ (i = .imla x → Result32 i c 6 fun l => c.srcA.at l * c.srcB.at l + c.srcC.at l)
      ∧ (i = .imlalI32 x → Result64 i c 6 fun l =>
        (c.srcA.at l).signExtend 64 * (c.srcB.at l).signExtend 64 + c.pairAt 3 c.x.c l)
      ∧ (i = .imlalN32 x → Result64 i c 6 fun l =>
        (c.srcA.at l).setWidth 64 * (c.srcB.at l).setWidth 64 + c.pairAt 3 c.x.c l))

/-- IMIN, IMAX, IABS, INEG order or negate the exact sources, wrapped or saturated to the type (04 R115, R120). -/
def Obligations.OrderAndSign : Prop :=
  ∀ (x : XF) (w : WF) (h : HF) (c : Ctx) (i : Instr),
    (i ∈ [.imin x, .iminI32W32 w, .iminN32W32 w, .iminH16 h] → IntResult i c 4 min)
    ∧ (i ∈ [.imax x, .imaxI32W32 w, .imaxN32W32 w, .imaxH16 h] → IntResult i c 4 max)
    ∧ (i ∈ [.iabs x, .iabsW32 w] → IntResult i c 4 fun a _ => |a|)
    ∧ (i ∈ [.ineg x, .inegW32 w] → IntResult i c 4 fun a _ => -a)

/-- The bitwise instructions act over 32 or 64 bits (04 R122). Shifts by a register or by the immediate: a count at or beyond
the width gives zero, or the sign in every bit for SAR; ROTL turns by the count modulo the width (04 R123). -/
def Obligations.BitwiseAndShifts : Prop :=
  (∀ (x : XF) (w : WF) (h : HF) (c : Ctx) (i : Instr),
      (i ∈ [.and x, .andW32 w, .andH16 h] → BitResult i c 4 (· &&& ·) (· &&& ·))
      ∧ (i ∈ [.or x, .orW32 w, .orH16 h] → BitResult i c 4 (· ||| ·) (· ||| ·))
      ∧ (i ∈ [.xor x, .xorW32 w, .xorH16 h] → BitResult i c 4 (· ^^^ ·) (· ^^^ ·))
      ∧ (i ∈ [.andn x, .andnW32 w] → BitResult i c 4 (fun a b => a &&& ~~~b) (fun a b => a &&& ~~~b))
      ∧ (i ∈ [.not x, .notW32 w] → BitResult i c 4 (fun a _ => ~~~a) (fun a _ => ~~~a)))
  ∧ (∀ (x : XF) (w : WF) (h : HF) (c : Ctx) (i : Instr),
      let k := c.x.c.toNat
      (i ∈ [.shl x, .shlW32 w, .shlH16 h] → ShiftResult i c (fun a n => if n ≥ 32 then 0 else a <<< n) (fun a n => if n ≥ 64 then 0 else a <<< n))
      ∧ (i ∈ [.shr x, .shrW32 w, .shrH16 h] → ShiftResult i c (fun a n => if n ≥ 32 then 0 else a >>> n) (fun a n => if n ≥ 64 then 0 else a >>> n))
      ∧ (i ∈ [.sar x, .sarW32 w, .sarH16 h] → ShiftResult i c
        (fun a n => if n ≥ 32 then (if a.msb then 0xFFFFFFFF else 0) else a.sshiftRight n)
        (fun a n => if n ≥ 64 then (if a.msb then 0xFFFFFFFFFFFFFFFF else 0) else a.sshiftRight n))
      ∧ (i ∈ [.rotl x, .rotlW32 w] → ShiftResult i c (fun a n => a.rotateLeft (n % 32)) (fun a n => a.rotateLeft (n % 64)))
      ∧ (k < 32 →
        (i ∈ [.shlImm x, .shlImmW32 w] → Result32 i c 4 fun l => c.srcA.at l <<< k)
        ∧ (i ∈ [.shrImm x, .shrImmW32 w] → Result32 i c 4 fun l => c.srcA.at l >>> k)
        ∧ (i ∈ [.sarImm x, .sarImmW32 w] → Result32 i c 4 fun l => (c.srcA.at l).sshiftRight k)
        ∧ (i ∈ [.rotlImm x, .rotlImmW32 w] → Result32 i c 4 fun l => (c.srcA.at l).rotateLeft k)))

/-- CLZ counts the leading zero bits, POPC the set bits, and BREV moves bit i to bit w − 1 − i; a 64-bit count fills a pair (04
R124). BFX takes a field of Va and extends it; BFI replaces a field of Va by the low bits of Vb (04 R125). -/
def Obligations.CountsAndBitFields : Prop :=
  (∀ (x : XF) (w : WF) (c : Ctx) (i : Instr),
      (i ∈ [.clz x, .clzW32 w] → ∃ (n32 : Word → Word) (n64 : DWord → DWord), BitResult i c 4 (fun a _ => n32 a) (fun a _ => n64 a)
        ∧ (∀ a : Word, (n32 a).toNat ≤ 32 ∧ (∀ b, 32 - (n32 a).toNat ≤ b → a.getLsbD b = false)
          ∧ (a ≠ 0 → a.getLsbD (31 - (n32 a).toNat) = true))
        ∧ ∀ a : DWord, (n64 a).toNat ≤ 64 ∧ (∀ b, 64 - (n64 a).toNat ≤ b → a.getLsbD b = false)
          ∧ (a ≠ 0 → a.getLsbD (63 - (n64 a).toNat) = true))
      ∧ (i ∈ [.popc x, .popcW32 w] → BitResult i c 4
        (fun a _ => BitVec.ofNat 32 ((List.range 32).countP fun b => a.getLsbD b))
        (fun a _ => BitVec.ofNat 64 ((List.range 64).countP fun b => a.getLsbD b)))
      ∧ (i ∈ [.brev x, .brevW32 w] → BitResult i c 4 (fun a _ => a.reverse) (fun a _ => a.reverse)))
  ∧ (∀ (x : XF) (c : Ctx),
      (∀ i isI32, (i = .bfxN32 x ∧ isI32 = false) ∨ (i = .bfxI32 x ∧ isI32 = true) → ∃ g, Result32 i c 4 g ∧ ∀ l, l < 32 →
        let a := c.srcA.at l
        let p := (c.srcB.at l).toNat
        let n := min (c.srcC.at l).toNat 32
        let field (b : Nat) : Bool := if p + b < 32 then a.getLsbD (p + b) else isI32 && a.msb
        (n = 0 → g l = 0)
        ∧ (0 < n → ∀ b, b < 32 → (g l).getLsbD b = if b < n then field b else isI32 && field (n - 1)))
      ∧ ∃ g, Result32 (.bfi x) c 4 g ∧ ∀ l, l < 32 →
        let a := c.srcA.at l
        let p := (c.srcC.at l).toNat % 256
        let n := (c.srcC.at l).toNat / 256 % 256
        (p ≥ 32 ∨ n = 0 → g l = a)
        ∧ (p < 32 → 0 < n → ∀ b, b < 32 → (g l).getLsbD b =
          if p ≤ b ∧ b < p + min n (32 - p) then (c.srcB.at l).getLsbD (b - p) else a.getLsbD b))

/-- SEL takes Va where the predicate is 1, else Vb; ICMP sets the predicate where the condition holds of the exact sources (04
R126). The condition is bits 7 to 5 of the modifier byte: 0 EQ to 5 GE (02 R50). MOV copies a word or a pair; MOVI sign-extends
its immediate; MOVHI puts its immediate above the low byte of Vd (04 R127). -/
def Obligations.CompareSelectAndMoves : Prop :=
  (∀ (x : XF) (w : WF) (c : Ctx) (i : Instr),
      (i = .sel x → Result32 i c 4 fun l => if (c.predOf 3 c.x.c.toNat).getLsbD l then c.srcA.at l else c.srcB.at l)
      ∧ (i ∈ [.icmp x, .icmpEqW32 w, .icmpNeW32 w, .icmpLtW32 w, .icmpLeW32 w, .icmpLtN32W32 w, .icmpLeN32W32 w] →
        ∀ rel : Int → Int → Prop,
        [(0, (· = ·)), (1, (· ≠ ·)), (2, (· < ·)), (3, (· ≤ ·)), (4, (· > ·)), (5, (· ≥ ·))].lookup (c.x.c.toNat / 32) = some rel →
        ∃ g, ResultP i c 4 g Fl.none
          ∧ (c.itype < 6 → ∀ l, l < 32 → (g l = true ↔ rel (asInt c.itype (c.srcA.at l)) (asInt c.itype (c.srcB.at l))))
          ∧ (c.itype = 6 ∨ c.itype = 7 → ∀ l, l < 32 →
            (g l = true ↔ rel (asInt c.itype (c.pairAt 1 c.x.a l)) (asInt c.itype (c.pairAt 2 c.x.b l))))))
  ∧ (∀ (x : XF) (w : WF) (h : HF) (c : Ctx) (i : Instr),
      (i ∈ [.mov x, .movW32 w, .movH16 h] → BitResult i c 4 (fun a _ => a) (fun a _ => a))
      ∧ (i ∈ [.movi x, .moviW32 w] → Result32 i c 4 fun _ => c.x.imm24.signExtend 32)
      ∧ (i = .movhi x → Result32 i c 4 fun l => (c.x.imm24.setWidth 32 <<< 8) ||| (c.srcD.at l &&& 0xFF)))

/-- An instruction with a predicate result (ICMP, FCMP, POLL.ANY, POLL.ALL, in every format) that passes its checks issues: its
active bits are on their way, due after its latency, with FSTAT bits only if a lane is active; nothing else changes (03 R79,
R90; 04 R126; 06 R155; 07 R173). -/
def Obligations.PredResultsComplete : Prop :=
  ∀ (c : Ctx) (i : Instr) (lat : Nat) (out : Ctx → Chk (Word × Flags)) (o : Word × Flags),
    predResult i = some (lat, out) → out c = .ok o → c.LandsP i lat o.1 o.2

/-- A result for a register d, d = 0 to 239, is formed in 32 lanes from the new values of its lanes and what the others keep.
If it fits the class of its register, and the high half of a pair fits its own, the instruction issues with the stored forms
on their way; if a half does not fit, it traps SHAPE_VIOLATION at the lowest active lane that departs in either half, else at
the lowest active lane, and writes nothing (04 R111, R112, R113). The shape check over a 32-lane result (04 R111, R112): a
general register takes any; a uniform one takes equal lanes; an affine one takes the base and stride that its two lowest
active lanes give, or its stored stride with one active lane, if every lane fits them. A failure is reported at the lowest
active lane that departs, else at the lowest active lane. -/
def Obligations.ShapesAcceptOrTrap : Prop :=
  (∀ (i : Instr) (v : View) (lat : Nat) (out : Ctx → Chk FixedOut) (s : State) (f : Flight) (x : XF) (o : FixedOut),
      i.view = some v → fixedResult i = some (lat, out) → AtIssue v s f x → out (Ctx.atIssue v s f x) = .ok o →
      x.ws = false → x.d.toNat < 240 → o.mask ≠ 0 →
      let form (r : Nat) (new : Lanes) : Except (Option Nat) RegVal :=
        let old := (f.settled (s.now f.vd + lat)).reg r
        formShape (f.cls r) old.stride o.mask (mergeLanes o.mask old.lanes new)
      let goes (puts : List RegPut) : Prop := ∃ t g p, exec i s = .next t ∧ t.flight f.key = some g
        ∧ (Ctx.atIssue v s f x).SeqIssued [p] f.flags g ∧ (Ctx.atIssue v s f x).Elsewhere s t ∧ p.due = s.now f.vd + lat
        ∧ p.regs = puts ∧ p.fstat = o.flags
      let traps (departs : Option Nat) : Prop := exec i s = .next (s.takeTrap f 3 (departs.getD (lowestLane o.mask)) 0 f.pc 0)
      let d := x.d.toNat
      (o.hi = none → (∀ a, form d o.lo = .ok a → goes [⟨d, o.mask, o.lo, a⟩]) ∧ ∀ l, form d o.lo = .error l → traps l)
      ∧ ∀ hi, o.hi = some hi →
        (∀ a b, form d o.lo = .ok a → form (d + 1) hi = .ok b → goes [⟨d, o.mask, o.lo, a⟩, ⟨d + 1, o.mask, hi, b⟩])
        ∧ (∀ l b, form d o.lo = .error l → form (d + 1) hi = .ok b → traps l)
        ∧ (∀ a m, form d o.lo = .ok a → form (d + 1) hi = .error m → traps m)
        ∧ ∀ l m, form d o.lo = .error l → form (d + 1) hi = .error m →
          (∀ n, l = some n → m = none → traps (some n)) ∧ (∀ n, l = none → m = some n → traps (some n))
          ∧ (∀ n k, l = some n → m = some k → traps (some (min n k))) ∧ (l = none → m = none → traps none))
  ∧ (∀ (stride mask : Word) (res : Lanes), mask ≠ 0 →
      let reported (departs : Nat → Prop) (lane : Nat) : Prop :=
        (mask.getLsbD lane = true ∧ departs lane ∧ ∀ l, l < lane → mask.getLsbD l = true → ¬departs l)
        ∨ (lane = lowestLane mask ∧ ∀ l, mask.getLsbD l = true → ¬departs l)
      fitShape .general stride mask res = .ok (.general res)
      ∧ ((∀ l, l < 32 → res.at l = res.at 0) → fitShape .uniform stride mask res = .ok (.uniform (res.at 0)))
      ∧ ((∃ l, l < 32 ∧ res.at l ≠ res.at 0) → ∃ lane, fitShape .uniform stride mask res = .error lane
        ∧ reported (fun l => res.at l ≠ res.at 0) lane)
      ∧ ∀ l0 rest, lanesOf mask = l0 :: rest →
        let follows (st : Word) : Prop :=
          let b := res.at l0 - BitVec.ofNat 32 l0 * st
          let departs (l : Nat) : Prop := res.at l ≠ b + BitVec.ofNat 32 l * st
          ((∀ l, l < 32 → ¬departs l) → fitShape .affine stride mask res = .ok (.affine b st))
          ∧ ((∃ l, l < 32 ∧ departs l) → ∃ lane, fitShape .affine stride mask res = .error lane ∧ reported departs lane)
        (rest = [] → follows stride)
        ∧ ∀ l1 more, rest = l1 :: more →
          let δ : Int := (res.at l1 - res.at l0).toInt
          (δ % ((l1 : Int) - l0) ≠ 0 → fitShape .affine stride mask res = .error l1)
          ∧ (δ % ((l1 : Int) - l0) = 0 → follows (BitVec.ofInt 32 (δ / ((l1 : Int) - l0)))))

/-- RESULT_WRITEBACK: a flight's results that are due by the cycle reach their registers, predicates, FSTAT and, while the
quadrant still runs its team, their latch; the others stay on their way, and nothing else changes (03 R79, R85, R87; 05 R148).
Here one result is due, of one general register. -/
def Obligations.ResultsLand : Prop :=
  ∀ (s : State) (k : Nat) (f : Flight) (p : Pending) (q : RegPut) (row : Lanes) (later : List Pending),
    s.flight k = some f → f.pend = p :: later → p.due ≤ s.now f.vd → (∀ p' ∈ later, s.now f.vd < p'.due) →
    p.regs = [q] → p.preds = [] → q.stored = .general row →
    ∃ t g, exec (.resultWriteback k) s = .next t ∧ t.flight k = some g
      ∧ g = { f with pend := later, regs := g.regs, fstat := f.fstat ||| p.fstat }
      ∧ g.reg q.reg = .general (mergeLanes q.mask (f.reg q.reg).lanes q.vals)
      ∧ (∀ r, r ≠ q.reg → g.reg r = f.reg r)
      ∧ t = { s with flights := t.flights, quads := t.quads }
      ∧ (∀ j, j ≠ k → t.flight j = s.flight j) ∧ (∀ n, n ≠ f.quad → t.quad n = s.quad n)
      ∧ t.quad f.quad = { s.quad f.quad with latches := (t.quad f.quad).latches }
      ∧ ∀ j, (t.quad f.quad).latches.getD j [] = match p.latch with
        | some l => if (s.quad f.quad).lastTeam = f.latchTeam ∧ l.latch = j ∧ j < (s.quad f.quad).latches.length
            then mergeLanes l.mask ((s.quad f.quad).latches.getD j []) l.vals else (s.quad f.quad).latches.getD j []
        | none => (s.quad f.quad).latches.getD j []

/-- A chain (03 R84 to R86): an instruction with the chain bit, neither W32 nor of the control class, LAND or XRET, opens one
at position 0 with its address as the head, or carries one on; without the bit, or at position 7, it closes the chain. A
fixed-latency result is the valid writer of latch p mod 4, and a later position reads its result there in the lanes it wrote,
once its latency has passed (03 R80), whatever has landed in the latch since. -/
def Obligations.ChainsAndLatches : Prop :=
  (∀ (c : Ctx) (latched : Option Writer), c.f.macroStep = none → c.f.chain.pos ≤ 7 → c.f.chain.writers.length = 4 →
    let p := if c.f.chain.isOpen then c.f.chain.pos else 0
    let stays := c.x.chain = true ∧ c.len ≠ 4 ∧ isControl c.op9 = false ∧ c.op9 ≠ 0x183 ∧ c.op9 ≠ 0x1A4 ∧ p < 7
    let g := c.chainAfter latched
    (¬stays → g.isOpen = false)
    ∧ (stays → g.isOpen = true ∧ g.pos = p + 1 ∧ g.head = (if c.f.chain.isOpen then c.f.chain.head else c.f.pc)
      ∧ ∀ m, latched = some m → g.writers.getD (p % 4) none = some m))
  ∧ ∀ (c : Ctx) (slot j l : Nat) (w : Writer), j < 4 → l < 32 → c.f.chain.isOpen = true →
    c.f.chain.writers.getD j none = some w → w.due ≤ c.now → w.mask.getLsbD l = true →
    (c.src slot (BitVec.ofNat 8 (240 + j))).at l = w.vals.at l

/-- FADD, FSUB, FMUL and FMAC in F32 (06 R151 to R153): ∞ − ∞ and 0 × ∞ are invalid, a NaN gives the canonical NaN, an infinite
operand gives its infinity, and an exact result that is a value of the format is written as it stands; an exact zero sum is +0,
or −0 under .RD, unless both are zeros of one sign. -/
def Obligations.FloatArithmetic : Prop :=
  ∀ (x : XF) (w : WF) (h : HF) (c : Ctx) (i : Instr),
    let sum (a b : Word) (rnd : Nat) (r : Word × Flags) : Prop :=
      FloatRule [a, b] (isInf32 a ∧ isInf32 b ∧ a ≠ b) (fun w => isInf32 w ∧ (w = a ∨ w = b)) (val32 a + val32 b) r
      ∧ (finite32 a → finite32 b → val32 a + val32 b = 0 →
        r = (if isZero32 a ∧ a = b then a else if rnd = 3 then 0x80000000 else 0, Fl.none))
    (i ∈ [.fadd x, .faddW32 w, .faddH16 h] → ∃ g, ResultF i c 6 g ∧ ∀ l, l < 32 → sum (c.srcA.at l) (c.srcB.at l) c.rnd (g l))
    ∧ (i ∈ [.fsub x, .fsubW32 w, .fsubH16 h] → ∃ g, ResultF i c 6 g ∧ ∀ l, l < 32 →
      sum (c.srcA.at l) (c.srcB.at l ^^^ 0x80000000) c.rnd (g l))
    ∧ (i ∈ [.fmul x, .fmulW32 w, .fmulH16 h] → ∃ g, ResultF i c 6 g ∧ ∀ l, l < 32 →
      let a := c.srcA.at l
      let b := c.srcB.at l
      FloatRule [a, b] ((isInf32 a ∧ isZero32 b) ∨ (isZero32 a ∧ isInf32 b))
        (fun w => isInf32 w ∧ (isInf32 a ∨ isInf32 b) ∧ w.msb = (a.msb ^^ b.msb)) (val32 a * val32 b) (g l))
    ∧ ∀ mode, (mode, i) ∈ [(0, .fmacRn x), (1, .fmacRz x), (2, .fmacRu x), (3, .fmacRd x)] → ∃ g, ResultF i c 6 g ∧ ∀ l, l < 32 →
      let a := c.srcA.at l
      let b := c.srcB.at l
      let d := c.srcC.at l
      let prodInf := isInf32 a ∨ isInf32 b
      FloatRule [a, b, d]
        ((isInf32 a ∧ isZero32 b) ∨ (isZero32 a ∧ isInf32 b)
          ∨ (prodInf ∧ ¬isNaN32 a ∧ ¬isNaN32 b ∧ isInf32 d ∧ d.msb ≠ (a.msb ^^ b.msb)))
        (fun w => isInf32 w ∧ ((prodInf ∧ w.msb = (a.msb ^^ b.msb)) ∨ w = d)) (val32 a * val32 b + val32 d) (g l)

/-- FMIN and FMAX (06 R154): −0 orders below +0, a number is returned in preference to a NaN bit for bit, and NV is raised for a
signalling NaN alone. FCMP (06 R155): the relation of two numbers, +0 and −0 equal; a NaN is unordered, which gives 1 for NE and
NAN alone, and raises NV if it is signalling, or for LT, LE, GT and GE whatever it is. CVT.I from F32 (06 R163): NaN gives 0
with NV; a value whose rounding lies outside the range gives the limit of its sign with NV; else the rounded value, with NX
where it changed. Modes 0 RN, ties to even; 1 RZ; 2 RU; 3 RD; 4 RO, odd when inexact. -/
def Obligations.FloatOrderAndConversion : Prop :=
  (∀ (x : XF) (w : WF) (h : HF) (c : Ctx) (i : Instr),
      let below (a b : Word) : Prop := val32 a < val32 b ∨ (val32 a = val32 b ∧ a.msb = true ∧ b.msb = false)
      let rule (small : Bool) (a b : Word) (r : Word × Flags) : Prop :=
        (isNaN32 a → isNaN32 b → r.1 = 0x7FC00000) ∧ (isNaN32 a → ¬isNaN32 b → r.1 = b) ∧ (¬isNaN32 a → isNaN32 b → r.1 = a)
        ∧ (finite32 a → finite32 b → (below a b → r.1 = if small then a else b) ∧ (below b a → r.1 = if small then b else a))
        ∧ (isInf32 a → ¬isNaN32 b → r.1 = if a.msb = small then a else b)
        ∧ (isInf32 b → ¬isNaN32 a → r.1 = if b.msb = small then b else a) ∧ (a = b → ¬isNaN32 a → r.1 = a)
        ∧ (isSNaN32 a ∨ isSNaN32 b → r.2 = Fl.nv) ∧ (¬isSNaN32 a → ¬isSNaN32 b → r.2 = Fl.none)
      (i ∈ [.fmin x, .fminW32 w, .fminH16 h] → ∃ g, ResultF i c 6 g ∧ ∀ l, l < 32 → rule true (c.srcA.at l) (c.srcB.at l) (g l))
      ∧ (i ∈ [.fmax x, .fmaxW32 w, .fmaxH16 h] → ∃ g, ResultF i c 6 g ∧ ∀ l, l < 32 → rule false (c.srcA.at l) (c.srcB.at l) (g l)))
  ∧ (∀ (x : XF) (c : Ctx) (rel : ℚ → ℚ → Prop) (k : Nat), c.rnd = k →
      [(0, (· = ·)), (1, (· ≠ ·)), (2, (· < ·)), (3, (· ≤ ·)), (4, (· > ·)), (5, (· ≥ ·)), (6, fun _ _ => True), (7, fun _ _ => False)].lookup k
        = some rel →
      ∃ g fl, ResultP (.fcmp x) c 6 g fl ∧ ∀ l, l < 32 →
        let a := c.srcA.at l
        let b := c.srcB.at l
        let v (w : Word) : ℚ := if isInf32 w then (if w.msb then -2 ^ 200 else 2 ^ 200) else val32 w
        (¬isNaN32 a → ¬isNaN32 b → (g l = true ↔ rel (v a) (v b)))
        ∧ (isNaN32 a ∨ isNaN32 b → (g l = true ↔ k = 1 ∨ k = 7))
        ∧ (fl = Fl.none ∨ fl = Fl.nv)
        ∧ (fl = Fl.nv ↔ ∃ j, j < 32 ∧ c.f.em.getLsbD j = true ∧ (isSNaN32 (c.srcA.at j) ∨ isSNaN32 (c.srcB.at j)
          ∨ (2 ≤ k ∧ k ≤ 5 ∧ (isNaN32 (c.srcA.at j) ∨ isNaN32 (c.srcB.at j))))))
  ∧ (∀ (x : XF) (c : Ctx), c.x.b = 0x10 → c.itype < 6 → c.rnd < 5 → ∃ g, ResultF (.cvtI x) c 6 g ∧ ∀ l, l < 32 →
      let a := c.srcA.at l
      let rounds (v : ℚ) (n : Int) : Prop := match c.rnd with
        | 0 => |v - n| < 1 / 2 ∨ (|v - n| = 1 / 2 ∧ n % 2 = 0)
        | 1 => n = if v < 0 then ⌈v⌉ else ⌊v⌋
        | 2 => n = ⌈v⌉
        | 3 => n = ⌊v⌋
        | _ => (n : ℚ) = v ∨ ((n = ⌊v⌋ ∨ n = ⌈v⌉) ∧ n % 2 = 1 ∧ ⌊v⌋ ≠ ⌈v⌉)
      let is (n : Int) (fl : Flags) : Prop := asInt c.itype (g l).1 = n ∧ (g l).2 = fl
      (isNaN32 a → (g l).1 = 0 ∧ (g l).2 = Fl.nv)
      ∧ (isInf32 a → is (if a.msb then (rangeT c.itype).1 else (rangeT c.itype).2) Fl.nv)
      ∧ (finite32 a → ∀ n, rounds (val32 a) n →
        ((rangeT c.itype).1 ≤ n → n ≤ (rangeT c.itype).2 → is n (if (n : ℚ) = val32 a then Fl.none else Fl.nx))
        ∧ (n < (rangeT c.itype).1 → is (rangeT c.itype).1 Fl.nv) ∧ ((rangeT c.itype).2 < n → is (rangeT c.itype).2 Fl.nv)))

/-- Each lane receives the value of the source lane that its form names, active or not; in owner mode every lane but the
flight's own reads zero (07 R168, R172). The polls count a predicate over the active lanes (07 R173); the equality masks compare
the words of the active lanes (07 R174). -/
def Obligations.LanesMoveAndCompare : Prop :=
  (∀ (x : XF) (w : WF) (c : Ctx) (i : Instr),
      let a (m : Nat) : Word := if c.f.role.isOwner = true ∧ m ≠ c.f.role.ownerLane then 0 else c.srcA.at m
      let k := c.x.c.toNat
      (i ∈ [.lperm x, .lpermW32 w] → Result32 i c 8 fun l => a ((c.srcB.at l).toNat % 32))
      ∧ (k < 32 →
        (i ∈ [.lshu x, .lshuW32 w] → Result32 i c 8 fun l => if k ≤ l then a (l - k) else a l)
        ∧ (i ∈ [.lshd x, .lshdW32 w] → Result32 i c 8 fun l => if l + k < 32 then a (l + k) else a l)
        ∧ (i ∈ [.lxor x, .lxorW32 w] → Result32 i c 8 fun l => a (l ^^^ k))
        ∧ (i = .lrot x → Result32 i c 8 fun l => a ((l + (32 - k)) % 32))))
  ∧ (∀ (x : XF) (w : WF) (c : Ctx) (i : Instr),
      let m := c.predOf 1 c.x.a.toNat &&& c.f.em
      (i = .pollAny x → ResultP i c 8 (fun _ => m ≠ 0) Fl.none)
      ∧ (i = .pollAll x → ResultP i c 8 (fun _ => m = c.f.em) Fl.none)
      ∧ (i ∈ [.pollMask x, .pollMaskW32 w] → Result32 i c 8 fun _ => m)
      ∧ (i = .leqMask x → ∃ g, Result32 i c 8 g ∧ ∀ l j, l < 32 → j < 32 →
        ((g l).getLsbD j = true ↔ c.f.em.getLsbD j = true ∧ c.srcA.at j = c.srcA.at l))
      ∧ (i = .leqAll x → ∃ r, Result32 i c 8 (fun _ => r)
        ∧ ((∀ j k, c.f.em.getLsbD j = true → c.f.em.getLsbD k = true → c.srcA.at j = c.srcA.at k) → r = c.f.em)
        ∧ ((∃ j k, c.f.em.getLsbD j = true ∧ c.f.em.getLsbD k = true ∧ c.srcA.at j ≠ c.srcA.at k) → r = 0)))

/-- The reductions combine the 32 lanes through the tree of 07 R169 with the operations and identities of R170, and SCAN.ADD
writes the sum of the active lanes at or below (07 R175 to R177). -/
def Obligations.ReductionsAndScan : Prop :=
  ∀ (x : XF) (c : Ctx),
    let quiet (_ _ : Word) : Flags := Fl.none
    TreeResult (.redAdd x) c 0 (· + ·) quiet
    ∧ (c.itype = 0 → TreeResult (.redMin x) c 0x7FFFFFFF (fun a b => if a.toInt ≤ b.toInt then a else b) quiet
      ∧ TreeResult (.redMax x) c 0x80000000 (fun a b => if a.toInt ≤ b.toInt then b else a) quiet)
    ∧ (c.itype = 1 → TreeResult (.redMin x) c 0xFFFFFFFF (fun a b => if a.toNat ≤ b.toNat then a else b) quiet
      ∧ TreeResult (.redMax x) c 0 (fun a b => if a.toNat ≤ b.toNat then b else a) quiet)
    ∧ TreeResult (.redAnd x) c 0xFFFFFFFF (· &&& ·) quiet
    ∧ TreeResult (.redOr x) c 0 (· ||| ·) quiet ∧ TreeResult (.redXor x) c 0 (· ^^^ ·) quiet
    ∧ (let node (g : Nat → Nat → Nat × Flags) (a b : Word) : Word := BitVec.ofNat 32 (g a.toNat b.toNat).1
      let flag (g : Nat → Nat → Nat × Flags) (a b : Word) : Flags := (g a.toNat b.toNat).2
      let fadd (a b : Nat) := f32.addOp a b 0 false
      TreeResult (.redFadd x) c 0x80000000 (node fadd) (flag fadd)
      ∧ TreeResult (.redFmin x) c 0x7FC00000 (node (fminmax false)) (flag (fminmax false))
      ∧ TreeResult (.redFmax x) c 0x7FC00000 (node (fminmax true)) (flag (fminmax true)))
    ∧ Result32 (.scanAdd x) c 8 fun l => (((List.range (l + 1)).filter fun m => c.f.em.getLsbD m).map c.srcA.at).sum

/-- An instruction of the variable-latency float unit that passes its checks enters its quadrant's unit with its operands as
read, and raises its set flag; its register keeps its value until completion (03 R82, R83; 06 R158, R159, R165, R166).
FLOAT_UNIT_COMPLETE ends the oldest instruction of a flight in its unit: the result reaches the active lanes of its general
register, its flags are ORed into FSTAT, then its set flag drops by one (06 R158; 03 R82, R83). Here the flight is not saved.
The cases that 06 R159 decides apart from rounding, lane by lane in the unit's result: zeros, infinities, NaNs and numbers below
zero, with their flags. -/
def Obligations.FloatUnit : Prop :=
  (∀ (i : Instr) (op9 : Nat) (x y : XF) (s : State) (f : Flight),
      (i, op9) ∈ [(.frcp x, 0x090), (.frsq x, 0x091), (.fsqrt x, 0x092), (.fex2 x, 0x093), (.flg2 x, 0x094), (.fsin x, 0x095),
        (.fcos x, 0x096), (.dxpack x, 0x0A2), (.dxunpk x, 0x0A3)] → AtIssue (viewX op9 x) s f y →
      let c := Ctx.atIssue (viewX op9 x) s f y
      ∃ t g, exec i s = .next t ∧ t.flight f.key = some g ∧ c.VarIssued g ∧ c.Others s t
        ∧ t.vfu = s.vfu ++ [⟨s.nextKey, f.key, op9, y.c.toNat, y.d.toNat, f.em, c.srcA, c.srcB, c.flag, f.pc⟩]
        ∧ t = { s with
          flights := t.flights, quads := t.quads, owners := t.owners, free := t.free, vfu := t.vfu, nextKey := s.nextKey + 1 })
  ∧ (∀ (s : State) (k : Nat) (f : Flight) (o : VfuOp), s.flight k = some f → (s.vfu.find? fun o => o.flight = k) = some o →
      s.flightFrame f = none → s.regFrame f o.dst = none → o.dst < 240 → f.cls o.dst = .general → o.mask ≠ 0 →
      ∃ t g, exec (.floatUnitComplete k) s = .next t ∧ t.flight k = some g
        ∧ g = { f with regs := g.regs, fstat := f.fstat ||| o.result.2, flags := g.flags }
        ∧ g.reg o.dst = .general (mergeLanes o.mask (f.reg o.dst).lanes o.result.1) ∧ (∀ r, r ≠ o.dst → g.reg r = f.reg r)
        ∧ (∀ n, n < 12 → g.flags.getD n 0 = if o.flag = some n then f.flags.getD n 0 - 1 else f.flags.getD n 0)
        ∧ t = { s with flights := t.flights, vfu := s.vfu.filter fun x => x.key ≠ o.key }
        ∧ (∀ j, j ≠ k → t.flight j = s.flight j) ∧ ∀ a, t.byte a = s.byte a)
  ∧ (∀ (a : Word) (mode : Nat),
      let r (op9 : Nat) : Word × Flags := (BitVec.ofNat 32 (vfuFunc op9 a.toNat mode).1, (vfuFunc op9 a.toNat mode).2)
      let sign : Word := a &&& 0x80000000
      (isNaN32 a → ∀ op9 ∈ [0x090, 0x091, 0x092, 0x093, 0x094, 0x095, 0x096],
        r op9 = (0x7FC00000, if isSNaN32 a then Fl.nv else Fl.none))
      ∧ (isZero32 a → r 0x090 = (sign ||| 0x7F800000, Fl.dz) ∧ r 0x091 = (sign ||| 0x7F800000, Fl.dz) ∧ r 0x092 = (a, Fl.none)
        ∧ r 0x093 = (0x3F800000, Fl.none) ∧ r 0x094 = (0xFF800000, Fl.dz) ∧ r 0x095 = (a, Fl.none)
        ∧ r 0x096 = (0x3F800000, Fl.none))
      ∧ (isInf32 a → r 0x090 = (sign, Fl.none) ∧ r 0x095 = (0x7FC00000, Fl.nv) ∧ r 0x096 = (0x7FC00000, Fl.nv)
        ∧ (a.msb = false → r 0x091 = (0, Fl.none) ∧ r 0x092 = (a, Fl.none) ∧ r 0x093 = (a, Fl.none) ∧ r 0x094 = (a, Fl.none))
        ∧ (a.msb = true → r 0x093 = (0, Fl.none)))
      ∧ (¬isNaN32 a → ¬isZero32 a → a.msb = true → ∀ op9 ∈ [0x091, 0x092, 0x094], r op9 = (0x7FC00000, Fl.nv)))

/-- NOP falls through; the branches lead to PC + 2 × offset when they are taken, else past themselves: BRA always, BREZ when
EM is zero, BRP on the active bits of its predicate by its mode, in W32 ANY or NONE (03 R101, R105). JMP and RET go to a
uniform pair's value, and trap ILLEGAL_OPERAND if it is odd or above bit 56, or if the pair is not uniform; CALL goes to PC +
2 × offset and sends PC + len to every lane of its uniform pair, after 4 cycles, in a collapsed flight too (03 R102, R90).
MCALL enters the first step of a body of its variant, PC staying at the MCALL, and closes any chain; in owner mode, or without
such a body, it traps ILLEGAL_OPERAND (03 R84, R93, R99). -/
def Obligations.ControlTransfers : Prop :=
  (∀ (i : Instr) (x : XF) (w : WF) (v : View) (s : State) (f : Flight) (y : XF), i.view = some v → AtIssue v s f y →
      let c := Ctx.atIssue v s f y
      let m := c.predOf 1 (y.d.toNat % 8) &&& f.em
      let goes (take : Prop) : Prop := ∃ t g, exec i s = .next t ∧ t.flight f.key = some g ∧ c.Elsewhere s t
        ∧ (take → g = c.left f (f.pc + 2 * y.imm24.signExtend 64)) ∧ (¬take → g = c.left f (f.pc + BitVec.ofNat 64 v.len))
      (i ∈ [.nop x, .nopW32 w] → goes False)
      ∧ (i ∈ [.bra x, .braW32 w] → goes True)
      ∧ (i ∈ [.brez x, .brezW32 w] → goes (f.em = 0))
      ∧ (i = .brp x → (y.d.toNat / 8 = 0 → goes (m ≠ 0)) ∧ (y.d.toNat / 8 = 1 → goes (m = f.em)) ∧ (y.d.toNat / 8 = 2 → goes (m = 0))
        ∧ (y.d.toNat / 8 = 3 → goes (m ≠ f.em)))
      ∧ (i = .brpAnyW32 w → goes (m ≠ 0)) ∧ (i = .brpNoneW32 w → goes (m = 0)))
  ∧ (∀ (i : Instr) (x y : XF) (s : State) (f : Flight),
      (∀ op9, (i, op9) ∈ [(.jmp x, 0x004), (.ret x, 0x006)] → AtIssue (viewX op9 x) s f y →
        let c := Ctx.atIssue (viewX op9 x) s f y
        let pair := y.a.toNat < 240 ∧ f.cls y.a.toNat = .uniform ∧ f.cls (y.a.toNat + 1) = .uniform
        let target := c.pairAt 1 y.a 0
        (pair → target.getLsbD 0 = false → target >>> 57 = 0 →
          ∃ t, exec i s = .next t ∧ t.flight f.key = some (c.left f target) ∧ c.Elsewhere s t)
        ∧ (¬pair ∨ target.getLsbD 0 = true ∨ target >>> 57 ≠ 0 →
          exec i s = .next (s.takeTrap f 2 (lowestLane f.em) 0 f.pc 0)))
      ∧ (i = .call x → AtIssue (viewX 0x005 x) s f y →
        let c := Ctx.atIssue (viewX 0x005 x) s f y
        let d := y.d.toNat
        let target := f.pc + 2 * y.imm24.signExtend 64
        let link := f.pc + 8
        (d = 248 → ∃ t, exec i s = .next t ∧ t.flight f.key = some (c.left f target) ∧ c.Elsewhere s t)
        ∧ (d ≠ 248 → f.cls d = .uniform → f.cls (d + 1) = .uniform → y.ws = false →
          let all : Word := 0xFFFFFFFF
          ∃ t p, exec i s = .next t ∧ t.flight f.key = some (c.left { f with pend := f.pend ++ [p] } target) ∧ c.Elsewhere s t
            ∧ p.due = s.now f.vd + 4
            ∧ p.writes = [(d, all, Lanes.tab fun _ => link.setWidth 32), (d + 1, all, Lanes.tab fun _ => (link >>> 32).setWidth 32)]
            ∧ p.preds = [] ∧ p.latch = none ∧ p.fstat = 0)
        ∧ (d ≠ 248 → ¬(f.cls d = .uniform ∧ f.cls (d + 1) = .uniform) →
          exec i s = .next (s.takeTrap f 2 (lowestLane f.em) 0 f.pc 0))))
  ∧ (∀ (x y : XF) (s : State) (f : Flight), AtIssue (viewX 0x010 x) s f y →
      let c := Ctx.atIssue (viewX 0x010 x) s f y
      let n := y.a.toNat
      (∀ step steps, f.role.isOwner = false → s.body f n = some (step :: steps) →
        ∃ t, exec (.mcall x) s = .next t ∧ c.Elsewhere s t
          ∧ t.flight f.key = some { c.left f 0 with pc := f.pc, macroStep := some (n, 0) })
      ∧ (f.role.isOwner = true ∨ s.body f n = none ∨ s.body f n = some [] →
        exec (.mcall x) s = .next (s.takeTrap f 2 (lowestLane f.em) 0 f.pc 0)))

/-- EMGET reads EM into every lane, whatever EM holds; EMSET, EMAND and EMANDN change it at issue (03 R81, R103). In owner mode
the other lanes' bits stay 0 (15 R326). GETSR writes the selected value in the active lanes (02 R62; 03 R107): the lane, the
flight's index, its core, hall, gallery, partition and owner, EM, FSTAT, and as a pair the partition's cycle count at the issue
cycle. FSTAT shows every bit that has landed, and a bit of a result on its way or does not (05 R148). -/
def Obligations.MaskAndSpecialValues : Prop :=
  (∀ (i : Instr) (x : XF) (w : WF) (v : View) (s : State) (f : Flight) (y : XF), i.view = some v → AtIssue v s f y →
      let c := Ctx.atIssue v s f y
      let p := c.predOf 1 y.a.toNat
      let sets (em : Word) : Prop := ∃ t, exec i s = .next t ∧ c.Elsewhere s t ∧ t.flight f.key = some
        (c.left { f with em := if f.role.isOwner then em &&& BitVec.ofNat 32 (2 ^ f.role.ownerLane) else em } (f.pc + BitVec.ofNat 64 v.len))
      (i ∈ [.emget x, .emgetW32 w] → ∃ out o, fixedResult i = some (4, out) ∧ out c = .ok o ∧ o.hi = none ∧ o.flags = Fl.none
        ∧ o.mask = 0xFFFFFFFF ∧ ∀ l, l < 32 → o.lo.at l = f.em)
      ∧ (i ∈ [.emset x, .emsetW32 w] → sets (c.srcA.at 0))
      ∧ (i ∈ [.emand x, .emandW32 w] → sets (f.em &&& p))
      ∧ (i ∈ [.emandn x, .emandnW32 w] → sets (f.em &&& ~~~p)))
  ∧ (∀ (i : Instr) (x : XF) (w : WF) (c : Ctx), i ∈ [.getsr x, .getsrW32 w] →
      let sel := c.x.a.toNat
      let val (n : Nat) : Prop := Result32 i c 4 fun _ => BitVec.ofNat 32 n
      (sel = 0 → Result32 i c 4 fun l => BitVec.ofNat 32 l)
      ∧ (sel = 1 → val c.f.index) ∧ (sel = 4 → val c.f.core) ∧ (sel = 5 → val (c.f.core / 12)) ∧ (sel = 6 → val (c.f.core / 72))
      ∧ (sel = 7 → val (c.s.owner c.f.vd).part) ∧ (sel = 8 → val c.f.vd)
      ∧ (∀ t, sel = 9 → c.s.team c.f.team = some t → val t.variant)
      ∧ (sel = 10 → Result64 i c 4 fun _ => BitVec.ofNat 64 c.now)
      ∧ (sel = 11 → val c.f.em.toNat)
      ∧ (sel = 12 → ∃ v : BitVec 6, val v.toNat ∧ ∀ b, b < 6 →
        (c.f.fstat.getLsbD b = true ∨ (∃ p ∈ c.f.pend, p.due ≤ c.now ∧ p.fstat.getLsbD b = true) → v.getLsbD b = true)
        ∧ (v.getLsbD b = true → c.f.fstat.getLsbD b = true ∨ (∃ p ∈ c.f.pend, p.fstat.getLsbD b = true)
          ∨ ∃ e ∈ c.f.early, e.fstat.getLsbD b = true))
      ∧ (c.x.c = 0 → (sel = 2 → Result32 i c 4 fun l => BitVec.ofNat 32 l) ∧ (sel = 3 → val 32)))

/-- YIELD makes its flight the youngest of its quadrant and holds it back for 8 cycles, or until another flight issues; WAITF
issues when every flag is zero and nothing that the flight issued is outstanding, and blocks until then (03 R105). EXIT ends
its flight, in lane mode or collapsed, once every flag is zero and nothing it issued is outstanding, its gathered stores then
drained (08 R191), and blocks it until then, or while a pin holds a gathered store of it (12 R280); a service flight traps
ILLEGAL_OPERAND (03 R106). The clause on what else EXIT leaves alone is of a flight with no gathered write, and no flight
waits in a barrier. -/
def Obligations.SchedulingAndExit : Prop :=
  (∀ (i : Instr) (x : XF) (w : WF) (v : View) (s : State) (f : Flight) (y : XF), i.view = some v → AtIssue v s f y →
      let c := Ctx.atIssue v s f y
      let next := f.pc + BitVec.ofNat 64 v.len
      (i ∈ [.yield x, .yieldW32 w] → ∃ t, exec i s = .next t
        ∧ t.flight f.key = some { c.left f next with yielding := some (s.now f.vd + 8) }
        ∧ (t.quad f.quad).order = ((s.quad f.quad).order.filter fun k => k ≠ f.key) ++ [f.key]
        ∧ t = { s with flights := t.flights, quads := t.quads, owners := t.owners, free := t.free }
        ∧ ∀ a, t.byte a = s.byte a)
      ∧ (i ∈ [.waitf x, .waitfW32 w] →
        let idle := (∀ n ∈ f.flags, n = 0) ∧ s.quiet f.key = true
        (idle → ∃ t, exec i s = .next t ∧ t.flight f.key = some (c.left f next) ∧ c.Elsewhere s t)
        ∧ (¬idle → ∃ t, exec i s = .next t
          ∧ t.flight f.key = some { f with
            block := .flags, chain := Chain.closed, lastIssue := some (s.now f.vd), waitCount := 0, yielding := none }
          ∧ t = { s with flights := t.flights, quads := t.quads, owners := t.owners } ∧ c.Others s t)))
  ∧ (∀ (i : Instr) (x : XF) (w : WF) (v : View) (s : State) (f : Flight) (y : XF), i ∈ [.exit x, .exitW32 w] →
      i.view = some v → AtIssue v s f y →
      let c := Ctx.atIssue v s f y
      let idle := (∀ n ∈ f.flags, n = 0) ∧ s.quiet f.key = true ∧ s.wcStuck f.key = false
      (f.role.isService = false → idle → (∃ t g, exec i s = .next t ∧ t.flight f.key = some g ∧ g.ended = true
          ∧ g = { c.left f 0 with pc := f.pc, ended := true }))
      ∧ (f.role.isService = false → idle → (∀ e ∈ s.wc, e.flight ≠ f.key) → (∀ b ∈ s.barriers, b.arrived = []) →
        ∃ t g, exec i s = .next t ∧ t.flight f.key = some g ∧ g.ended = true
          ∧ g = { c.left f 0 with pc := f.pc, ended := true } ∧ c.Elsewhere s t)
      ∧ (f.role.isService = false → ¬idle → ∃ t, exec i s = .next t
        ∧ t.flight f.key = some { f with
          block := .exit, chain := Chain.closed, lastIssue := some (s.now f.vd), waitCount := 0, yielding := none }
        ∧ t = { s with flights := t.flights, quads := t.quads, owners := t.owners } ∧ c.Others s t)
      ∧ (f.role.isService = true → exec i s = .next (s.takeTrap f 2 (lowestLane f.em) 0 f.pc 0)))

/-- FENCE (09 R227): an acquire waits for the flight's loads and atomics, a release for all its accesses, after its gathered
writes have left the write-combining buffer; when nothing of these is outstanding the fence issues, else the flight blocks.
Order 1 is acquire, 2 release, 3 both, 4 SC. ARRIVE and WAITB (03 R108; 09 R229): an arrival joins the current generation of
the flight's unit and is pending; the generation completes, and a new one begins with none arrived, when every member has
arrived with nothing outstanding, or has ended. WAITB issues when no arrival is pending or its generation has completed, else
it blocks the flight; a level that the launch does not declare, or owner mode, traps ILLEGAL_OPERAND. BAR arrives and waits
(03 R108): a generation that its arrival completes lets it issue, with no arrival pending; otherwise the flight has arrived
and blocks until the generation completes, and then issues; the last member to arrive issues at once.
BARRIER_GENERATION_COMPLETE completes a generation when every member has arrived with nothing outstanding, or has ended, and
does nothing before. Gathered writes of the flights concerned are drained first (09 R229); one that a pin holds holds the
fence and the generation (12 R280). -/
def Obligations.FencesAndBarriers : Prop :=
  (∀ (x y : XF) (s : State) (f : Flight), AtIssue (viewX 0x120 x) s f y →
      let c := Ctx.atIssue (viewX 0x120 x) s f y
      let order := y.c.toNat / 8
      let held := (∃ o ∈ s.memOps, o.flight = f.key ∧ ((order ≠ 1 ∧ o.kind.accesses = true) ∨ (order ≠ 2 ∧ o.kind.reads = true)))
        ∨ (order ≠ 2 ∧ ∃ e ∈ f.early, e.reads = true)
      let pinned := order ≠ 1 ∧ ∃ e ∈ s.wc, e.flight = f.key ∧ s.pinned e.line = true
      1 ≤ order → order ≤ 4 →
      (¬held → ¬pinned → ∃ t g, exec (.fence x) s = .next t ∧ t.flight f.key = some g ∧ c.SeqIssued [] f.flags g
        ∧ (order ≠ 1 → ∀ e ∈ t.wc, e.flight ≠ f.key) ∧ ((order = 1 ∨ ∀ e ∈ s.wc, e.flight ≠ f.key) → c.Elsewhere s t))
      ∧ (held → ∃ t g, exec (.fence x) s = .next t ∧ t.flight f.key = some g
        ∧ g = { f with
          block := .fence order (y.c.toNat % 8), chain := Chain.closed, lastIssue := some (s.now f.vd), waitCount := 0, yielding := none }))
  ∧ (∀ (x y : XF) (s : State) (f : Flight) (g : Grid) (u : Nat),
      let k := y.c.toNat
      let legal := f.role.isOwner = false ∧ 1 ≤ k ∧ k ≤ 7 ∧ k ≤ g.levels.length
      s.unitOf f k = some (g, u) → f.bars.length = 7 →
      (AtIssue (viewX 0x122 x) s f y → legal → (∀ gen, (f.bar k).pending = some gen → gen < (s.barrier g.key k u).gen) →
        ∃ t h, exec (.arrive x) s = .next t ∧ t.flight f.key = some h ∧ h.bar k = ⟨some (s.barrier g.key k u).gen, (s.barrier g.key k u).gen + 1⟩
          ∧ (∀ j, 1 ≤ j → j ≠ k → h.bar j = f.bar j) ∧ h.regs = f.regs ∧ h.preds = f.preds ∧ h.flags = f.flags ∧ h.fstat = f.fstat
          ∧ h.block = .none ∧ t.memOps = s.memOps ∧ (s.wc = [] → t.mem = s.mem ∧ t.lines = s.lines ∧ t.llc = s.llc)
          ∧ (((t.barrier g.key k u).gen = (s.barrier g.key k u).gen
              ∧ (t.barrier g.key k u).arrived = (s.barrier g.key k u).arrived ++ [(f.key, s.beforeArrival f)])
            ∨ ((t.barrier g.key k u).gen = (s.barrier g.key k u).gen + 1 ∧ (t.barrier g.key k u).arrived = [])))
      ∧ (AtIssue (viewX 0x123 x) s f y →
        let c := Ctx.atIssue (viewX 0x123 x) s f y
        (legal → (f.bar k).pending = none →
          ∃ t h, exec (.waitb x) s = .next t ∧ t.flight f.key = some h ∧ c.SeqIssued [] f.flags h ∧ c.Elsewhere s t)
        ∧ (∀ gen, legal → (f.bar k).pending = some gen → gen < (s.barrier g.key k u).gen →
          ∃ t h, exec (.waitb x) s = .next t ∧ t.flight f.key = some h ∧ (h.bar k).pending = none ∧ h.block = .none
            ∧ h.regs = f.regs ∧ c.Elsewhere s t)
        ∧ (∀ gen, legal → (f.bar k).pending = some gen → (s.barrier g.key k u).gen ≤ gen →
          ∃ t h, exec (.waitb x) s = .next t ∧ t.flight f.key = some h ∧ h.block = .barrier k gen ∧ h.bars = f.bars)
        ∧ (¬legal → exec (.waitb x) s = .next (s.takeTrap f 2 (lowestLane f.em) 0 f.pc 0))))
  ∧ ((∀ (x y : XF) (s : State) (f : Flight) (g : Grid) (u : Nat), AtIssue (viewX 0x121 x) s f y →
      let k := y.c.toNat
      let b := s.barrier g.key k u
      s.unitOf f k = some (g, u) → f.bars.length = 7 → f.role.isOwner = false → 1 ≤ k → k ≤ 7 → k ≤ g.levels.length →
      ((∀ n gen, f.block ≠ .barrier n gen) → (∀ gen, (f.bar k).pending = some gen → gen < b.gen) →
        ∃ t h, exec (.bar x) s = .next t ∧ t.flight f.key = some h ∧ h.regs = f.regs ∧ h.flags = f.flags
          ∧ (((t.barrier g.key k u).gen = b.gen + 1 ∧ (t.barrier g.key k u).arrived = [] ∧ (h.bar k).pending = none ∧ h.block = .none)
            ∨ ((t.barrier g.key k u).gen = b.gen ∧ f.key ∈ (t.barrier g.key k u).arrived.map Prod.fst
              ∧ (h.bar k).pending = some b.gen ∧ h.block = .barrier k b.gen)))
      ∧ ((∀ n gen, f.block ≠ .barrier n gen) → (∀ gen, (f.bar k).pending = some gen → gen < b.gen) → s.beforeArrival f = [] →
        (∀ e ∈ s.wc, s.pinned e.line = false) →
        (∀ j, j < g.unitSize k →
          s.memberArrived g { b with arrived := b.arrived ++ [(f.key, [])] } (u * g.unitSize k + j) = true) →
        ∃ t h, exec (.bar x) s = .next t ∧ t.flight f.key = some h ∧ (t.barrier g.key k u).gen = b.gen + 1 ∧ (h.bar k).pending = none
          ∧ h.block = .none ∧ h.regs = f.regs ∧ h.flags = f.flags)
      ∧ (∀ gen, f.block = .barrier k gen → gen < b.gen →
        ∃ t h, exec (.bar x) s = .next t ∧ t.flight f.key = some h ∧ (h.bar k).pending = none ∧ h.block = .none ∧ h.regs = f.regs
          ∧ h.flags = f.flags ∧ (Ctx.atIssue (viewX 0x121 x) s f y).Elsewhere s t))
    ∧ ∀ (s : State) (g : Grid) (level unit : Nat), s.grid g.key = some g →
      let b := s.barrier g.key level unit
      let all := ∀ j, j < g.unitSize level → s.memberArrived g b (unit * g.unitSize level + j) = true
      (all → ∃ t, exec (.barrierGenerationComplete g.key level unit) s = .next t ∧ (t.barrier g.key level unit).gen = b.gen + 1
        ∧ (t.barrier g.key level unit).arrived = [] ∧ (s.wc = [] → t = { s with barriers := t.barriers })
        ∧ ∀ k n j, ¬(k = g.key ∧ n = level ∧ j = unit) → t.barrier k n j = s.barrier k n j)
      ∧ (¬all → exec (.barrierGenerationComplete g.key level unit) s = .next s))

/-- The address of a global element that is not DX (08 R184, R185): BASE + Swz(offset), or under KIND 2 BASE + Swz(y × W +
Row), modulo 2^57. A lane out of extent traps BUFFER_BOUNDS under BOUNDS 0 and is clamped under BOUNDS 1; then an address that
is not a multiple of `align` traps MISALIGNED; the lowest lane that fails is the one reported. LEA writes the address of each
active lane's first byte to a pair, in 4 cycles, a clamped lane's too (04 R128; 08 R184); that the position after pitch and
interleave is what it tests is the model's reading (log 84). Reading a record enters it among the core's cached records and,
with no stash window open and no access owed after a transfer, changes nothing else (08 R183). -/
def Obligations.GlobalAddresses : Prop :=
  (∀ (c : Ctx) (r : BufRec) (n disp align : Nat), r.isDx = false →
      let off (l : Nat) : Nat := (c.srcA.at l).toNat + disp
      let swz (o : Nat) : Nat :=
        if r.ilm = 4 ∧ 7 ≤ r.ilp ∧ r.ilp ≤ 26 then o ^^^ (o / 2 ^ (r.ilp + 5) % 32 * 2 ^ r.ilp) else o
      let row (l : Nat) : Nat :=
        if r.ilm = 1 then off l % 2 ^ 20 ^^^ (off l / 2 ^ 20 % 2 ^ min r.ilp 6 * 16) else off l % 2 ^ 20
      let pos (l : Nat) : Nat := if r.kind = 2 then swz (off l / 2 ^ 20 * r.pitch + row l) else swz (off l)
      let fits (l : Nat) : Prop := pos l + n ≤ r.extent ∧ (r.kind = 2 → row l + n ≤ r.pitch)
      let va (l : Nat) : Nat := (r.base + pos l) % 2 ^ 57
      let ok (l : Nat) : Prop := (fits l ∧ va l % align = 0) ∨ (¬fits l ∧ r.bounds = 1)
      (∀ ls, c.locateLanes r n disp align false = .ok ls →
        ls.map LaneVa.lane = lanesOf c.f.em ∧ ∀ p ∈ ls, ok p.lane ∧ p.off = off p.lane
          ∧ (fits p.lane → p.va = some (va p.lane)) ∧ (¬fits p.lane → p.va = none))
      ∧ ((∀ l, c.f.em.getLsbD l = true → ok l) → ∃ ls, c.locateLanes r n disp align false = .ok ls)
      ∧ ∀ l, c.f.em.getLsbD l = true → (∀ j, j < l → c.f.em.getLsbD j = true → ok j) →
        (¬fits l → r.bounds ≠ 1 → c.locateLanes r n disp align false = .error (.trap 7 (some l)))
        ∧ (fits l → va l % align ≠ 0 → c.locateLanes r n disp align false = .error (.trap 8 (some l))))
  ∧ (∀ (x y : XF) (s : State) (f : Flight) (r : BufRec) (c1 : Ctx) (ls : List LaneVa), AtIssue (viewX 0x065 x) s f y →
      let c := Ctx.atIssue (viewX 0x065 x) s f y
      let disp := 4 * (y.c.toNat / 8)
      (f.em = 0 → ∃ t g p, exec (.lea x) s = .next t ∧ t.flight f.key = some g ∧ c.SeqIssued [p] f.flags g ∧ c.Elsewhere s t
        ∧ p.regs = [] ∧ p.preds = [] ∧ p.fstat = 0)
      ∧ (f.em ≠ 0 → c.record y.b.toNat = .ok (r, c1) → r.kind = 1 ∨ r.kind = 2 → c1.locateLanes r 1 disp 1 false = .ok ls →
        c.anyFits true →
        ∃ t g p, exec (.lea x) s = .next t ∧ t.flight f.key = some g ∧ c.SeqIssued [p] f.flags g ∧ c.Elsewhere c1.s t
          ∧ p.due = s.now f.vd + 4 ∧ p.preds = [] ∧ p.fstat = 0
          ∧ ∃ lo hi, p.writes = c.writes ⟨lo, some hi, f.em, 0⟩
            ∧ ∀ l, l < 32 → pair64 (lo.at l) (hi.at l) = BitVec.ofNat 64 (r.locate ((c.srcA.at l).toNat + disp) 1).1))
  ∧ (∀ (c c1 : Ctx) (n : Nat) (r : BufRec), c.record n = .ok (r, c1) → (∀ u ∈ c.s.teams, u.windows = []) →
      (∀ o ∈ c.s.owners, ∀ e ∈ o.entries, e.owed = []) → c1 = { c with s := { c.s with recs := c1.s.recs } })

/-- A global instruction whose record is of a kind that it accepts, whose active lanes lie in the extent and are aligned, and
whose bytes translate, enters the memory queue; otherwise it traps, or waits, as the check says that failed first, and no lane
is performed; with EM zero it enters with no lane, and reads no record (03 R91; 08 R182, R184, R192, R207, R209, R214, R215). -/
def Obligations.GlobalAccesses : Prop :=
  ∀ (i : Instr) (op9 order : Nat) (x y : XF) (s : State) (f : Flight), AtIssue (viewX op9 x) s f y →
    let c := Ctx.atIssue (viewX op9 x) s f y
    let stops (e : Stop) : Prop := exec i s = .next (s.stopped f 8 e)
    let loads := (i, op9, order) ∈ [(.ld x, 0x0E0, 0), (.ldAcq x, 0x0E1, 1), (.ldSc x, 0x0E2, 4)]
    let stores := (i, op9, order) ∈ [(.st x, 0x0E4, 0), (.stRel x, 0x0E5, 2), (.stSc x, 0x0E6, 4)]
    let atoms := (i, op9, order) ∈
      [(.atomRlx x, 0x0E8, 0), (.atomAcq x, 0x0E9, 1), (.atomRel x, 0x0EA, 2), (.atomAr x, 0x0EB, 3), (.atomSc x, 0x0EC, 4)]
    let cleans (k : MemKind) := (i, op9, k) ∈ [(Instr.cclean x, 0x101, MemKind.cclean), (.cinv x, 0x102, .cinv)]
    let op (k : MemKind) (r : BufRec) (as : List LaneAcc) : MemOp :=
      { c.memOp k order (y.c.toNat % 8) as with policy := r.policy, record := r }
    let disp := 4 * (y.c.toNat / 8)
    let wide := y.c.toNat / 8 % 16 = 11 ∨ y.c.toNat / 8 % 16 = 12
    (f.em = 0 → ∀ k, (loads ∧ k = .ld) ∨ (stores ∧ k = .st) ∨ (atoms ∧ k = .atom (y.c.toNat / 8 % 16)) ∨ (cleans k ∧ order = 0)
        ∨ (i = .pref x ∧ op9 = 0x100 ∧ order = 0 ∧ k = .pref) →
      ∃ t, exec i s = .next t ∧ c.MemEntered s t (c.memOp k order (y.c.toNat % 8) []))
    ∧ (f.em ≠ 0 → loads ∨ stores ∨ atoms ∨ (∃ k, cleans k) ∨ (i = .pref x ∧ op9 = 0x100) →
      (∀ e, c.record y.b.toNat = .error e → stops e)
      ∧ ∀ r c1, c.record y.b.toNat = .ok (r, c1) →
        (r.kind = 0 ∨ 5 ≤ r.kind → stops (.trap 6 none)) ∧ (r.kind = 3 ∨ r.kind = 4 → stops (.trap 2 none)))
    ∧ ∀ r c1, f.em ≠ 0 → c.record y.b.toNat = .ok (r, c1) → r.kind = 1 ∨ r.kind = 2 →
      let enters (o : MemOp) : Prop := ∃ t, exec i s = .next t ∧ c.MemEntered c1.s t o
      (loads → let n := encBytes r.menc
        (∀ e, c1.locateLanes r n disp 1 false = .error e → stops e)
        ∧ ∀ ls, c1.locateLanes r n disp 1 false = .ok ls → (∀ e, c1.translateLanes r n .load ls = .error e → stops e)
          ∧ ∀ as, c1.translateLanes r n .load ls = .ok as → enters (op .ld r as))
      ∧ (stores → r.isDx = false → let n := encBytes r.menc
        (∀ e, c1.locateLanes r n disp 1 false = .error e → stops e)
        ∧ ∀ ls, c1.locateLanes r n disp 1 false = .ok ls → (∀ e, c1.translateLanes r n .store ls = .error e → stops e)
          ∧ ∀ as, c1.translateLanes r n .store ls = .ok as →
            enters (op .st r (as.map fun a => { a with data := (c.srcD.at a.lane).setWidth 64 })))
      ∧ (stores → r.isDx = true →
        let blk := ((c.srcA.at (lowestLane f.em)).toNat + disp) / 32
        let mine (l : Nat) : Prop := (c.srcA.at l).toNat + disp = 32 * blk + l
        (∀ l, f.em.getLsbD l = true → ¬mine l → (∀ j, j < l → f.em.getLsbD j = true → mine j) → stops (.trap 2 (some l)))
        ∧ ((∀ l, f.em.getLsbD l = true → mine l) → ∀ ls, c1.locateLanes r 1 disp 1 false = .ok ls →
          ((∃ p ∈ ls, p.va = none) → enters (op .st r []))
          ∧ ∀ ps qs, (∀ p ∈ ls, p.va ≠ none) →
            chkAll (fun e => c1.s.translateRange f (r.locate e 1).1 16 .store (lowestLane f.em))
              (if r.isDx8 then [32 * blk, 32 * blk + 16] else [32 * blk]) = .ok ps →
            c1.s.translateRange f ((r.sbase + 2 * blk) % 2 ^ 57) 2 .store (lowestLane f.em) = .ok qs →
            ∃ as, enters (op .st r as) ∧ as.map LaneAcc.lane = lanesOf f.em
              ∧ ∀ a ∈ as, a.data = (c.srcD.at a.lane).setWidth 64
                ∧ (a.lane = lowestLane f.em → a.addrs = ps.flatten.map Prod.fst ∧ a.scale = qs.map Prod.fst)))
      ∧ (atoms → let n := if wide then 8 else 4
        let r0 : BufRec := { r with q2 := r.q2 &&& ~~~(0x3F : DWord) }
        (∀ e, c1.locateLanes r0 n 0 n false = .error e → stops e)
        ∧ ∀ ls, c1.locateLanes r0 n 0 n false = .ok ls → (∀ e, c1.translateLanes r0 n .atomic ls = .error e → stops e)
          ∧ ∀ as, c1.translateLanes r0 n .atomic ls = .ok as →
            enters (op (.atom (y.c.toNat / 8 % 16)) r (c.aopData as)))
      ∧ (∀ k, cleans k → order = 0 → ∀ ls, c1.locateLanes r (encBytes r.menc) disp 1 true = .ok ls →
        (∀ e, c1.translateLanes { r with q2 := 0 } 1 .load ls = .error e → stops e)
        ∧ ∀ as, c1.translateLanes { r with q2 := 0 } 1 .load ls = .ok as → enters (op k r as))
      ∧ (i = .pref x → op9 = 0x100 → order = 0 → ∀ ls, c1.locateLanes r (encBytes r.menc) disp 1 true = .ok ls →
        ∃ as, enters (op .pref r as) ∧ ∀ a, a ∈ as ↔ ∃ p ∈ ls, ∃ va e, p.va = some va
          ∧ c1.s.entryFor f.core f.vd (c1.s.asidOf f) (va % vaMod) = some e
          ∧ let pa := e.phys (va % vaMod)
            a = { LaneAcc.none p.lane with addrs := [pa], uc := if e.uc || c1.s.uncachedAt f.vd pa then [pa] else [] })

/-- A scratchpad instruction at issue (08 R180, R192, R203, R208, R210 to R212, R214): an active lane at or past the team's
allocation traps BUFFER_BOUNDS, an atomic off its size MISALIGNED, an LDFRAG off 8 bytes MISALIGNED or with too small a pitch
ILLEGAL_OPERAND; else it enters the memory queue with its offsets. Here no lane touches a stash window. LDP and STP at issue (08
R216; 15 R338): in each active lane p = Va:Va+1 + disp must be a multiple of 8 below 2^52 inside the balustrade, for the walk
flight inside the vestibule; else the owner stalls, with DOUBLE_TRAP, BALUSTRADE or WALK_NONPHYS. -/
def Obligations.ScratchAndPhysicalAccesses : Prop :=
  (∀ (i : Instr) (op9 : Nat) (x y : XF) (s : State) (f : Flight), AtIssue (viewX op9 x) s f y →
      let c := Ctx.atIssue (viewX op9 x) s f y
      let enters (o : MemOp) : Prop := ∃ t, exec i s = .next t ∧ c.MemEntered s t o
      let stops (e : Stop) : Prop := exec i s = .next (s.stopped f 8 e)
      let room := c.allocation
      let low2 (l : Nat) : Nat := ((c.srcA.at l).toNat + 4 * (y.c.toNat / 8)) / 4 * 4
      let lanes (at' : Nat → Nat) (n : Nat) : List LaneAcc :=
        (lanesOf f.em).map fun l => { LaneAcc.none l with addrs := (List.range n).map fun j => at' l + j }
      let data (as : List LaneAcc) : List LaneAcc := as.map fun a => { a with data := (c.srcD.at a.lane).setWidth 64 }
      let a := y.c.toNat / 8 % 16
      let size := if a = 11 ∨ a = 12 then 8 else 4
      (∀ u, s.team f.team = some u → u.windows = []) →
      ((i, op9) ∈ [(Instr.lds x, 0x0F1), (.sts x, 0x0F2)] →
        (∀ l, f.em.getLsbD l = true → room ≤ low2 l → (∀ j, j < l → f.em.getLsbD j = true → low2 j < room) → stops (.trap 7 (some l)))
        ∧ ((∀ l, f.em.getLsbD l = true → low2 l < room) →
          (i = .lds x → enters (c.memOp (.lds (y.c.toNat % 8)) 0 1 (lanes low2 4)))
          ∧ (i = .sts x → enters (c.memOp .sts 0 1 (data (lanes low2 4))))))
      ∧ (i = .atoms x → op9 = 0x0F0 →
        let at' (l : Nat) : Nat := (c.srcA.at l).toNat
        (∀ l, f.em.getLsbD l = true → (∀ j, j < l → f.em.getLsbD j = true → at' j < room ∧ at' j % size = 0) →
          (room ≤ at' l → stops (.trap 7 (some l))) ∧ (at' l < room → at' l % size ≠ 0 → stops (.trap 8 (some l))))
        ∧ ((∀ l, f.em.getLsbD l = true → at' l < room ∧ at' l % size = 0) →
          enters (c.memOp (.atoms a) (y.c.toNat % 8) 1 (c.aopData (lanes at' size)))))
      ∧ (∀ k, (i, op9, k) ∈ [(Instr.feset x, 0x0F3, MemKind.feset), (.feclr x, 0x0F4, .feclr)] →
        let at' (l : Nat) : Nat := (c.srcA.at l).toNat + 4 * (y.c.toNat / 8)
        (∀ l, f.em.getLsbD l = true → room ≤ at' l → (∀ j, j < l → f.em.getLsbD j = true → at' j < room) → stops (.trap 7 (some l)))
        ∧ ((∀ l, f.em.getLsbD l = true → at' l < room) → enters (c.memOp k 0 1 (lanes at' 1))))
      ∧ (i = .ldfrag x → op9 = 0x0F5 →
        let w := (c.srcA.at (lowestLane f.em)).toNat
        let org := w % 2 ^ 19 + 4 * (y.c.toNat / 8)
        let wide := w / 2 ^ 19 % 2 = 1
        let swz := w / 2 ^ 20 % 2 = 1
        let pitch := 8 * (w / 2 ^ 21)
        let byte (l k : Nat) : Nat :=
          let r := if wide then k / 2 else k
          let o := org + r * pitch + (if wide then 2 * l else l)
          (if swz then o ^^^ (8 * (if wide then r % 8 * 8 else r % 16 * 4)) else o) + (if wide then k % 2 else 0)
        let inside := ∀ l k, l < 32 → k < 32 → byte l k < room
        (f.em = 0 → enters (c.memOp .ldfrag 0 1 []))
        ∧ (f.em ≠ 0 → (org % 8 ≠ 0 → stops (.trap 8 none))
          ∧ (org % 8 = 0 → pitch < (if wide then 64 else 32) → stops (.trap 2 none))
          ∧ (org % 8 = 0 → (if wide then 64 else 32) ≤ pitch → (¬inside → stops (.trap 7 none))
            ∧ (inside → enters (c.memOp .ldfrag 0 1 ((lanesOf f.em).map fun l =>
                { LaneAcc.none l with addrs := (List.range 32).map (byte l), nibble := if wide then 1 else 0 })))))))
  ∧ (∀ (i : Instr) (op9 : Nat) (x y : XF) (s : State) (f : Flight), AtIssue (viewX op9 x) s f y →
      (i, op9) ∈ [(Instr.ldp x, 0x108), (.stp x, 0x109)] →
      let c := Ctx.atIssue (viewX op9 x) s f y
      let o := s.owner f.vd
      let p (l : Nat) : Nat := ((c.pairAt 1 y.a l) + BitVec.ofNat 64 (4 * (y.c.toNat / 8))).toNat
      let lane := f.role.ownerLane
      let op (k : MemKind) (uc : Bool) (data : DWord) : MemOp := c.memOp k 0 (y.c.toNat % 8)
        (let as := (List.range 8).map fun j => o.onPort (p lane) + j
        [{ LaneAcc.none lane with addrs := as, uc := if uc then as else [], data := data }])
      let stalls (reason cause : Nat) (pc : DWord) (addr : Nat) : Prop :=
        exec i s = .next (s.stallOwner f.vd reason cause f.role.code lane pc addr)
      let k := if i = .ldp x then MemKind.ldp else .stp
      (f.em = 0 → ∃ t, exec i s = .next t ∧ c.MemEntered s t (c.memOp k 0 (y.c.toNat % 8) []))
      ∧ (lanesOf f.em = [lane] →
      (p lane % 8 ≠ 0 → stalls 1 8 f.pc 0)
      ∧ (p lane % 8 = 0 → 2 ^ 52 ≤ p lane → stalls 1 2 f.pc 0)
      ∧ (p lane % 8 = 0 → p lane < 2 ^ 52 →
        (f.role = .walk → o.inVestibule (p lane) 8 = false → stalls 3 0 f.pc (p lane))
        ∧ ((f.role = .walk → o.inVestibule (p lane) 8 = true) →
          (o.balustrade (p lane) 8 = none → stalls 2 0 f.pc (p lane))
          ∧ ∀ uc, o.balustrade (p lane) 8 = some uc →
            let unc := uc || s.uncachedAt f.vd (p lane)
            ∃ t, exec i s = .next t
              ∧ (i = .ldp x → c.MemEntered s t (op .ldp unc 0))
              ∧ (i = .stp x → c.MemEntered s t (op .stp unc (c.pairAt 0 y.d lane)))))))

/-- STASHMAP opens a window of a kind-4 record at the offset of the lowest active lane, unless a line of R202's list refuses
it; STASHFLUSH and STASHDROP of an open window enter the memory queue; a record of another kind, or of no open window, traps
(08 R182, R202, R204, R213). Under EM zero the record is not read and nothing is opened (03 R91). STASH_FILL fills the window
lines that an access touches from what memory holds, and their granules become Full, or Poisoned (error) where the line's data
is poisoned; STASHFLUSH and STASHDROP, performed, end their window and keep the scratchpad (08 R196, R199, R203, R204). -/
def Obligations.StashWindows : Prop :=
  (∀ (i : Instr) (op9 : Nat) (x y : XF) (s : State) (f : Flight) (r : BufRec) (c1 : Ctx), AtIssue (viewX op9 x) s f y →
      let c := Ctx.atIssue (viewX op9 x) s f y
      let num := y.b.toNat
      let op (k : MemKind) (disp : Nat) : MemOp := { c.memOp k 0 1 [] with disp := disp }
      let enters (s : State) (o : MemOp) : Prop := ∃ t, exec i s = .next t ∧ c.MemEntered s t o
      let stops (e : Stop) : Prop := exec i s = .next (s.stopped f 8 e)
      let ops := [(Instr.stashmap x, 0x0F8, MemKind.stashmap), (.stashflush x, 0x0F9, .stashflush), (.stashdrop x, 0x0FA, .stashdrop)]
      (∀ k, (i, op9, k) ∈ ops → f.em = 0 → enters s (op k (if k = .stashmap then 0 else num)))
      ∧ (∀ k, (i, op9, k) ∈ ops → f.em ≠ 0 → c.record num = .ok (r, c1) →
      (r.kind = 0 ∨ 5 ≤ r.kind → stops (.trap 6 none)) ∧ (1 ≤ r.kind → r.kind ≤ 3 → stops (.trap 2 none))
      ∧ (r.kind = 4 → ∀ u, c1.s.team f.team = some u → (k = .stashmap →
            let off := (c.srcA.at (lowestLane f.em)).toNat
            let fits := off % 128 = 0 ∧ r.base % 128 = 0 ∧ r.extent % 128 = 0 ∧ 0 < r.extent ∧ off + r.extent ≤ c1.allocation
              ∧ u.windows.length < 8
              ∧ ∀ w ∈ u.windows, w.num ≠ num ∧ (off + r.extent ≤ w.off ∨ w.off + w.len ≤ off)
            (¬fits → stops (.trap 2 none))
            ∧ (fits → ∃ t, exec i s = .next t ∧ c.Entered c1.s t
              ∧ t.team f.team = some { u with windows := u.windows ++ [⟨num, off, r.extent, r.base, [], []⟩] }
              ∧ t.memOps = c1.s.memOps ++ [{ op .stashmap 0 with key := c1.s.nextKey }]
              ∧ ∀ k, k ≠ f.team → t.team k = c1.s.team k))
        ∧ (k ≠ .stashmap → ((∀ w ∈ u.windows, w.num ≠ num) → stops (.trap 2 none))
            ∧ ((∃ w ∈ u.windows, w.num = num) → (∀ o ∈ c1.s.memOps, o.disp ≠ num) → enters c1.s (op k num))))))
  ∧ ((∀ (s : State) (o : MemOp) (f : Flight) (u : Team) (w : Window) (n ln : Nat), s.memOp o.key = some o → o.kind.isScratch = true →
      s.flight o.flight = some f → s.team f.team = some u → u.key = f.team → s.teams = [u] → u.windows = [w] → w.filled = [] →
      (∀ a ∈ o.lanes, a.scale = [w.off + 128 * n, ln]) → o.lanes ≠ [] → 128 * n + 128 ≤ w.len → w.off % 128 = 0 →
      s.pinned ln = false → (∀ x ∈ s.lines, x.line = ln → x.state ≠ .M) →
      (s.line ln).length = 128 → u.scratch.wf = true →
      s.devHold ((List.range 128).map fun i => 128 * ln + i) (.op o.key) = none →
      ∃ t u', exec (.stashFill o.key) s = .next t ∧ t.team u.key = some u'
        ∧ u' = { u with scratch := u'.scratch, granules := u'.granules, windows := [{ w with filled := [(n, ln)] }] }
        ∧ (∀ i, i < 128 → u'.scratch.get (w.off + 128 * n + i) = (s.line ln).getD i 0)
        ∧ (∀ a, a / 128 ≠ w.off / 128 + n → u'.scratch.get a = u.scratch.get a)
        ∧ (∀ g, u'.gran g = if g / 8 = w.off / 128 + n then
              if ((List.range 16).any fun j => (s.badLine ln).getLsbD (16 * (g % 8) + j)) = true then .poisonedError else .full
            else u.gran g)
        ∧ (s.lines = [] → s.llc = [] → ∀ a, t.byte a = s.byte a))
    ∧ ∀ (s : State) (o : MemOp) (f : Flight) (u : Team), s.memOp o.key = some o → s.flight o.flight = some f →
      s.team f.team = some u → u.key = f.team → s.flightFrame f = none → o.mask ≠ 0 → s.inOrder o = true →
      s.pinHolds o = false → (o.kind = .stashdrop ∨ (o.kind = .stashflush ∧ ∀ w ∈ u.windows, w.num = o.disp → w.dirty = [])) →
      ∃ t g, exec (.memoryComplete o.key) s = .next t ∧ t.flight f.key = some g ∧ g = { f with flags := g.flags }
        ∧ t.team u.key = some { u with windows := u.windows.filter fun w => w.num ≠ o.disp } ∧ t.mem = s.mem ∧ t.lines = s.lines
        ∧ t.llc = s.llc ∧ t.memOps = s.memOps.filter fun x => x.key ≠ o.key)

/-- MEMORY_COMPLETE of a global access whose turn has come (08 R186, R188, R193, R194, R207, R209, R214, R216): a load's
converted elements reach its active lanes, with 0 in a clamped one; a store's converted elements replace their bytes, the
highest lane's where lanes overlap; an atomic's old values reach its lanes, ascending lanes each seeing the last. The set flag
drops by one, and every other register and byte stands. An operation that must wait for an earlier one is left as it is. Here
the caches agree with memory and nothing is poisoned, no store is gathered, the flight is in place and no service flight, and
no stash window is open; lines may move between the caches, and what the owners and partitions count of that may change. Data
that arrive poisoned in an active lane (08 R196): nothing is written, the instruction completes and its flag drops, and the
flight holds DATA_POISON at the lowest such lane, with the instruction's own PC, to raise before its next issue. -/
def Obligations.MemoryCompletes : Prop :=
  (∀ (s : State) (o : MemOp) (f : Flight), s.memOp o.key = some o → s.flight o.flight = some f →
      s.flightFrame f = none → f.role.isService = false → (240 ≤ o.dst ∨ f.cls o.dst = .general) →
      (∀ r, s.regFrame f r = none) →
      s.wc = [] → Coherent s → s.poison = [] → (∀ c ∈ s.lines, c.bad = 0) → (∀ l ∈ s.llc, l.bad = 0) →
      (∀ w ∈ s.owners, ∀ e ∈ w.entries, e.owed = []) →
      s.devHold o.bytes (.op o.key) = none → o.record.isDx = false → o.mask ≠ 0 → (o.policy < 3 ∨ 5 ≤ o.policy) →
      (∀ a ∈ o.lanes, a.uc = []) → (∀ b ∈ o.bytes, s.mapped b = true) →
      let r := o.record
      let pair := 240 ≤ o.dst + 1 ∨ f.cls (o.dst + 1) = .general
      let ready := s.inOrder o = true ∧ s.pinHolds o = false
      let lands (t : State) (g : Flight) (fl : Flags) (regs : List (Nat × Lanes)) : Prop :=
        exec (.memoryComplete o.key) s = .next t ∧ t.flight f.key = some g
        ∧ g = { f with regs := g.regs, flags := g.flags, fstat := f.fstat ||| fl }
        ∧ (∀ p ∈ regs, p.1 < 240 → g.reg p.1 = .general (mergeLanes o.mask (f.reg p.1).lanes p.2))
        ∧ (∀ n, n ∉ regs.map Prod.fst → g.reg n = f.reg n)
        ∧ (∀ n, n < 12 → g.flags.getD n 0 = if o.flag = some n then f.flags.getD n 0 - 1 else f.flags.getD n 0)
        ∧ (∀ k, k ≠ f.key → t.flight k = s.flight k)
        ∧ (∀ vd, let w := t.owner vd
          w = { s.owner vd with counters := w.counters, shadows := w.shadows, misscurve := w.misscurve })
        ∧ (∀ n, t.part n = { s.part n with llcAccesses := (t.part n).llcAccesses })
        ∧ t = { s with
          flights := t.flights, memOps := s.memOps.filter fun x => x.key ≠ o.key
          lines := t.lines, llc := t.llc, mem := t.mem, poison := t.poison, owners := t.owners, parts := t.parts }
      let wrote (t : State) (ws : List (Nat × Byte)) : Prop :=
        ∀ a, t.byte a = ((ws.reverse.find? fun w => w.1 = a).map Prod.snd).getD (s.byte a)
      let all (fs : List Flags) : Flags := fs.foldl (fun x y => x ||| y) 0
      (¬ready → exec (.memoryComplete o.key) s = .next s)
      ∧ (ready → (o.kind = .ld →
          let v (a : LaneAcc) : Nat × Flags :=
            if a.addrs = [] then (0, 0) else convElem r.menc (regEnc r.renc) (leNat (a.addrs.map s.byte)) 0 r.sat
          ∃ t g, lands t g (all (o.lanes.map fun a => (v a).2)) [(o.dst, laneTab (o.lanes.map fun a => (a.lane, BitVec.ofNat 32 (v a).1)))]
            ∧ wrote t [])
        ∧ (o.kind = .st →
          let live := o.lanes.filter fun a => a.addrs ≠ []
          ∃ t g, lands t g (all (live.map fun a => (storeConvert r (a.data.setWidth 32)).2)) []
            ∧ wrote t (live.flatMap fun a => a.addrs.zip (storeConvert r (a.data.setWidth 32)).1))
        ∧ (o.kind = .ldp → pair →
          let v (a : LaneAcc) : Nat := leNat (a.addrs.map s.byte)
          let half (n : Nat) : Lanes := laneTab (o.lanes.map fun a => (a.lane, BitVec.ofNat 32 (v a / 2 ^ (32 * n))))
          ∃ t g, lands t g 0 [(o.dst, half 0), (o.dst + 1, half 1)] ∧ wrote t [])
        ∧ (o.kind = .stp → ∃ t g, lands t g 0 [] ∧ wrote t (o.lanes.flatMap fun a => a.addrs.zip (leBytes 8 a.data.toNat)))
        ∧ ∀ n, o.kind = .atom n → (n = 11 ∨ n = 12 → pair) →
          let u := atomLanes n (s.readByte 0) o.lanes []
          let half (h : Nat) : Lanes := laneTab (u.1.map fun p => (p.1, BitVec.ofNat 32 (p.2 / 2 ^ (32 * h))))
          ∃ t g, lands t g u.2.2 ((o.dst, half 0) :: if n = 11 ∨ n = 12 then [(o.dst + 1, half 1)] else []) ∧ wrote t u.2.1))
  ∧ (∀ (s : State) (o : MemOp) (f : Flight) (a : LaneAcc) (before after : List LaneAcc), s.memOp o.key = some o →
      s.flight o.flight = some f → s.flightFrame f = none → (∀ w ∈ s.owners, ∀ e ∈ w.entries, e.owed = []) →
      s.devHold o.bytes (.op o.key) = none → s.inOrder o = true → s.pinHolds o = false → o.mask ≠ 0 →
      s.wc = [] → (∀ u ∈ s.teams, u.windows = []) → (o.policy < 3 ∨ 5 ≤ o.policy) → (∀ x ∈ o.lanes, x.uc = []) →
      (∀ b ∈ o.bytes, s.mapped b = true ∧ s.holds (.l1 f.core) (b / 128) = true) →
      (o.kind = .ld ∨ o.kind = .ldp ∨ ∃ n, o.kind = .atom n) → o.lanes = before ++ a :: after →
      (∃ b ∈ a.addrs ++ a.scale, s.badByte b = true) → (∀ x ∈ before, ∀ b ∈ x.addrs ++ x.scale, s.badByte b = false) →
      ∃ t g, exec (.memoryComplete o.key) s = .next t ∧ t.flight f.key = some g
        ∧ g = { f with flags := g.flags, poisoned := f.poisoned ++ [⟨9, a.lane, o.pc⟩] }
        ∧ (∀ n, n < 12 → g.flags.getD n 0 = if o.flag = some n then f.flags.getD n 0 - 1 else f.flags.getD n 0)
        ∧ (∀ k, k ≠ f.key → t.flight k = s.flight k)
        ∧ t = { s with flights := t.flights, memOps := s.memOps.filter fun x => x.key ≠ o.key })

/-- The operations of 08 R206 on a word m of memory, or a doubleword, with D and D′; and 08 R207's order: a lane reads m, the
next lane of the same bytes what the first has written; a clamped lane receives 0 and writes nothing. -/
def Obligations.AtomicUpdates : Prop :=
  (∀ m d d' : Word,
    let new (op : Nat) : Nat := (atomNew op m.toNat d.toNat d'.toNat).1
    new 0 = (m + d).toNat ∧ new 1 = (if m.slt d then m else d).toNat ∧ new 2 = (if m.ult d then m else d).toNat
    ∧ new 3 = (if d.slt m then m else d).toNat ∧ new 4 = (if d.ult m then m else d).toNat
    ∧ new 5 = (m &&& d).toNat ∧ new 6 = (m ||| d).toNat ∧ new 7 = (m ^^^ d).toNat ∧ new 8 = d.toNat
    ∧ new 9 = (if m = d then d' else m).toNat
    ∧ (∀ op, op ≠ 10 → (atomNew op m.toNat d.toNat d'.toNat).2 = 0)
    ∧ (finite32 m → finite32 d → ∀ w, finite32 w → val32 w = val32 m + val32 d → val32 w ≠ 0 →
      atomNew 10 m.toNat d.toNat d'.toNat = (w.toNat, 0)))
  ∧ (∀ (m d : DWord) (n : Nat), (atomNew 11 m.toNat d.toNat n).1 = (m + d).toNat ∧ (atomNew 12 m.toNat d.toNat n).1 = d.toNat)
  ∧ ∀ (op : Nat) (read : Nat → Byte) (a b : LaneAcc), a.addrs.Nodup →
    let new (x : LaneAcc) (m : Nat) : Nat × Flags := atomNew op m x.data.toNat x.data2.toNat
    let m := leNat (a.addrs.map read)
    (a.addrs ≠ [] → atomLanes op read [a] [] = ([(a.lane, m)], a.addrs.zip (leBytes a.addrs.length (new a m).1), (new a m).2))
    ∧ (a.addrs = [] → atomLanes op read [a] [] = ([(a.lane, 0)], [], 0))
    ∧ (a.addrs ≠ [] → b.addrs = a.addrs →
      let n := leNat (leBytes a.addrs.length (new a m).1)
      (atomLanes op read [a, b] []).1 = [(a.lane, m), (b.lane, n)]
      ∧ ∀ x ∈ a.addrs.zip (leBytes a.addrs.length (new b n).1),
        ((atomLanes op read [a, b] []).2.1.reverse.find? fun w => w.1 = x.1).map Prod.snd = some x.2)

/-- MEMORY_COMPLETE and LDS_WAIT_WAKE of a scratchpad instruction whose turn has come (08 R193, R196, R199, R210 to R212, R214):
LDS and LDFRAG read, unless a granule is poisoned, whose cause the flight then holds to raise; STS and ATOMS write and leave the
granules' states; FESET and FECLR set them; LDS.WAIT waits while a granule is Empty, and .TAKE empties its granules as it reads.
Here the team is on its core, whole, with no stash window. -/
def Obligations.ScratchCompletes : Prop :=
  ∀ (s : State) (o : MemOp) (f : Flight) (u : Team), s.memOp o.key = some o → s.flight o.flight = some f → s.team f.team = some u →
    u.key = f.team → u.scratch.wf = true → u.state = .resident → u.windows = [] → u.spills = [] → f.role = .lane → o.mask ≠ 0 → s.inOrder o = true →
    s.wc = [] → (∀ w ∈ s.owners, ∀ e ∈ w.entries, e.owed = []) → (∀ n, n < 8 → 240 ≤ o.dst + n ∨ f.cls (o.dst + n) = .general) →
    let good := ∀ a ∈ o.lanes, ∀ b ∈ a.addrs, u.gran (b / 16) = .empty ∨ u.gran (b / 16) = .full
    let word (m : Memory) (bs : List Nat) : Word := BitVec.ofNat 32 (leNat (bs.map m.get))
    let ends (i : Instr) (t : State) (g : Flight) (u' : Team) (fl : Flags) (regs : List (Nat × Lanes)) : Prop :=
      exec i s = .next t ∧ t.flight f.key = some g ∧ t.team u.key = some u'
      ∧ g = { f with regs := g.regs, flags := g.flags, fstat := f.fstat ||| fl }
      ∧ (∀ p ∈ regs, p.1 < 240 → g.reg p.1 = .general (mergeLanes o.mask (f.reg p.1).lanes p.2))
      ∧ (∀ n, n ∉ regs.map Prod.fst → g.reg n = f.reg n)
      ∧ (∀ n, n < 12 → g.flags.getD n 0 = if o.flag = some n then f.flags.getD n 0 - 1 else f.flags.getD n 0)
      ∧ (∀ k, k ≠ f.key → t.flight k = s.flight k) ∧ (∀ k, k ≠ u.key → t.team k = s.team k)
      ∧ t = { s with flights := t.flights, teams := t.teams, memOps := s.memOps.filter fun x => x.key ≠ o.key }
    let grans (u' : Team) (st : Granule) : Prop :=
      ∀ n, u'.gran n = if ∃ b ∈ o.bytes, b / 16 = n then st else u.gran n
    let done := Instr.memoryComplete o.key
    let wrote (u' : Team) (ws : List (Nat × Byte)) : Prop := u' = { u with scratch := u'.scratch }
      ∧ ∀ a, u'.scratch.get a = ((ws.reverse.find? fun w => w.1 = a).map Prod.snd).getD (u.scratch.get a)
    (good →
      (o.kind = .lds 0 → ∃ t g, ends done t g u 0 [(o.dst, laneTab (o.lanes.map fun a => (a.lane, word u.scratch a.addrs)))])
      ∧ (o.kind = .ldfrag → ∃ t g, ends done t g u 0 ((List.range 8).map fun j =>
        (o.dst + j, laneTab (o.lanes.map fun a => (a.lane, word u.scratch ((a.addrs.drop (4 * j)).take 4))))))
      ∧ (o.kind = .sts → ∃ t g u', ends done t g u' 0 []
        ∧ wrote u' (o.lanes.flatMap fun a => a.addrs.zip (leBytes 4 a.data.toNat)))
      ∧ (∀ n, o.kind = .atoms n →
        let r := atomLanes n u.scratch.get o.lanes []
        let half (h : Nat) : Lanes := laneTab (r.1.map fun p => (p.1, BitVec.ofNat 32 (p.2 / 2 ^ (32 * h))))
        ∃ t g u', ends done t g u' r.2.2 ((o.dst, half 0) :: if n = 11 ∨ n = 12 then [(o.dst + 1, half 1)] else []) ∧ wrote u' r.2.1))
    ∧ (o.kind = .feset → ∃ t g u', ends done t g u' 0 [] ∧ grans u' .full ∧ u'.scratch = u.scratch)
    ∧ (o.kind = .feclr → ∃ t g u', ends done t g u' 0 [] ∧ grans u' .empty ∧ u'.scratch = u.scratch)
    ∧ ∀ mode i, o.kind = .lds mode → 1 ≤ mode → mode ≤ 2 → i ∈ [done, .ldsWaitWake o.key] →
      ((∃ b ∈ o.bytes, u.gran (b / 16) = .empty) → exec i s = .next s)
      ∧ ((∀ b ∈ o.bytes, u.gran (b / 16) = .full) → ∃ t g u',
        ends i t g u' 0 [(o.dst, laneTab (o.lanes.map fun a => (a.lane, word u.scratch a.addrs)))]
        ∧ u'.scratch = u.scratch ∧ grans u' (if mode = 2 then .empty else .full))

/-- WC_BUFFER_WRITEOUT performs the gathered bytes of a line, the latest of each address, at the LLC's level, and the line
leaves the buffer (08 R191). Here it is a line of tier-2 or host memory, which no cache holds and no command pins.
TRANSLATION_RESOLVED ends a lookup below the L1 TLB (08 R192; 15 R339, R340): an entry of the hall's L2 TLB that allows the
access fills the L1 TLB and lets the instruction leave issue; with no entry in the L2 TLB and the L3 bank, a request for the
page is posted in the walk ring, and the flight waits for its walk. A flight that waits for nothing of the kind stands. -/
def Obligations.WritesLeaveAndLookupsResolve : Prop :=
  (∀ (s : State) (w : WcLine) (before after : List WcLine), s.wc = before ++ w :: after →
      (∀ x ∈ before ++ after, x.core ≠ w.core ∨ x.line ≠ w.line) → (∀ u ∈ s.teams, u.windows = []) →
      (∀ b ∈ w.bytes, b.1 / 128 = w.line ∧ s.mapped b.1 = true) → s.cached w.line = none → llcMay w.line = false → memoryWf s = true →
      s.pinned w.line = false →
      ∃ t, exec (.wcBufferWriteout w.core w.line) s = .next t ∧ t.wc = before ++ after
        ∧ (∀ a, t.byte a = ((w.bytes.reverse.find? fun b => b.1 = a).map Prod.snd).getD (s.byte a))
        ∧ t = { s with wc := t.wc, mem := t.mem, poison := t.poison })
  ∧ (∀ (s : State) (f : Flight), s.flight f.key = some f →
      ((∀ va k lane, f.block ≠ .lookup va k lane) → exec (.translationResolved f.key) s = .next s)
      ∧ ∀ va k lane, f.block = .lookup va k lane →
        let asid := s.asidOf f
        let o := s.owner f.vd
        (∀ e, tlbFind s.l1tlb f.core f.vd asid va = none → tlbFind s.l2tlb (f.core / 12) f.vd asid va = some e → k.allowed e = true →
          (s.l1tlb.filter fun p => p.1 = f.core).length < 256 →
          ∃ t, exec (.translationResolved f.key) s = .next t ∧ t.flight f.key = some { f with block := .none }
            ∧ (f.core, e) ∈ t.l1tlb ∧ t = { s with flights := t.flights, l1tlb := t.l1tlb }
            ∧ ∀ j, j ≠ f.key → t.flight j = s.flight j)
        ∧ (tlbFind s.l1tlb f.core f.vd asid va = none → tlbFind s.l2tlb (f.core / 12) f.vd asid va = none →
          tlbFind s.l3tlb (s.bankOf f.vd va) f.vd asid va = none → o.walks = [] →
          o.balustrade (o.walkAddr (o.walkTail % Owner.ringCap o.wq)) 64 ≠ none →
          ∃ t, exec (.translationResolved f.key) s = .next t ∧ t.flight f.key = some { f with block := .walk va k lane }
            ∧ (t.owner f.vd).walks = [⟨o.walkTail % Owner.ringCap o.wq, o.walkSeq + 1, va / 4096 * 4096, asid, k, s.bankOf f.vd va,
              [(.flight f.key, k, va)], false, false⟩]
            ∧ (t.owner f.vd).walkTail = o.walkTail + 1 ∧ ∀ j, j ≠ f.key → t.flight j = s.flight j))

/-- A copy instruction of a flight that may copy enters its core's queue when its operands pass the checks of 11 R254, and
fails the first that they do not: COPY_RIGHTS for a flight of the team other than the producer, WALK_NONPHYS for the walk
flight, ILLEGAL_OPERAND for a status register that is not uniform, for limits, spaces and links, for part of a DX block, for
scratchpad ranges that overlap; MISALIGNED; BUFFER_BOUNDS. Under EM zero it enters as one that moves nothing (11 R248 to R256,
R264 to R267; 03 R91). BSEAL seals the producer's copies since its last one into batch k, which counts those outstanding, and
writes the number sealed, at most 63, in 4 cycles; BWAIT issues when batch k counts none, and blocks until then; for another
flight they trap COPY_RIGHTS, and past batch 7 ILLEGAL_OPERAND (11 R248, R268). The order in which records and sides are
checked is the model's choice (log 95). -/
def Obligations.CopiesQueue : Prop :=
  (∀ (i : Instr) (op9 : Nat) (form : CopyForm) (x y : XF) (s : State) (f : Flight), AtIssue (viewX op9 x) s f y →
      (i, op9, form) ∈ [(.cpy x, 0x140, .cpy), (.cpy2 x, 0x141, .cpy2), (.cpyt x, 0x142, .cpyt), (.cpyx x, 0x143, .cpyx),
        (.cpyz x, 0x144, .cpyz), (.cpyg x, 0x145, .cpyg), (.cpys x, 0x146, .cpys), (.cpym x, 0x147, .cpym), (.fill x, 0x148, .fill),
        (.cpyp x, 0x149, .cpyp)] →
      let c := Ctx.atIssue (viewX op9 x) s f y
      let stops (e : Stop) : Prop := exec i s = .next (s.stopped f 8 e)
      let enters (S : State) (k : Copy) : Prop := ∃ t, exec i s = .next t ∧ c.Entered S t
        ∧ t = { S with
          flights := t.flights, quads := t.quads, owners := t.owners, free := t.free
          copies := S.copies ++ [{ k with key := S.nextKey }], nextKey := S.nextKey + 1 }
      let d := y.d.toNat
      let lane := lowestLane f.em
      let a := c.pairAt 1 y.a lane
      let b := c.pairAt 2 y.b lane
      let n := c.pairAt 3 y.c lane
      let limits := copyLimits form (loWord n).toNat (hiWord n).toNat (locSpace (hiWord a)) (locSpace (hiWord b)) = true
        ∧ (form = .cpyp → s.linkOk f.vd (locLink (hiWord a)) = true)
      let lanes : List (Nat × Nat) := match form with
        | .cpyg => (lanesOf f.em).map fun l => (l, (c.srcB.at l).toNat)
        | .cpys => (lanesOf f.em).map fun l => (l, (c.srcA.at l).toNat)
        | _ => []
      (f.role = .walk → stops (.stall 3 0))
      ∧ (f.role ≠ .walk → c.isProducer = false → stops (.trap 11 none))
      ∧ (f.role ≠ .walk → c.isProducer = true →
        (d ≠ 248 → f.cls d ≠ .uniform → stops (.trap 2 none))
        ∧ (d = 248 ∨ f.cls d = .uniform →
          (f.em = 0 → enters s { c.copyOf form Side.none Side.none 0 0 BufRec.zero [] with state := .written, dreg := 248 })
          ∧ (f.em ≠ 0 → (¬limits → stops (.trap 2 none))
            ∧ ∀ dst c1 src c2 table c3, limits → c.copySide form true (loWord a).toNat (hiWord a) = .ok (dst, c1) →
              (if form = .fill then (src, c2) = ({ Side.none with off := (loWord b).toNat }, c1)
                else c1.copySide form false (loWord b).toNat (hiWord b) = .ok (src, c2)) →
              (if form = .cpyz then c2.copyRec ((hiWord n).toNat % 256) [1, 2] = .ok (table, c3) else (table, c3) = (BufRec.zero, c2)) →
              let k := c.copyOf form dst src (loWord n) (hiWord n) table lanes
              let whole := k.dxWhole = true ∧ k.overlaps = false
              let aligned := k.misaligned (loWord a).toNat (loWord b).toNat = false
              (¬whole → stops (.trap 2 none))
              ∧ (whole → (¬aligned → stops (.trap 8 none))
                ∧ (aligned → (∀ p before after, lanes = before ++ p :: after → p.2 % 4 ≠ 0 → (∀ q ∈ before, q.2 % 4 = 0) →
                    stops (.trap 8 (some p.1)))
                  ∧ ((∀ p ∈ lanes, p.2 % 4 = 0) →
                    (∀ l, k.outOfBounds c3.allocation false = some l → stops (.trap 7 l))
                    ∧ (∀ l, k.outOfBounds c3.allocation false = none → k.outOfBounds c3.allocation true = some l → stops (.trap 7 l))
                    ∧ (k.outOfBounds c3.allocation false = none → k.outOfBounds c3.allocation true = none → enters c3.s k))))))))
  ∧ (∀ (i : Instr) (op9 : Nat) (x y : XF) (s : State) (f : Flight), AtIssue (viewX op9 x) s f y →
      (i, op9) ∈ [(.bseal x, 0x14C), (.bwait x, 0x14D)] →
      let c := Ctx.atIssue (viewX op9 x) s f y
      let stops (e : Stop) : Prop := exec i s = .next (s.stopped f 8 e)
      let k := y.c.toNat
      let mine := s.copies.filter fun q => q.flight = f.key && q.batch.isNone
      (f.role = .walk → stops (.stall 3 0))
      ∧ (f.role ≠ .walk → c.isProducer = false → stops (.trap 11 none))
      ∧ (f.role ≠ .walk → c.isProducer = true →
          (8 ≤ k → stops (.trap 2 none))
          ∧ (k < 8 → (i = .bseal x → c.anyFits false → ∃ t g p, exec i s = .next t ∧ t.flight f.key = some g
            ∧ c.SeqIssued [p] f.flags g ∧ p.due = s.now f.vd + 4 ∧ p.preds = [] ∧ p.fstat = 0
            ∧ (∃ lo, p.writes = c.writes ⟨lo, none, f.em, 0⟩ ∧ ∀ l, l < 32 → lo.at l = BitVec.ofNat 32 (min mine.length 63))
            ∧ (∀ q, q ∈ t.copies ↔ (q ∈ s.copies ∧ q ∉ mine) ∨ ∃ p ∈ mine, p.state ≠ .done ∧ q = { p with batch := some k })
            ∧ (f.role.isService = false → ∀ u, s.team f.team = some u → t.team f.team = some { u with
              batches := listSet u.batches k (u.batches.getD k 0 + (mine.filter fun q => q.state ≠ .done).length) })
            ∧ c.Others s t)
          ∧ (i = .bwait x → (s.batchCount f k = 0 →
              ∃ t g, exec i s = .next t ∧ t.flight f.key = some g ∧ c.SeqIssued [] f.flags g ∧ c.Elsewhere s t)
            ∧ (s.batchCount f k ≠ 0 → ∃ t, exec i s = .next t ∧ t.flight f.key = some { f with
                block := .batch k, chain := Chain.closed, lastIssue := some (s.now f.vd), waitCount := 0, yielding := none }
              ∧ t = { s with flights := t.flights, quads := t.quads, owners := t.owners } ∧ c.Others s t)))))

/-- A core's copies (11 R249 to R251, R258, R265; 08 R199): COPY_START starts the oldest queued one whose owner runs, while
fewer than 8 are under way. A beat of the active copy whose turn it is in the round moves its next 64 bytes, here of a CPY or
FILL inside the team's scratchpad, whose granules become Full; after the last the copy is written. A poisoned source block
fails it, with DATA_POISON at that block's position, and poisons the destination from there on. COPY_COMPLETE of a written
copy writes its status word to every lane of its register, drops its flag, and its batch counts one less. -/
def Obligations.CopiesMove : Prop :=
  (∀ (s : State) (core : Nat),
    let mine := s.copies.filter fun c => c.core = core
    let under := (mine.filter fun c => c.state ≠ .queued ∧ c.state ≠ .done).length
    let runs (c : Copy) : Prop := ∃ f, s.flight c.flight = some f ∧ (s.owner f.vd).state = 1
    (8 ≤ under ∨ (∀ c ∈ mine, c.state = .queued → ¬runs c) → exec (.copyStart core) s = .next s)
    ∧ ∀ c before after, under < 8 → mine = before ++ c :: after → c.state = .queued → runs c →
      (∀ b ∈ before, b.state = .queued → ¬runs b) →
      ∃ t, exec (.copyStart core) s = .next t ∧ t.copy c.key = some { c with state := .active } ∧ t = { s with copies := t.copies }
        ∧ ∀ k, k ≠ c.key → t.copy k = s.copy k)
  ∧ ∀ (s : State) (c : Copy) (f : Flight) (u : Team), s.copy c.key = some c → s.flight c.flight = some f → f.role = .lane →
    s.team c.team = some u → u.key = c.team → f.team = c.team → u.state = .resident → u.spills = [] → u.scratch.wf = true →
    (∀ w ∈ s.owners, ∀ e ∈ w.entries, e.owed = []) → s.wc = [] →
    let n := c.c0.toNat
    let from' := 64 * c.next
    let m := min 64 (n - from')
    let same (t : State) : Prop := t = { s with teams := t.teams, copies := t.copies, engines := t.engines, free := t.free }
      ∧ (∀ k, k ≠ u.key → t.team k = s.team k) ∧ ∀ k, k ≠ c.key → t.copy k = s.copy k
    (∀ answer, c.state = .active → c.form = .cpy ∨ c.form = .fill → c.dst.space = 1 → (c.form = .cpy → c.src.space = 1) → from' < n →
      s.memOps = [] → (s.nextServed c.core).map Copy.key = some c.key →
      let new (j : Nat) : Byte := if c.form = .fill then BitVec.ofNat 8 (c.src.off / 256 ^ (j % 4)) else u.scratch.get (c.src.off + from' + j)
      (c.form = .fill ∨ ∀ j, j < m → u.gran ((c.src.off + from' + j) / 16) = .empty ∨ u.gran ((c.src.off + from' + j) / 16) = .full) →
      ∃ t u', exec (.copyEngineBeat c.key answer) s = .next t ∧ t.team u.key = some u' ∧ same t
        ∧ t.copy c.key = some { c with next := c.next + 1, state := if n ≤ from' + 64 then .written else .active }
        ∧ u' = { u with scratch := u'.scratch, granules := u'.granules }
        ∧ (∀ j, j < m → u'.scratch.get (c.dst.off + from' + j) = new j)
        ∧ (∀ a, (∀ j, j < m → a ≠ c.dst.off + from' + j) → u'.scratch.get a = u.scratch.get a)
        ∧ ∀ g, u'.gran g = if ∃ j, j < m ∧ g = (c.dst.off + from' + j) / 16 then .full else u.gran g)
    ∧ (∀ j, c.state = .active → c.form = .cpy → c.dst.space = 1 → c.src.space = 1 → from' < n → s.memOps = [] → c.failAt = none →
      c.dst.off % 16 = 0 → j < m →
      u.gran ((c.src.off + from' + j) / 16) = .poisonedError →
      ∃ t u', exec (.copySourceFailure c.key) s = .next t ∧ t.team u.key = some u' ∧ same t
        ∧ t.copy c.key = some { c with state := .written, failAt := some (from', 9, c.next) }
        ∧ u'.scratch = u.scratch
        ∧ ∀ g, u'.gran g = if c.dst.off + from' < 16 * g + 16 ∧ 16 * g < c.dst.off + n then .poisonedError else u.gran g)
    ∧ (c.state = .written → c.form ≠ .cpym → f.flags.length = 12 → c.dreg = 248 ∨ (f.cls c.dreg = .uniform ∧ c.dreg < 240) →
      (∀ b, c.batch = some b → b < u.batches.length) →
      let status : Word := match c.failAt with
        | some (_, code, off) => BitVec.ofNat 32 (code + 256 * (off % 2 ^ 24))
        | none => 0
      ∃ t g, exec (.copyComplete c.key) s = .next t ∧ t.flight f.key = some g
        ∧ g = { f with
          regs := g.regs, fstat := f.fstat ||| c.fstat, flags := g.flags, early := f.early.filter fun e => e.key ≠ c.key }
        ∧ (c.dreg ≠ 248 → g.reg c.dreg = .uniform status) ∧ (∀ r, r ≠ c.dreg → g.reg r = f.reg r)
        ∧ (∀ k, k < 12 → g.flags.getD k 0 = if c.flag = some k then f.flags.getD k 0 - 1 else f.flags.getD k 0)
        ∧ (∀ b, c.batch = some b → t.copy c.key = none
          ∧ t.team u.key = some { u with batches := listSet u.batches b (u.batches.getD b 0 - 1) })
        ∧ (c.batch = none → t.copy c.key = some { c with state := .done, buf := [] } ∧ t.team u.key = some u)
        ∧ (∀ a, t.byte a = s.byte a) ∧ ∀ k, k ≠ f.key → t.flight k = s.flight k)
    ∧ (c.state = .queued ∨ c.state = .active → exec (.copyComplete c.key) s = .next s)

/-- DISTILLER_BLOCK of a block that has been taken (11 R260 to R262): a malformed header ends the copy with ESSENCE_FORMAT at
the block; one that decodes writes its output, here unconverted and to the scratchpad, with granules Full where its CRC
matches and poisoned as a checksum error, under CHECKSUM_MISMATCH, where it does not; after the last block, once all of it has
been taken, the copy is written. CPYM_FOLLOW_ON of a copy whose bytes have all moved (11 R267): the command that its word
names is checked as if its producer issued it, with the buffer record its word names, here a cached one; it enters the
sequencer queue of its team, or the copy ends with MATRIX_FORMAT. Nothing happens before, or without a follow-on, or after a
failure. -/
def Obligations.DistillerAndFollowOn : Prop :=
  (∀ (s : State) (c : Copy) (f : Flight) (u : Team), s.copy c.key = some c → s.flight c.flight = some f → c.form = .cpyz →
      c.state = .active → s.inDistiller c = true → c.block < c.blocks → c.badBlock = none → c.dst.space = 1 → c.failAt = none →
      (c.block < c.tkBlock ∨ c.tkEnd ≠ 0 ∨ c.stuck = true ∨ c.pastSource = true) →
      s.team c.team = some u → u.key = c.team → u.state = .resident → u.spills = [] → u.scratch.wf = true → s.memOps = [] →
      (∀ w ∈ s.owners, ∀ e ∈ w.entries, e.owed = []) →
      let b := c.placedFrom c.srcAt
      let field (o n : Nat) : Nat := leNat ((b.drop o).take n)
      let raw := field 4 4
      let formed := field 0 2 = 0xE55E ∧ field 2 1 ≤ 2 ∧ 16 ≤ raw ∧ raw ≤ 2 ^ 20 ∧ raw % 16 = 0
        ∧ (field 2 1 = 0 → field 8 4 = raw) ∧ (field 2 1 = 1 → 128 ≤ field 8 4) ∧ (field 2 1 = 2 → 1 ≤ field 8 4)
      let lo := c.dst.off + c.outAt
      (¬formed → ∃ t, exec (.distillerBlock c.key) s = .next t
        ∧ t.copy c.key = some { c with state := .written, failAt := some (c.srcAt, 0x30, c.block), buf := [] }
        ∧ ∀ k, k ≠ c.key → t.copy k = s.copy k)
      ∧ (formed → field 2 1 = 0 → c.essConverts = false → c.win = 0 → c.carry = [] → 32 + raw ≤ b.length →
        c.src.record.ilm ≠ 4 → c.src.off + c.srcAt + 32 + raw ≤ c.src.record.extent → lo + raw ≤ s.allocOf c →
        let data := (b.drop 32).take raw
        let good := crc32c data = field 16 4
        ∃ t u' k, exec (.distillerBlock c.key) s = .next t ∧ t.team u.key = some u' ∧ t.copy c.key = some k
          ∧ (∀ j, j < raw → u'.scratch.get (lo + j) = data.getD j 0)
          ∧ (∀ a, a < lo ∨ lo + raw ≤ a → u'.scratch.get a = u.scratch.get a)
          ∧ (∀ g, lo / 16 ≤ g → 16 * g < lo + raw → u'.gran g = if good then .full else .poisonedChecksum)
          ∧ k.block = c.block + 1 ∧ k.outAt = c.outAt + raw ∧ (k.state = if c.blocks ≤ c.block + 1 ∧ c.blocks ≤ c.tkBlock ∧ c.bad = [] then .written else .active)
          ∧ k.failAt = (if good then none else some (c.srcAt, 0x0A, c.block))
          ∧ (c.block + 1 < c.blocks → k.srcAt = c.srcAt + (32 + raw + 31) / 32 * 32)))
  ∧ (∀ (s : State) (c : Copy) (f : Flight) (u : Team), s.copy c.key = some c →
      let w := c.c1.toNat
      (c.form ≠ .cpym ∨ w % 4 = 0 ∨ c.failAt ≠ none ∨ c.next < c.units → exec (.cpymFollowOn c.key) s = .next s)
      ∧ (s.flight c.flight = some f → s.team c.team = some u → u.state = .resident → u.spills = [] → c.form = .cpym → w % 4 ≠ 0 → c.failAt = none →
        c.state = .written → c.units ≤ c.next → (s.mxq.filter fun x => x.team = u.key).length < 8 →
        ∀ S r, s.copyRecord f c (w / 256 % 256) = (S, some r) →
        let m := S.mxCore u.core
        let cmd : MxCmd := { c.followCmd r with lane := lowestLane f.em }
        let fine := f.role.isOwner = false ∧ m.team = some u.key
          ∧ cmd.check m (BitVec.ofNat 32 (cmd.rows - 1)) (((S.variantOf u).map Variant.scratch).getD 0) = .ok ()
        (fine → ∃ t, exec (.cpymFollowOn c.key) s = .next t ∧ t.copy c.key = some { c with state := .following S.nextKey }
          ∧ t.mxq = insertMx (fun x => x.team = u.key && x.cycle = S.now u.vd && !x.started && S.mxQuad cmd < S.mxQuad x)
            { cmd with key := S.nextKey, cycle := S.now u.vd } S.mxq)
        ∧ (¬fine → ∃ t, exec (.cpymFollowOn c.key) s = .next t ∧ t.copy c.key = some { c with failAt := some (0, 13, 0) }
          ∧ t.mxq = S.mxq)))

/-- A matrix instruction of a lane-mode flight whose team holds its core's array enters the sequencer queue when it passes the
checks of 12 R283, in their order, after its team's earlier commands but before those of the same cycle from a higher quadrant
(R273); a load declares its bank's format and source at once (12 R270, R274, R281 to R289). -/
def Obligations.MatrixCommandsQueue : Prop :=
  ∀ (i : Instr) (op9 : Nat) (kind : MxKind) (x y : XF) (s : State) (f : Flight), AtIssue (viewX op9 x) s f y →
    (i, op9, kind) ∈ [(.mwld x, 0x160, .mwld), (.mwldL2 x, 0x161, .mwldL2), (.mma x, 0x162, .mma), (.mmaByp x, 0x163, .mmaByp),
      (.mdrain x, 0x164, .mdrain), (.mzero x, 0x165, .mzero), (.maccld x, 0x166, .maccld), (.maccst x, 0x167, .maccst)] →
    let c := Ctx.atIssue (viewX op9 x) s f y
    let stops (e : Stop) : Prop := exec i s = .next (s.stopped f 8 e)
    let holds := f.role.isOwner = false ∧ (s.mxCore f.core).team = some f.team
    let low (v : Lanes) : Word := if f.em = 0 then 0 else v.at (lowestLane f.em)
    let ctl : Word := if kind ∈ [.mma, .mmaByp, .mdrain] then low c.srcC else 0
    let cmd (r : BufRec) : MxCmd := c.mxCmd kind r ctl (low (c.srcHi 3 y.c))
    let later (x : MxCmd) : Prop := x.team = f.team ∧ x.cycle = s.now f.vd ∧ x.started = false ∧ f.quad < s.mxQuad x
    (¬holds → stops (.trap 2 none))
    ∧ (holds → ∀ r c1, (if kind = .mzero then (r, c1) = (BufRec.zero, c) else c.record y.b.toNat = .ok (r, c1)) →
      (kind ≠ .mzero → (r.kind = 0 ∨ 5 ≤ r.kind → stops (.trap 6 none))
        ∧ (1 ≤ r.kind → r.kind ≤ 4 → r.kind ∉ kind.kinds → stops (.trap 2 none)))
      ∧ (∀ e, (cmd r).check (s.mxCore f.core) ctl c1.allocation = .error e → stops e)
      ∧ ((cmd r).check (s.mxCore f.core) ctl c1.allocation = .ok () →
        (∀ e, c1.mxPages (cmd r) = .error e → stops e)
        ∧ ∀ ps, c1.mxPages (cmd r) = .ok ps → ∃ t before after, exec i s = .next t ∧ c.Entered c1.s t
          ∧ c1.s.mxq = before ++ after
          ∧ t.mxq = before ++ { cmd r with pages := ps, key := c1.s.nextKey, cycle := s.now f.vd } :: after
          ∧ (∀ x ∈ before, ¬later x) ∧ (∀ x, after.head? = some x → later x)
          ∧ t = { c1.s with
            flights := t.flights, quads := t.quads, owners := t.owners, free := t.free, mxq := t.mxq, mx := t.mx
            nextKey := c1.s.nextKey + 1 }
          ∧ (kind ∉ [.mwld, .mwldL2] → t.mx = c1.s.mx)
          ∧ (kind ∈ [.mwld, .mwldL2] → (∀ k, k ≠ f.core → t.mxCore k = s.mxCore k)
            ∧ t.mxCore f.core = (s.mxCore f.core).setBank (y.d.toNat % 2) { (s.mxCore f.core).bank (y.d.toNat % 2) with
              fmt := mxFmt r.menc, desc := ⟨kind = .mwldL2, r, (cmd r).off, ps⟩ })))

/-- The sequencer (12 R273, R274, R277, R284 to R289). MATRIX_COMMAND_START starts a queued command that nothing holds back;
MATRIX_COMMAND_COMPLETE performs a started one, which leaves the queue and drops its set flag: MZERO zeroes its tile and
clears its poison; MWLD, of a scratchpad tile without poison, gives its bank the tile's weights. MATRIX_STOP stops a streaming
command of a team that does not run after 32 rows a step, but lets one of a stalled or paused owner go on (15 R351; 19 R410),
and MATRIX_RESUME_RELOAD lets it go on once the team runs, here with no bank to reload. -/
def Obligations.MatrixSequencer : Prop :=
  ∀ (s : State) (c : MxCmd) (f : Flight) (u : Team), s.mxCmd c.key = some c → s.flight c.flight = some f → s.team c.team = some u →
    s.flightFrame f = none → (∀ w ∈ s.owners, ∀ e ∈ w.entries, e.owed = []) →
    let m := s.mxCore u.core
    let ended (t : State) (g : Flight) : Prop := exec (.matrixCommandComplete c.key) s = .next t ∧ t.mxCmd c.key = none
      ∧ t.flight f.key = some g ∧ g = { f with flags := g.flags }
      ∧ (∀ n, n < 12 → g.flags.getD n 0 = if c.flag = some n then f.flags.getD n 0 - 1 else f.flags.getD n 0)
      ∧ (∀ k, k ≠ f.key → t.flight k = s.flight k) ∧ (∀ k, k ≠ u.core → t.mxCore k = s.mxCore k)
      ∧ t = { s with flights := t.flights, mxq := s.mxq.filter fun x => x.key ≠ c.key, mx := t.mx, pins := t.pins }
    (s.mxCanStart u c = false → exec (.matrixCommandStart c.key) s = .next s)
    ∧ (s.mxCanStart u c = true → c.kind ≠ .mwldL2 →
      ∃ t, exec (.matrixCommandStart c.key) s = .next t ∧ t.mxCmd c.key = some { c with started := true } ∧ t = { s with mxq := t.mxq }
        ∧ ∀ k, k ≠ c.key → t.mxCmd k = s.mxCmd k)
    ∧ (c.started = false ∨ c.paused = true → exec (.matrixCommandComplete c.key) s = .next s)
    ∧ (c.started = true → c.paused = false →
      (c.kind = .mzero → ∃ t g, ended t g
        ∧ (∀ r, 128 * c.tile ≤ r → r < 128 * c.tile + 128 → (∀ w ∈ (t.mxCore u.core).row r, w = 0) ∧ (t.mxCore u.core).rowPoison r = none)
        ∧ (∀ r, r < 128 * c.tile ∨ 128 * c.tile + 128 ≤ r →
          (t.mxCore u.core).row r = m.row r ∧ (t.mxCore u.core).rowPoison r = m.rowPoison r)
        ∧ (t.mxCore u.core).w0 = m.w0 ∧ (t.mxCore u.core).w1 = m.w1)
      ∧ (∀ o, c.kind = .mwld → c.bank < 2 → c.opnd 0 = some o → o.scratch = true →
        (∀ r, r < 128 → ∀ a ∈ o.rowAddrs r ++ o.scaleAddrs r, u.gran (a / 16) = .empty ∨ u.gran (a / 16) = .full) →
        ∃ t g b, ended t g ∧ (t.mxCore u.core).bank c.bank = b ∧ b.valid = true ∧ b.poison = none ∧ b.fmt = (m.bank c.bank).fmt
          ∧ b.held = ⟨false, c.record, c.off, c.pages⟩
          ∧ b.codes = codesOf o.nib (((List.range 128).flatMap o.rowAddrs).map u.scratch.get)
          ∧ b.scales = (((List.range 128).flatMap o.scaleAddrs).map u.scratch.get).map BitVec.toNat
          ∧ (t.mxCore u.core).rows = m.rows ∧ (t.mxCore u.core).bank (1 - c.bank) = m.bank (1 - c.bank)))
    ∧ (∀ steps, c.started = false ∨ c.paused = true ∨ c.kind ∉ [.mma, .mmaByp] ∨ c.rows ≤ c.next + 32 * steps →
      exec (.matrixStop c.key steps) s = .next s)
    ∧ (∀ steps, c.started = true → c.paused = false → c.kind ∈ [.mma, .mmaByp] → c.next + 32 * steps < c.rows → (s.owner u.vd).state ≠ 1 ∨ s.teamRuns u = false →
      ∃ t k, exec (.matrixStop c.key steps) s = .next t ∧ t.mxCmd c.key = some k
        ∧ (k.paused = true ↔ (s.owner u.vd).state = 1) ∧ k.next = c.next + 32 * steps
        ∧ k.started = true ∧ t = { s with mxq := t.mxq, mx := t.mx })
    ∧ ∀ core, (s.mxCore core).team = some u.key → (s.mxCore core).reload = [] → s.team u.key = some u → s.teamFlights u.key ≠ [] →
      (s.teamRuns u = false → exec (.matrixResumeReload core) s = .next s)
      ∧ (s.teamRuns u = true → ∃ t, exec (.matrixResumeReload core) s = .next t
        ∧ (∀ q ∈ t.mxq, q.team = u.key → q.paused = false)
        ∧ t.mxq.map MxCmd.key = s.mxq.map MxCmd.key ∧ t.mx = s.mx ∧ t.flights = s.flights)

/-- LAUNCH, LAUNCHI and SIGNAL name an object by the pair Va of the lowest active lane: above 2^57 it traps ILLEGAL_OPERAND, off
its alignment MISALIGNED; once its page translates, the operation enters the memory queue, a release at .PA or .SY (14 R319 to
R321). LAND traps LANDING_UNKNOWN without an entry in the running variant's table and ILLEGAL_OPERAND in owner mode, passes
where no switchable request is pending, and else waits there (14 R311, R322). -/
def Obligations.LaunchesAndLandings : Prop :=
  ∀ (i : Instr) (x y : XF) (w : WF) (s : State) (f : Flight),
    (∀ op9 kind align n access data queue, (i, op9, kind, align, n, access) ∈
        [(.launch x, 0x180, MemKind.launch, 64, 1, AccessKind.store), (.launchi x, 0x181, .launch, 64, 1, .store),
          (.signal x, 0x182, .signal, 8, 4, .atomic)] → AtIssue (viewX op9 x) s f y →
      let c := Ctx.atIssue (viewX op9 x) s f y
      let stops (e : Stop) : Prop := exec i s = .next (s.stopped f 8 e)
      let va := (c.pairAt 1 y.a (lowestLane f.em)).toNat
      let op (q : Nat) (as : List LaneAcc) : MemOp := { c.memOp kind 2 (if kind = .signal then 5 else 4) as with dst := 248, disp := q }
      (data = if kind = .signal then 0xFFFFFFFF else BitVec.ofNat 64 va) →
      (queue = if kind = .signal then 0
        else ((c.src 2 y.b).at (lowestLane f.em)).toNat % 8 + if op9 = 0x181 then 8 else 0) →
      (f.em = 0 → ∃ t, exec i s = .next t ∧ c.MemEntered s t (op 0 []))
      ∧ (f.em ≠ 0 → (2 ^ 57 ≤ va → stops (.trap 2 none)) ∧ (va < 2 ^ 57 → va % align ≠ 0 → stops (.trap 8 none))
        ∧ (va < 2 ^ 57 → va % align = 0 → f.role ≠ .walk →
          (∀ e, c.s.translateRange f va n access (lowestLane f.em) = .error e → stops e)
          ∧ ∀ ps, c.s.translateRange f va n access (lowestLane f.em) = .ok ps → ∃ t, exec i s = .next t
            ∧ c.MemEntered s t (op queue [⟨lowestLane f.em, ps.map Prod.fst, [], 0, data, 0, uncachedOf ps⟩]))))
    ∧ ∀ v, (i, v) ∈ [(Instr.land x, viewX 0x183 x), (.landW32 w, viewW 0x183 .land12 0x00 w)] → AtIssue v s f y →
      let c := Ctx.atIssue v s f y
      let id := y.imm24.toNat
      (f.role.isOwner = true → exec i s = .next (s.stopped f v.len (.trap 2 none)))
      ∧ ∀ u r, f.role.isOwner = false → s.team f.team = some u → u.key = f.team → s.variantOf u = some r →
        (r.landing id = none → exec i s = .next (s.takeTrap f 14 (lowestLane f.em) 0 f.pc 0))
        ∧ (r.landing id ≠ none → (s.pairAt u id = false →
            ∃ t g, exec i s = .next t ∧ t.flight f.key = some g ∧ g.pc = (f.pc + BitVec.ofNat 64 v.len) &&& pcMask
              ∧ g = { f with
                pc := g.pc, chain := g.chain, lastIssue := some (s.now f.vd), waitCount := 0, block := .none, yielding := none }
              ∧ c.Elsewhere s t)
          ∧ (s.pairAt u id = true → ∃ t, exec i s = .next t ∧ t.flight f.key = some { f with
              block := .land id, chain := Chain.closed, lastIssue := some (s.now f.vd), waitCount := 0, yielding := none }
            ∧ t.team u.key = some { u with request := u.request.map fun q => { q with waited := some (q.waited.getD 0) } }
            ∧ c.Others s t))

/-- OWNSET writes its register at issue under the rules of 15 R336, and traps ILLEGAL_OPERAND, which stalls the owner, where
they forbid it (15 R335, R336, R355; 03 R99). Here no gathered state depends on it: OWN.FPOOL is left to its own rule. LSET
writes lane L of a register, under its class, or of a predicate, at issue; the flight's other lanes stand (15 R356). -/
def Obligations.OwnerRegisterWrites : Prop :=
  (∀ (x y : XF) (s : State) (f : Flight), AtIssue (viewX 0x1A1 x) s f y →
      let c := Ctx.atIssue (viewX 0x1A1 x) s f y
      let n := y.b.toNat
      let o := s.owner f.vd
      let l := f.role.ownerLane
      let d : DWord := if n = 7 ∨ n = 11 then ((c.src 1 y.a).at l).setWidth 64 else c.pairAt 1 y.a l
      let pair := n = 2 ∨ n = 3 ∨ n = 4 ∨ n = 6 ∨ n = 9 ∨ n = 15
      let legal := (pair → pairOk f y.a.toNat = true) ∧ (n = 9 ∨ n = 11 → f.role.isService = false)
      let traps : Prop := exec (.ownset x) s = .next (s.stallOwner f.vd 1 2 f.role.code l f.pc 0)
      let ring := d >>> 52 = 0 ∧ (d >>> 4) &&& 0xFF = 0 ∧ 6 ≤ d.toNat % 16 ∧ d.toNat % 16 ≤ 12
        ∧ o.inVestibule (d.toNat / 4096 % 2 ^ 40 * 4096) (64 * 2 ^ (d.toNat % 16)) = true
      let issued (h : Flight) (o' : Owner) : Prop := ∃ t g, exec (.ownset x) s = .next t ∧ t.flight f.key = some g
        ∧ Ctx.SeqIssued { c with f := h } [] f.flags g ∧ t.owner f.vd = o' ∧ (∀ v, v ≠ f.vd → t.owner v = s.owner v)
        ∧ t = { s with flights := t.flights, quads := t.quads, owners := t.owners, free := t.free, recs := t.recs }
        ∧ ∀ k, k ≠ f.key → t.flight k = (s.flight k).map fun h => if h.quad = f.quad then { h with yielding := none } else h
      ((n = 0 ∨ n = 1 ∨ n = 8 ∨ n = 10 ∨ n = 12 ∨ n = 13 ∨ n = 14 ∨ 16 ≤ n) → f.em ≠ 0 → traps)
      ∧ (n ∈ [2, 3, 4, 6, 7, 9, 11, 15] → (¬legal → traps) ∧ (legal → f.em = 0 → issued f o))
      ∧ (legal → f.em ≠ 0 →
        (n = 2 → (d.toNat % 2 = 0 ∧ o.inVestibule d.toNat 2 = true → issued f { o with tvec := d })
          ∧ (¬(d.toNat % 2 = 0 ∧ o.inVestibule d.toNat 2 = true) → traps))
        ∧ (n = 3 → (ring ∧ o.walks = [] ∧ o.misses = [] → issued f { o with wq := d, walkHead := 0, walkTail := 0 })
          ∧ (¬ring ∨ o.walks ≠ [] → traps))
        ∧ (n = 4 → (ring ∧ o.faultRing = [] → issued f { o with fq := d, faultHead := 0, faultTail := 0 })
          ∧ (¬ring ∨ o.faultRing ≠ [] → traps))
        ∧ (n = 6 → issued f { o with tree := d })
        ∧ (n = 7 → (d.toNat < 65536 → issued f { o with asid := d.setWidth 32 }) ∧ (65536 ≤ d.toNat → traps))
        ∧ (n = 9 → issued { f with trap := { f.trap with tepc := d, tstep := f.trap.tstep &&& 0x7FFF } } o)
        ∧ (n = 11 → issued { f with trap := { f.trap with em := d.setWidth 32 } } o)
        ∧ (n = 15 → issued f { o with sbuf := d })))
  ∧ (∀ (x y : XF) (s : State) (f : Flight), AtIssue (viewX 0x1A3 x) s f y →
      let c := Ctx.atIssue (viewX 0x1A3 x) s f y
      let sel := y.c.toNat
      let lane := f.role.ownerLane
      let l := ((c.src 2 y.b).at lane).toNat % 32
      let w := (c.src 1 y.a).at lane
      let named := (sel < 240 ∧ f.cls sel ≠ .absent) ∨ (240 ≤ sel ∧ sel ≤ 246)
      let stalls (cause : Nat) : Prop := exec (.lset x) s = .next (s.stallOwner f.vd 1 cause f.role.code lane f.pc 0)
      let issued (h : Flight) : Prop := ∃ t g, exec (.lset x) s = .next t ∧ t.flight f.key = some g
        ∧ Ctx.SeqIssued { c with f := h } [] f.flags g ∧ c.Elsewhere s t
      (f.role.isService = true ∨ ¬named → stalls 2)
      ∧ (f.role.isService = false → named → (f.em = 0 → issued f)
        ∧ (f.em ≠ 0 →
          (sel < 240 → f.cls sel = .general → issued (f.setReg sel (.general (Lanes.tab fun m => if m = l then w else (f.reg sel).lanes.at m))))
          ∧ (sel < 240 → f.cls sel = .uniform → (∃ m, m < 32 ∧ m ≠ l ∧ (f.reg sel).lanes.at m ≠ w) → stalls 3)
          ∧ (240 ≤ sel → f.preds.length = 7 → ∃ h, issued h ∧ h = { f with preds := h.preds } ∧ ∀ p m, p < 7 → m < 32 →
            ((h.pred p).getLsbD m = if p = sel - 240 ∧ m = l then w.getLsbD 0 else (f.pred p).getLsbD m)))))

/-- The instructions of the owner and system classes that complete later: with a role that 15 R329 lets use them and operands
that their entries allow, each enters with its set flag up (14 R324; 15 R354, R358 to R362; 17
R388 to R390); a role or an operand that they do not allow traps ILLEGAL_OPERAND. What those instructions do at completion (15
R349, R358, R359, R361; 17 R388 to R390). WQTAKE and FQTAKE take the oldest untaken record, or wait for one; RWALK writes the
block of its step; CNTR waits for the flight's earlier work, then reads its counter; QOSQ reads its item; ERRQ reads the number
of records, takes the oldest, or reads and clears DROPPED; the set flag drops. -/
def Obligations.OwnerInstructions : Prop :=
  (∀ (i : Instr) (op9 : Nat) (x y : XF) (s : State) (f : Flight), AtIssue (viewX op9 x) s f y →
      let c := Ctx.atIssue (viewX op9 x) s f y
      let enters (k : SysKind) : Prop := ∃ t, exec i s = .next t ∧ c.SysEntered s t k
      let illegal : Prop := exec i s = .next (s.stopped f 8 (.trap 2 none))
      let d := y.d.toNat
      let l := f.role.ownerLane
      let a := c.pairAt 1 y.a l
      let b := c.pairAt 2 y.b l
      let k := y.c.toNat
      (i = .wqtake x → op9 = 0x1A5 → (f.role = .walk → enters .wqtake) ∧ (f.role ≠ .walk → illegal))
      ∧ (i = .fqtake x → op9 = 0x1A9 → ((∃ n, f.role = .fault n) → enters .fqtake)
        ∧ ((∀ n, f.role ≠ .fault n) → illegal))
      ∧ (i = .rwalk x → op9 = 0x1A6 →
        let r := walkRange a.toNat b.toNat
        let size := if a.toNat % 4 = 0 then 256 else 4096
        (f.em = 0 → enters (.rwalk a b))
        ∧ (f.em ≠ 0 → (b >>> 57 ≠ 0 ∨ a.toNat % 4 = 3 ∨ a >>> 52 ≠ 0 → illegal)
          ∧ (b >>> 57 = 0 → a.toNat % 4 ≠ 3 → a >>> 52 = 0 →
            ((a.toNat - a.toNat % 4) % size ≠ 0 → exec i s = .next (s.stopped f 8 (.trap 8 none)))
            ∧ ((a.toNat - a.toNat % 4) % size = 0 → f.role ≠ .walk ∨ (s.owner f.vd).inVestibule r.1 r.2 = true →
              ∀ uc, (s.owner f.vd).balustrade r.1 r.2 = some uc → enters (.rwalk a b)))))
      ∧ (i = .tresume x → op9 = 0x1AA →
        let token := ((c.src 1 y.a).at l).toNat
        let waiting := s.party f.vd token ≠ none ∧ ∀ o ∈ s.sysOps, ∀ ks, o.kind ≠ .tresume token ks
        (∀ n, f.role = .fault n → (f.em = 0 → enters (.tresume 0 []))
          ∧ (f.em ≠ 0 → (¬waiting → illegal) ∧ (waiting → (∀ e ∈ s.wc, e.flight ≠ f.key) →
            enters (.tresume token ((s.memOps.filter fun o => o.flight = f.key && o.kind.accesses).map MemOp.key)))))
        ∧ ((∀ n, f.role ≠ .fault n) → illegal))
      ∧ (i = .cntr x → op9 = 0x1C0 → (0x18 < k ∨ (0x0C ≤ k ∧ k < 0x10) → illegal)
        ∧ (¬(0x18 < k ∨ (0x0C ≤ k ∧ k < 0x10)) → enters (.cntr k (s.worksOf f.key))))
      ∧ (i = .qosq x → op9 = 0x1C1 → (0x18 < k ∨ (4 ≤ k ∧ k < 8) → illegal) ∧ (¬(0x18 < k ∨ (4 ≤ k ∧ k < 8)) → enters (.qosq k)))
      ∧ (i = .errq x → op9 = 0x1C2 → (3 ≤ k → illegal) ∧ (k = 0 ∨ k = 2 → enters (.errq k))
        ∧ (k = 1 → (d % 2 = 0 ∧ d ≤ 236 ∧ ∀ j, j < 4 → f.cls (d + j) = .general) → enters (.errq k))
        ∧ (k = 1 → ¬(d % 2 = 0 ∧ d ≤ 236 ∧ ∀ j, j < 4 → f.cls (d + j) = .general) → illegal))
      ∧ (i ∈ [.ctxsv x, .ctxld x] → (i, op9) ∈ [(.ctxsv x, 0x185), (.ctxld x, 0x186)] → f.role = .walk → illegal)
      ∧ (f.em = 0 → f.role ≠ .walk → (i = .ctxsv x → op9 = 0x185 → enters .ctxsv) ∧ (i = .ctxld x → op9 = 0x186 → enters .ctxld)
        ∧ (i = .tlbkill x → op9 = 0x1A8 → enters (.tlbkill []))))
  ∧ (∀ (s : State) (o : SysOp) (f : Flight), s.memOp o.key = none → (s.sysOps.find? fun x => x.key = o.key) = some o →
      s.flight o.flight = some f → s.flightFrame f = none → (∀ r, s.regFrame f r = none) → o.mask ≠ 0 →
      (∀ n, n < 6 → 240 ≤ o.dst + n ∨ f.cls (o.dst + n) = .general) → s.wc = [] →
      let ow := s.owner f.vd
      let done (t : State) (vals : List Nat) : Prop := exec (.memoryComplete o.key) s = .next t
        ∧ t.sysOps = (s.sysOps.filter fun x => x.key ≠ o.key)
        ∧ ∃ g, t.flight f.key = some g ∧ g = { f with regs := g.regs, flags := g.flags }
          ∧ (∀ n, n < 12 → g.flags.getD n 0 = if o.flag = some n then f.flags.getD n 0 - 1 else f.flags.getD n 0)
          ∧ (∀ j, j < vals.length → o.dst + j < 240 → g.reg (o.dst + j)
            = .general (mergeLanes o.mask (f.reg (o.dst + j)).lanes (Lanes.tab fun _ => BitVec.ofNat 32 (vals.getD j 0))))
          ∧ ∀ r, r < o.dst ∨ o.dst + vals.length ≤ r → g.reg r = f.reg r
      let waits : Prop := exec (.memoryComplete o.key) s = .next s
      (o.kind = .wqtake → ((∀ r ∈ ow.walks, r.taken = true) → waits)
        ∧ ∀ r before after, ow.walks = before ++ r :: after → (∀ q ∈ before, q.taken = true) → r.taken = false →
          let at' := bits ow.wq.toNat 51 12 * 4096 + 64 * r.slot
          ∃ t, done t [at', at' / 2 ^ 32, r.slot + 4096 * (r.seq % 2 ^ 20)] ∧ (t.owner f.vd).walkHead = ow.walkHead + 1
            ∧ (f.role = .walk → (t.owner f.vd).progress = 0))
      ∧ (o.kind = .fqtake → f.role = .fault 0 → (ow.faultRing = [] → waits)
        ∧ ∀ r rs, ow.faultRing = r :: rs → ow.faultWait = [] →
          let at' := bits ow.fq.toNat 51 12 * 4096 + 64 * (ow.faultHead % 2 ^ (ow.fq.toNat % 16))
          ∃ t, done t [at', at' / 2 ^ 32, r.token] ∧ (t.owner f.vd).faultRing = rs ∧ (t.owner f.vd).progress = 0)
      ∧ (o.kind = .fqtake → f.role = .fault 1 → (ow.level1 = none → waits)
        ∧ ∀ r, ow.level1 = some r →
          ∃ t, done t [ow.vbase.toNat + 0x140, (ow.vbase.toNat + 0x140) / 2 ^ 32, r.token] ∧ (t.owner f.vd).level1 = none)
      ∧ (∀ p v, o.kind = .rwalk p v → f.role.isOwner = true →
        let r := walkRange p.toNat v.toNat
        let as := (List.range r.2).map fun j => ow.onPort r.1 + j
        s.devHold as (.op o.key) = none → (∀ u ∈ s.teams, u.windows = []) → (∀ w ∈ s.owners, ∀ e ∈ w.entries, e.owed = []) →
        (∀ b ∈ as, s.mapped b = true ∧ s.badByte b = false ∧ s.holds (.l1 f.core) (b / 128) = true) → s.uncachedAt f.vd r.1 = false →
        let q := walkStep p.toNat v.toNat (as.map s.byte)
        ∃ t, done t [q.base, q.base / 2 ^ 32, q.vbase, q.vbase / 2 ^ 32, q.kind, q.units])
      ∧ (∀ k ks, o.kind = .cntr k ks → (s.allDone ks = false → waits)
        ∧ (s.allDone ks = true → o.dst < 240 → ∃ t, done t [(s.counterNow f.vd k).toNat, (s.counterNow f.vd k).toNat / 2 ^ 32]))
      ∧ (∀ k, o.kind = .qosq k → ∃ t, done t [s.qosNow f.vd k])
      ∧ (o.kind = .errq 0 → ∃ t, done t [ow.errors.length] ∧ t.owner f.vd = ow)
      ∧ (o.kind = .errq 2 → ∃ t, done t [ow.errDropped] ∧ (t.owner f.vd).errDropped = 0)
      ∧ (∀ r rs, o.kind = .errq 1 → ow.errors = r :: rs →
        ∃ t, done t [r.struct + 256 * r.kind + 65536 * r.unit, 0, r.addr, r.addr / 2 ^ 32] ∧ (t.owner f.vd).errors = rs)
      ∧ (o.kind = .errq 1 → ow.errors = [] → ∃ t, done t [0, 0, 0, 0]))

/-- One step of a walk (15 R341, R342, R359). TLBPUT, TLBKILL, CTXSV and CTXLD act on what they name (14 R324; 15 R360, R361):
a PREFILL installs its entry in every bank that serves one of its pages; a LEAF for a request installs it, frees the slot, and
lets the waiting flight look up again; TLBKILL drops the owner's entries that its mode names from every TLB; CTXSV of a
swapped team copies its context and parks it; CTXLD of a context that its header does not name writes STATUS 2 and restores
nothing, of one for which no frame of the pool is free STATUS 1; else the context is copied back to where its team was saved,
a frame of the swap range or of the pool, the team is as it was when CTXSV parked it, and STATUS is 0. -/
def Obligations.WalksAndContexts : Prop :=
  (∀ (p v : Nat) (raw : List Byte),
      let q (o : Nat) : Nat := leNat ((raw.drop o).take 8)
      let key (j : Nat) : Nat := q (8 + 8 * j) % 2 ^ 57
      let r := walkStep p v raw
      let miss := r = ⟨0, 0, 2, 0⟩
      let next (a : Nat) := r = ⟨a, 0, 0, 0⟩
      (p % 4 = 0 → ∀ c, c ≤ q 0 % 16 → c = ((List.range (q 0 % 16)).filter fun j => key j ≤ v).length →
        let sl := q (0x80 + 8 * (c - 1))
        (q 0 / 16 % 2 = 0 → next (q (0x80 + 8 * c)))
        ∧ (q 0 / 16 % 2 = 1 → (c = 0 ∨ sl % 2 = 0 → miss)
          ∧ (0 < c → sl % 2 = 1 → sl / 2 % 2 = 0 →
            let size := sl / 2 ^ 5 % 2 ^ 23 * 0x10000
            let pa := sl / 2 ^ 28 % 2 ^ 36 * 0x10000
            let giga := size = 2 ^ 30 ∧ key (c - 1) % 2 ^ 30 = 0 ∧ pa % 2 ^ 30 = 0
            (size = 0 ∨ key (c - 1) + size ≤ v → miss)
            ∧ (size ≠ 0 → v < key (c - 1) + size → r = ⟨pa, key (c - 1),
              1 + 16 * (sl / 4 % 2) + 32 * (sl / 8 % 2) + 64 * (sl / 16 % 2) + 256 * (if giga then 4 else 5), sl / 2 ^ 5 % 2 ^ 23⟩))
          ∧ (0 < c → sl % 2 = 1 → sl / 2 % 2 = 1 →
            let lvl := sl / 4 % 4
            let span := if lvl = 1 then 2 ^ 30 else 2 ^ 21
            let good := (lvl = 1 ∨ lvl = 2) ∧ key (c - 1) % span = 0 ∧ v < key (c - 1) + span
            (good → next (sl / 2 ^ 12 % 2 ^ 40 * 4096 + lvl)) ∧ (¬good → miss))))
      ∧ (p % 4 = 1 ∨ p % 4 = 2 →
        let e := leNat raw
        let pa := e / 2 ^ 12 % 2 ^ 40 * 4096
        let sz := e / 16 % 4
        let size := if p % 4 = 1 then (if sz = 0 then 2 ^ 21 else 2 ^ 25) else if sz = 0 then 2 ^ 12 else 2 ^ 16
        let page := e % 2 = 1 ∧ (sz = 0 ∨ sz = 1) ∧ pa % size = 0
        (e % 2 = 0 ∨ sz = 3 ∨ (p % 4 = 2 ∧ sz = 2) → miss)
        ∧ (e % 2 = 1 → p % 4 = 1 → sz = 2 → next (pa + 2))
        ∧ (page → r = ⟨pa, v / size * size, 1 + 16 * (e / 2 % 2) + 32 * (e / 4 % 2) + 64 * (e / 8 % 2)
          + 256 * (sz + if p % 4 = 1 then 2 else 0), 0⟩)
        ∧ (e % 2 = 1 → (sz = 0 ∨ sz = 1) → ¬page → miss)))
  ∧ (∀ (x y : XF) (s : State) (f : Flight),
      (AtIssue (viewX 0x1A7 x) s f y →
        let c := Ctx.atIssue (viewX 0x1A7 x) s f y
        let l := f.role.ownerLane
        let word (j : Nat) : Word := (c.src (8 + j) (y.d + BitVec.ofNat 8 j)).at l
        let a : PutArgs := ⟨(pair64 (word 0) (word 1)).toNat, (pair64 (word 2) (word 3)).toNat, (word 4).toNat, (word 5).toNat,
          ((c.src 2 y.b).at l).toNat⟩
        let formed := a.ctl / 2 % 2 ^ 15 = 0 ∧ a.word % 4 ≠ 0 ∧ a.word % 4 ≠ 3 ∧ a.cls ≤ 5
        f.em ≠ 0 → (∃ n, f.role = .fault n) →
        (¬formed → exec (.tlbput x) s = .next (s.stopped f 8 (.trap 2 none)))
        ∧ (formed → a.ctl % 2 = 1 → a.word % 4 = 1 → a.bad none = false → (s.owner f.vd).balustrade a.pa a.size ≠ none →
          ∃ t, exec (.tlbput x) s = .next t ∧ c.Entered s t ∧ ∀ b ∈ s.banksFor f.vd a.va a.size,
            (b, a.entry (s.owner f.vd) (a.ctl / 65536)) ∈ t.l3tlb)
        ∧ ∀ r g lane, formed → a.ctl < 65536 → a.ctl % 2 = 0 → a.word % 4 = 1 → (s.owner f.vd).walks = [r] → (s.owner f.vd).misses = [] →
          r.handle = ((c.src 1 y.a).at l).toNat → a.bad (some r) = false → r.stale = false →
          (s.owner f.vd).balustrade a.pa a.size ≠ none → s.flight g.key = some g → g.key ≠ f.key →
          r.waiters = [(.flight g.key, r.kind, r.va)] → g.block = .walk r.va r.kind lane → r.kind.allowed (a.entry (s.owner f.vd) r.asid) = true →
          ∃ t h, exec (.tlbput x) s = .next t ∧ (s.bankOf f.vd r.va, a.entry (s.owner f.vd) r.asid) ∈ t.l3tlb ∧ (t.owner f.vd).walks = []
            ∧ t.flight g.key = some h ∧ h.block = .lookup r.va r.kind lane ∧ h.regs = g.regs ∧ h.pc = g.pc)
      ∧ (AtIssue (viewX 0x1A8 x) s f y →
        let c := Ctx.atIssue (viewX 0x1A8 x) s f y
        let l := f.role.ownerLane
        let a := c.pairAt 1 y.a l
        let b := c.pairAt 2 y.b l
        let asid := b.toNat % 65536
        let n := b.toNat / 2 ^ 32 * 0x10000
        let named (e : TlbEntry) : Prop := e.vd = f.vd ∧ match b.toNat / 2 ^ 30 % 4 with
          | 0 => e.asid = asid ∧ e.va ≤ a.toNat ∧ a.toNat < e.va + e.size
          | 1 => e.asid = asid ∧ e.va < a.toNat + n ∧ a.toNat < e.va + e.size
          | 2 => e.asid = asid
          | _ => True
        f.em ≠ 0 → f.role ≠ .walk →
        (a >>> 57 ≠ 0 → exec (.tlbkill x) s = .next (s.stopped f 8 (.trap 2 none)))
        ∧ (a >>> 57 = 0 → ∃ t g ks, exec (.tlbkill x) s = .next t ∧ t.flight f.key = some g ∧ c.VarIssued g
          ∧ t.sysOps = s.sysOps ++ [⟨s.nextKey, f.key, .tlbkill ks, y.d.toNat, f.em, c.flag, f.pc⟩]
          ∧ (∀ p, p ∈ t.l1tlb ↔ p ∈ s.l1tlb ∧ ¬named p.2) ∧ (∀ p, p ∈ t.l2tlb ↔ p ∈ s.l2tlb ∧ ¬named p.2)
          ∧ ∀ p, p ∈ t.l3tlb ↔ p ∈ s.l3tlb ∧ ¬named p.2))
      ∧ (AtIssue (viewX 0x185 x) s f y →
        let c := Ctx.atIssue (viewX 0x185 x) s f y
        let d := (c.pairAt 1 y.a f.role.ownerLane).toNat
        let p := d % 2 ^ 52
        f.em ≠ 0 → f.role ≠ .walk → (p % 4096 ≠ 0 → exec (.ctxsv x) s = .next (s.stopped f 8 (.trap 8 none)))
        ∧ (p % 4096 = 0 → (s.teamByHandle f.vd (d / 2 ^ 52) = none → exec (.ctxsv x) s = .next (s.stopped f 8 (.trap 2 none)))
          ∧ ∀ u g, s.teamByHandle f.vd (d / 2 ^ 52) = some u → s.team u.key = some u → u.state = .swapped → s.grid u.grid = some g →
            let o := s.owner f.vd
            let fr : Frame := .pages g.swap (u.index * g.frameSz)
            o.balustrade p (s.ctxSize u) ≠ none → memoryWf s = true → (∀ w ∈ s.teams, w.windows = []) →
            s.devHold ((List.range (s.ctxSize u)).map fun j => o.onPort p + j) (.op f.key) = none →
            (∀ j, j < s.ctxSize u → s.mapped (o.onPort p + j) = true) →
            ∃ t h, exec (.ctxsv x) s = .next t ∧ t.flight f.key = some h ∧ c.VarIssued h
              ∧ t.team u.key = some { u with state := .parked p 0 }
              ∧ t.sysOps = s.sysOps ++ [⟨s.nextKey, f.key, .ctxsv, y.d.toNat, f.em, c.flag, f.pc⟩]
              ∧ ∀ j, j < s.ctxSize u → t.byte (o.onPort p + j)
                = ((s.frameDrop fr 0 (s.ctxSize u)).frameRead fr 0 (s.ctxSize u)).getD j 0))
      ∧ (AtIssue (viewX 0x186 x) s f y →
        let c := Ctx.atIssue (viewX 0x186 x) s f y
        let d := c.pairAt 1 y.a f.role.ownerLane
        let p := d.toNat
        let o := s.owner f.vd
        let at' := o.onPort p
        let fr : Frame := .at at'
        let S := s.frameDrop fr 0 256
        let size := S.frameNat fr 0x20 8
        let free (n : Nat) : Prop := o.balustrade p n ≠ none ∧ s.devHold ((List.range n).map fun j => at' + j) (.op f.key) = none
        let ends (status : Byte) (t : State) : Prop := ∃ h, exec (.ctxld x) s = .next t ∧ t.flight f.key = some h ∧ c.VarIssued h
          ∧ t.byte (at' + 5) = status ∧ t.sysOps = s.sysOps ++ [⟨s.nextKey, f.key, .ctxld, y.d.toNat, f.em, c.flag, f.pc⟩]
        let copied (from' : State) (to' : Frame) (t : State) : Prop := ∀ j, j < size → s.mapped (to'.addr j) = true →
          to'.addr j ≠ at' + 5 → (∀ i, i < size → to'.addr i = to'.addr j → i = j) →
          t.byte (to'.addr j) = ((from'.frameDrop fr 0 size).frameRead fr 0 size).getD j 0
        f.em ≠ 0 → f.role ≠ .walk → (d >>> 52 ≠ 0 → exec (.ctxld x) s = .next (s.stopped f 8 (.trap 2 none)))
        ∧ (d >>> 52 = 0 → p % 4096 ≠ 0 → exec (.ctxld x) s = .next (s.stopped f 8 (.trap 8 none)))
        ∧ (d >>> 52 = 0 → p % 4096 = 0 → free 256 → free size → memoryWf s = true → (∀ w ∈ s.teams, w.windows = []) →
          s.mapped (at' + 5) = true → (∀ w ∈ s.owners, ∀ e ∈ w.entries, e.owed = []) →
          (S.headerTeam f.vd fr = none → ∃ t, ends 2 t ∧ t.teams = s.teams)
          ∧ ∀ u g q w, S.headerTeam f.vd fr = some u → s.team u.key = some u → s.grid u.grid = some g → u.state = .parked q w →
            (w = 0 → ∃ t, ends 0 t ∧ t.team u.key = some { u with state := .swapped }
              ∧ copied S (.pages g.swap (u.index * g.frameSz)) t)
            ∧ (w ≠ 0 → (o.freeFrame size = none → ∃ t, ends 1 t ∧ t.teams = s.teams)
              ∧ ∀ n, o.freeFrame size = some n → let pa := o.frameAt n
                ∃ t, ends 0 t ∧ t.team u.key = some { u with state := if w = 1 then .faulted pa else .ready pa }
                  ∧ copied (S.takeFrame f.vd n) (.at (o.onPort pa)) t))))

/-- A write to memory: the last byte written to a mapped address is what it reads as, every other address keeps its byte, and
one outside the map of 21 R425 is reported and dropped (21 R425). The form of memory is the invariant of StepKeepsForm. A
coherent write at any point of coherence, and a device write past the caches: every written byte that is mapped reads as the
last write to it, every other byte reads as before, and written bytes are no longer poisoned (08 R188, R196; 17 R372; 21 R425).
This is for a state whose caches agree with memory (Safety.lean), with no stash window open. -/
def Obligations.CoherentWrites : Prop :=
  (∀ (s : State) (ws : List (Nat × Byte)) (a : Nat), memoryWf s = true →
      ((s.memPut ws).mem.get a = match (ws.filter fun w => w.1 = a && s.mapped a).getLast? with
        | some w => w.2
        | none => s.mem.get a)
      ∧ ((∃ w ∈ ws, s.mapped w.1 = false) → ∃ w ∈ ws, s.mapped w.1 = false ∧ (s.memPut ws).host = s.host ++ [.unmapped w.1]))
  ∧ (∀ (s : State) (vd : Nat) (poc : Poc) (ws : List (Nat × Byte)) (a : Nat), Coherent s →
      let after : Byte := match (ws.filter fun w => w.1 = a && s.mapped a).getLast? with
        | some w => w.2
        | none => s.byte a
      (s.cohWrite vd poc ws).byte a = after ∧ (s.devWrite ws).byte a = after
      ∧ (s.mapped a = true → (∃ w ∈ ws, w.1 = a) →
        (s.cohWrite vd poc ws).badByte a = false ∧ (s.devWrite ws).badByte a = false))

/-- ADMISSION takes the oldest record of a queue of a running owner (14 R295, R299, R320): accepted, the grid joins the
owner's grids with the cycle of its acceptance; refused or accepted, the record leaves its queue, STATUS and BOUND are
written, and the flag of the LAUNCH that enqueued it drops. GRID_DISPATCH starts an admitted grid whose incoming edges are
satisfied, a LAUNCHI's top extent being its count clamped to COUNTMAX (R297, R320). GRID_RETIRE ends a grid whose teams have
all retired: its STATUS is DONE, or the code that names what went wrong (R295, R298). TEAM_PLACE: the grid's next team that
never started takes the place that the rules of 14 R306 to R308 choose, its macro image as memory now holds it (03 R92), its
flights in lane mode at the variant's code with every lane active and every register and flag 0 (R307), each byte of its
scratchpad zero or as an earlier team of the owner left it (08 R197); a saved team that is ready is read back from its frame,
what was cached of it written back and dropped first (R315), and goes on at the head of its saved chain or at its saved PC.
TEAM_RETIRE frees what a finished team holds (R298). WCET_OVERRUN marks the grid of a class-1 team whose issue time exceeds
its variant's WCET (R302). -/
def Obligations.GridsAndTeams : Prop :=
  ((∀ (vd queue : Nat) (s : State) (q : Queued),
      let o := s.owner vd
      let w : SysWho := ⟨vd, o.asid.toNat % 65536, .admission queue⟩
      let r := w.run (do
        w.hold (match q.source with | .host h _ _ => s.ringBytes vd h | .flight => [])
        w.record q) s
      (o.state ≠ 1 ∨ (∀ x ∈ o.launchQ, x.queue ≠ queue) → exec (.admission vd queue) s = .next s)
      ∧ (o.state = 1 → (o.launchQ.find? fun x => x.queue = queue) = some q →
        let left (t : State) : Prop := (t.owner vd).launchQ = o.launchQ.filter fun x => x.key ≠ q.key
        (∀ g, r.2 = .ok g → ∃ t, exec (.admission vd queue) s = .next t ∧ t.grids = s.grids ++ [{ g with accepted := s.now vd }]
          ∧ g.key = q.key ∧ g.vd = vd ∧ g.queue = q.queue ∧ g.va = q.va ∧ g.state = .admitted ∧ left t)
        ∧ (∀ code extra bound, r.2 = .error (.refuse code extra bound) → ∃ t, exec (.admission vd queue) s = .next t
          ∧ t.grids = s.grids ∧ left t)
        ∧ (r.2 = .error .waits → exec (.admission vd queue) s = .next r.1)
        ∧ ∀ op f, ((∃ g, r.2 = .ok g) ∨ (q.source = .flight ∧ ∃ c e b, r.2 = .error (.refuse c e b))) →
          (s.sysOps.find? fun x => x.kind = .launch q.key) = some op → s.flight op.flight = some f →
          ∃ t g, exec (.admission vd queue) s = .next t ∧ t.flight f.key = some g ∧ g = { f with flags := g.flags }
            ∧ (∀ n, n < 12 → g.flags.getD n 0 = if op.flag = some n then f.flags.getD n 0 - 1 else f.flags.getD n 0)
            ∧ t.sysOps = s.sysOps.filter fun x => x.key ≠ op.key))
    ∧ (∀ (s : State) (k : Nat) (g : Grid), s.grid k = some g →
      let asid := (s.owner g.vd).asid.toNat % 65536
      let w : SysWho := ⟨g.vd, asid, .grid g.key⟩
      let g' : Grid := { g with asid := asid }
      let r := w.run (w.dispatchReads g') ((s.putGrid g').dropRegions g.vd asid (g.edgesIn.flatMap Edge.regions))
      (g.state ≠ .admitted ∨ (s.owner g.vd).state ≠ 1 → exec (.gridDispatch k) s = .next s)
      ∧ (g.state = .admitted → (s.owner g.vd).state = 1 → (∀ e ∈ g.edgesIn, e.satisfied = true) →
        (r.2 = .error .waits → exec (.gridDispatch k) s = .next r.1)
        ∧ (∀ vs n, r.2 = .ok (vs, n) → ∃ t h, exec (.gridDispatch k) s = .next t ∧ t.grid k = some h
          ∧ h = { g' with
            state := .dispatched, variants := vs, started := s.now g.vd, levels := h.levels, teams := h.teams, clamped := h.clamped }
          ∧ (g.isI = false → h.levels = g.levels ∧ h.teams = g.teams ∧ h.clamped = g.clamped)
          ∧ (g.isI = true → g.levels ≠ [] → h.teams = h.teamCount ∧ h.clamped = decide (g.countMax < n)
            ∧ h.levels = g.levels.dropLast ++ [((g.levels.getLast?.getD (0, 0)).1, min n g.countMax)]))))
    ∧ ∀ (s : State) (k : Nat) (g : Grid), s.grid k = some g →
      let w : SysWho := ⟨g.vd, (s.owner g.vd).asid.toNat % 65536, .grid g.key⟩
      let r := w.run (w.counts g.edgesOut) s
      (s.gridDone g = false ∨ (s.owner g.vd).state ≠ 1 → exec (.gridRetire k) s = .next s)
      ∧ (s.gridDone g = true → (s.owner g.vd).state = 1 → ∀ cs, r.2 = .ok cs →
        r.1.devHold (r.1.retireBytes g cs) (.sys (.grid k)) = none →
        ∃ t, exec (.gridRetire k) s = .next t
          ∧ t.grid k = some { g with state := .retired, sigfail := cs.any Option.isNone }
          ∧ (∀ u ∈ t.teams, u.grid ≠ k) ∧ (∀ b ∈ t.barriers, b.grid ≠ k) ∧ (∀ e ∈ t.recs, e.grid ≠ 2 * k)
          ∧ ∀ j, j ≠ k → t.grid j = s.grid j)
      ∧ Grid.doneCode g = (if g.overrun then 0x13 else if g.sigfail then 0x12 else if g.clamped then 0x11 else 0x10))
  ∧ ((∀ (s : State) (k : Nat) (g : Grid), s.grid k = some g →
      (g.state ≠ .dispatched ∨ s.ownerRuns g.vd = false → exec (.teamPlace k) s = .next s)
      ∧ (g.state = .dispatched → s.ownerRuns g.vd = true → (s.spiltTeams g.vd).all (fun u => u.grid ≠ k) = true → s.earlierGrids g = [] →
        (∀ S, s.withImages g = (S, none) → exec (.teamPlace k) s = .next S)
        ∧ ∀ S h core n p, s.withImages g = (S, some h) → S.grid k = some h → max 1 h.group = 1 →
        let cores := S.unitCores h n
        let allowed := if h.cls = 1 then h.variants.filter fun v => h.vstar = some v.num else h.variants
        (∀ v hd, S.nextUnit h = some (n, []) → (S.teams.filter fun u => u.vd = h.vd && u.state ≠ .retired).length < 4096 →
          S.choosePlace h (allowed.map fun v => [v]) cores = some (core, [v], [p], []) → S.freeHandle h.vd = some hd →
          ∃ t sp, exec (.teamPlace k) s = .next t ∧ t.grid k = some { h with next := h.next + 1 }
            ∧ t.team S.nextKey
              = some { Team.fresh S.nextKey k n h.vd core v.num with handle := hd, base := p.base, bodies := v.bodies, scratch := sp }
            ∧ (∀ o, sp.get o = 0 ∨ (o < v.scratch ∧ sp.get o = S.leftAt h.vd core (p.base + o)))
            ∧ ∀ i, i < h.flights → ∃ f, t.flight (S.nextKey + 1 + i) = some f ∧ f.team = S.nextKey ∧ f.index = i ∧ f.vd = h.vd
              ∧ f.role = .lane ∧ f.pc = v.code &&& pcMask ∧ f.em = 0xFFFFFFFF ∧ f.core = core ∧ f.quad = 4 * core + p.quads.getD i 0
              ∧ f.classMap = v.classMap ∧ f.waitTable = v.waitTab ∧ f.regs = [] ∧ (∀ j, f.flags.getD j 0 = 0)
              ∧ (∀ j, j < 7 → f.pred j = 0) ∧ f.fstat = 0 ∧ f.block = .none ∧ f.ended = false ∧ f.halted = false)
        ∧ (∀ u v fr, S.nextUnit h = some (n, [u]) → S.team u.key = some u → u.grid = k → u.state = .swapped → S.frameBad u = none →
          S.variantOf u = some v → S.teamFrame u = some fr → S.devHold (S.frameHeads [u]) (.sys (.grid h.key)) = none →
          (S.flights.map Flight.key).Nodup → S.choosePlace h [[v]] cores = some (core, [v], [p], []) →
          ∃ t w, exec (.teamPlace k) s = .next t ∧ t.team u.key = some w ∧ w.state = .resident ∧ w.core = core ∧ w.base = p.base
            ∧ w.variant = u.variant ∧ w.index = u.index ∧ w.bodies = v.bodies
            ∧ ∀ f, S.flight f.key = some f → f.team = u.key → f.role.isService = false →
              let b := (h.teamShape v).off 0 + 256 * f.index
              let saved := ((S.served (.sys (.grid h.key))).frameDrop fr 0 (h.teamShape v).size).frameNat fr
              let head := saved (b + 8) 8
              ∃ x, t.flight f.key = some x ∧ x.core = core ∧ x.quad = 4 * core + p.quads.getD f.index 0
                ∧ x.pc = BitVec.ofNat 64 (if head % 2 = 1 then head - 1 else saved b 8) &&& pcMask
                ∧ x.em = BitVec.ofNat 32 (saved (b + 0x10) 4) ∧ x.ended = decide (saved (b + 0x44) 4 % 2 = 1))))
    ∧ (∀ (s : State) (k : Nat) (u : Team), s.team k = some u →
      ((s.owner u.vd).state ≠ 1 ∨ s.teamDone u = false → exec (.teamRetire k) s = .next s)
      ∧ ((s.owner u.vd).state = 1 → s.teamDone u = true → ∃ t w, exec (.teamRetire k) s = .next t ∧ t.team k = some w
        ∧ (u.spills = [] → ∀ v o, s.variantOf u = some v → o < v.scratch → t.leftAt u.vd u.core (u.base + o) = u.scratch.get o)
        ∧ w.state = .retired ∧ w.scratch = [] ∧ w.granules = [] ∧ w.windows = [] ∧ w.index = u.index ∧ w.grid = u.grid
        ∧ (∀ f ∈ t.flights, f.role.isService = true ∨ f.team ≠ k) ∧ (∀ c ∈ t.copies, c.team ≠ k) ∧ (∀ m, s.mx = [m] → m.team = some k → ∀ x ∈ t.mx, x.team = none)
        ∧ (∀ f ∈ s.flights, f.role.isService = false → f.team = k → ∀ q ∈ t.quads, f.key ∉ q.order)
        ∧ (∀ f ∈ s.flights, f.role.isService = true ∨ f.team ≠ k → f ∈ t.flights) ∧ ∀ j, j ≠ k → t.team j = s.team j))
    ∧ ∀ (s : State) (k : Nat) (u : Team) (g : Grid) (v : Variant), s.team k = some u → s.grid u.grid = some g → s.variantOf u = some v →
      (g.cls = 1 → v.wcet < u.issueTime → ∃ t, exec (.wcetOverrun k) s = .next t ∧ t.grid u.grid = some { g with overrun := true }
        ∧ t = { s with grids := t.grids } ∧ ∀ j, j ≠ u.grid → t.grid j = s.grid j)
      ∧ (g.cls ≠ 1 ∨ u.issueTime ≤ v.wcet → exec (.wcetOverrun k) s = .next s))

/-- What moves a placed team: FORWARD_PROGRESS_SWAP saves a unit that has been blocked above its core into its swap frames (14
R313), MIGRATION moves a unit whole to another core of its instance (R314), both once its accesses are performed (09 R239),
LANDING_REMAP takes a gathered team into the target variant at its landing: PC, map and registers from the landing's keys, EM
kept (R311). SWITCH_REQUEST_POST gives a team a request (R310), and SWITCH_WITHDRAW_TIMEOUT takes it back after 2^12 cycles
(R312). NO_PROGRESS_STALL (15 R349) stalls an owner whose progress count has reached 2^20. SLICE_END halts the flights of the
slot whose slice has run out (17 R380); SLICE_START gives the partition's next turn to the owner that R379 chooses, with the
slice the host has written, and its halted flights that may run go on (R381). -/
def Obligations.TeamsMove : Prop :=
  ((∀ (s : State) (k : Nat) (u : Team) (g : Grid), s.team k = some u → s.grid u.grid = some g → (s.teams.map Team.key).Nodup →
      (∀ x ∈ s.teams, x.key < s.nextKey) → 1 ≤ g.group →
      let us := (s.groupOf u).filter fun x => x.state = .resident
      (s.stuck u = false ∨ s.nextUnit g = none → exec (.forwardProgressSwap k) s = .next s)
      ∧ (∀ S h, s.stuck u = true → s.nextUnit g ≠ none → g.variants ≠ [] → s.withImages g = (S, some h) →
        let R := us.foldl (fun S x => S.release x.key) S
        (∀ x ∈ us, R.released x.key = true ∧ R.teamAccesses x.key = [] ∧ R.swapBad h x.index = none ∧ R.variantOf x ≠ none
          ∧ x.grid = u.grid) →
        R.devHold (us.flatMap fun x => (Frame.pages h.swap (x.index * h.frameSz)).heads h.frameSz) (.sys (.grid h.key)) = none →
        (∃ f ∈ R.teamFlights k, f.ended = false ∧ ∃ level gen, f.block = .barrier level gen ∧ R.barrierDone f level gen = false) →
        ∃ t, exec (.forwardProgressSwap k) s = .next t ∧ ∀ x ∈ us, ∃ w, t.team x.key = some w ∧ w.state = .swapped ∧ w.index = x.index))
    ∧ (∀ (s : State) (k core : Nat) (u : Team) (g : Grid) (ps : List Place), s.team k = some u → s.grid u.grid = some g →
      let us := (s.groupOf u).filter fun x => x.state ≠ .retired
      s.teamRuns u = true → (∀ x ∈ us, x.state = .resident) → core ≠ u.core → core ∈ (s.partOf u.vd).teamCores →
      (∀ x ∈ us, s.instanceOk g x.index core = true) → (s.liveForwards u.core).length + us.length ≤ 4 →
      ∀ S h, s.withImages g = (S, some h) →
      let R := us.foldl (fun S x => S.release x.key) S
      let moved := us.filterMap fun x => R.team x.key
      (R.teams.map Team.key).Nodup → (R.flights.map Flight.key).Nodup →
      (∀ x ∈ us, R.released x.key = true ∧ R.teamAccesses x.key = [] ∧ (R.team x.key).isSome = true) →
      R.fitOn core h (moved.filterMap R.variantOf) false = some (ps, []) →
      ∃ t, exec (.migration k core) s = .next t ∧ ∀ i x, moved[i]? = some x →
        let p := ps.getD i ⟨[], 0⟩
        (∃ w, t.team x.key = some w ∧ w.core = core ∧ w.base = p.base ∧ w.variant = x.variant ∧ w.state = x.state)
        ∧ ∀ f ∈ R.teamFlights x.key, ∃ h, t.flight f.key = some h ∧ h.core = core ∧ h.quad = 4 * core + p.quads.getD f.index 0
          ∧ h.em = f.em ∧ h.pc = (if f.chain.isOpen then f.chain.head else f.pc))
    ∧ (∀ (s : State) (k core : Nat) (u : Team) (g : Grid) (v w₀ : Variant) (q : SwitchReq) (fs₀ fs : List (Flight × Nat)) (p : Place),
      s.team k = some u → s.grid u.grid = some g → s.variantOf u = some v → u.request = some q →
      kget Variant.num q.target g.variants = some w₀ → s.gathered u = some fs₀ → fs₀ ≠ [] → s.teamRuns u = true →
      (s.remapReady u = false → exec (.landingRemap k) s = .next s)
      ∧ (∀ S h u', s.remapReady u = true → s.withImages g = (S, some h) →
        let w := (kget Variant.num w₀.num h.variants).getD w₀
        let R := S.release u.key
        R.team k = some u' → R.gathered u' = some fs →
        (R.targetPlace h u' w = none → ∃ t, exec (.landingRemap k) s = .next t ∧ t.team k = some { u' with request := none }
          ∧ t = { R with teams := t.teams })
        ∧ (R.targetPlace h u' w = some (core, p) → core = u'.core ∨ (R.liveForwards u'.core).length < 4 →
          R.released k = true → R.teamAccesses k = [] → (R.flights.map Flight.key).Nodup → (∀ x ∈ fs, x.1.chain.isOpen = false) →
          ∃ t x, exec (.landingRemap k) s = .next t ∧ t.team k = some x ∧ x.variant = w.num ∧ x.request = none ∧ x.core = core
            ∧ x.base = p.base ∧ x.windows = []
            ∧ ∀ f id a b, (f, id) ∈ fs → v.landing id = some a → w.landing id = some b → ∃ h, t.flight f.key = some h
              ∧ h.pc = b.pc &&& pcMask ∧ h.em = f.em ∧ h.block = .none ∧ h.classMap = w.classMap ∧ h.waitTable = w.waitTab ∧ h.core = core
              ∧ (f.pend = [] → ∀ ka kb, (ka, kb) ∈ keyPairs a b → kb.loc = 0 →
                (∀ y ∈ keyPairs a b, y.2 ≠ kb → (y.2.loc ≤ 1 → y.2.reg ≠ kb.reg) ∧ (y.2.loc = 1 → y.2.reg + 1 ≠ kb.reg)) → h.reg kb.reg = f.reg ka.reg))))
    ∧ (∀ (s : State) (k target : Nat) (u : Team) (g : Grid) (w : Variant), s.team k = some u → s.grid u.grid = some g →
      kget Variant.num target g.variants = some w →
      let waits (f : Flight) : Bool := (List.range 256).any fun id => f.block = .land id
      let posts (up : Bool) : Prop := ∃ t, exec (.switchRequestPost k target) s = .next t
        ∧ t.team k = some { u with request := some ⟨target, up, if (s.teamFlights k).any waits then some 0 else none⟩ }
        ∧ t = { s with teams := t.teams }
        ∧ ∀ j, j ≠ k → t.team j = s.team j
      let first := ∀ x ∈ s.teams, x.grid = u.grid → x.index < u.index → ∀ y ∈ g.variants, s.mayUpgrade g x y = false
      (g.cls = 0 → s.mayUpgrade g u w = true → first → posts true)
      ∧ (g.cls = 0 → s.mayUpgrade g u w = false ∨ ¬first → s.mayDowngrade g u w = true → posts false)
      ∧ (g.cls ≠ 0 ∨ ((s.mayUpgrade g u w = false ∨ ¬first) ∧ s.mayDowngrade g u w = false) →
        exec (.switchRequestPost k target) s = .next s))
    ∧ ∀ (s : State) (k : Nat) (u : Team), s.team k = some u →
      ((∃ q n, u.request = some q ∧ q.waited = some n ∧ 4096 ≤ n) → s.gathered u = none →
        ∃ t, exec (.switchWithdrawTimeout k) s = .next t ∧ t.team k = some { u with request := none } ∧ t = { s with teams := t.teams })
      ∧ ((∀ q n, u.request = some q → q.waited = some n → n < 4096) ∨ s.gathered u ≠ none →
        exec (.switchWithdrawTimeout k) s = .next s))
  ∧ ((∀ (s : State) (vd : Nat),
      let o := s.owner vd
      (o.state = 1 → 2 ^ 20 ≤ o.progress → ∃ t, exec (.noProgressStall vd) s = .next t ∧ (t.owner vd).state = 2 ∧ (t.owner vd).reason = 5
        ∧ (∀ k f, s.flight k = some f → f.vd = vd → f.ended = false → ∃ h, t.flight k = some h ∧ h.halted = true)
        ∧ HostEvent.stall vd ∈ t.host ∧ ∀ w, w ≠ vd → t.owner w = s.owner w)
      ∧ (o.state ≠ 1 ∨ o.progress < 2 ^ 20 → exec (.noProgressStall vd) s = .next s))
    ∧ (∀ (s : State) (part slot : Nat), (s.part part).turn = some slot →
      let mine (vd : Nat) : Prop := ∃ o ∈ s.ownersOf part, o.slot = slot ∧ o.vd = vd
      let due := (s.part part).left = 0 ∨ ∀ o ∈ s.ownersOf part, o.slot = slot → o.state ≠ 1
      (¬due → exec (.sliceEnd part) s = .next s)
      ∧ (due → ∃ t, exec (.sliceEnd part) s = .next t ∧ t.part part = { s.part part with turn := none, lastTurn := slot }
        ∧ t = { s with parts := t.parts, flights := t.flights } ∧ (∀ q, q ≠ part → t.part q = s.part q)
        ∧ ∀ k f, s.flight k = some f →
          (mine f.vd → f.ended = false → ∃ h, t.flight k = some h ∧ h.halted = true ∧ h.em = f.em ∧ h.regs = f.regs
            ∧ h.pc = if f.chain.isOpen then f.chain.head else f.pc)
          ∧ (¬mine f.vd → t.flight k = some f)))
    ∧ ∀ (s : State) (part : Nat),
      let p := s.part part
      (p.active = false ∨ p.dead = true ∨ p.turn ≠ none ∨ s.nextOwner part = none → exec (.sliceStart part) s = .next s)
      ∧ ∀ o, p.active = true → p.dead = false → p.turn = none → s.nextOwner part = some o → s.spiltTeams o.vd = [] →
        (s.flights.map Flight.key).Nodup → (s.owners.map Owner.vd).Nodup →
        let slice := if 2 ^ 16 ≤ o.hostSlice ∧ o.hostSlice ≤ 2 ^ 26 then o.hostSlice else Config.defaultSlice
        let taken := s.putOwner { o with
          slice := slice, minw := o.hostMinw, maxw := o.hostMaxw, floor := max o.hostMinw (min o.floor o.hostMaxw) }
        let u := (s.takeHost o.vd).putPart { p with turn := some o.slot, left := slice }
        ∃ t, exec (.sliceStart part) s = .next t ∧ t.part part = { p with turn := some o.slot, left := slice }
          ∧ (∀ vd, t.owner vd = { taken.owner vd with floor := (t.owner vd).floor })
          ∧ (sumFloors (taken.startedOf part) ≤ 16 → ∀ vd, t.owner vd = taken.owner vd)
          ∧ (∀ q, q ≠ part → t.part q = s.part q)
          ∧ ∀ k f, s.flight k = some f →
            (f.vd = o.vd → f.halted = true → f.ended = false → u.mayRun f = true → ∃ h, t.flight k = some h
              ∧ h = { f.pend.foldl Flight.landOne f with
                pend := [], chain := Chain.closed, halted := false, lastIssue := none, waitCount := 0 })
            ∧ (f.vd ≠ o.vd ∨ f.halted = false ∨ f.ended = true ∨ u.mayRun f = false → t.flight k = some f))

/-- WAY_ALLOCATION (17 R376, R378): before the partition's count of LLC accesses reaches 2^20 nothing happens; then the count
drops by 2^20, every miss curve restarts, and each floor of an owner that has started lies between the host's floor and
ceiling. While the partition has way units to give, a move gives one to the owner below its ceiling that gains most by it, if
it gains; else it takes one from the owner above its floor that loses least, if less than another gains. Errors (17 R385,
R386). A correctable one is reported to the host alone. An uncorrectable one poisons or discards what it has hit, and each
owner of its blast set gets a record of it, or one more DROPPED where its log holds 16, and VDEVT bit 1. -/
def Obligations.WaysAndErrors : Prop :=
  ((∀ (s : State) (part : Nat), let p := s.part part
      (p.llcAccesses < 2 ^ 20 → exec (.wayAllocation part) s = .next s)
      ∧ (2 ^ 20 ≤ p.llcAccesses → (s.owners.map Owner.vd).Nodup → ∃ t, exec (.wayAllocation part) s = .next t
        ∧ t.part part = { p with llcAccesses := p.llcAccesses - 2 ^ 20 } ∧ t = { s with parts := t.parts, owners := t.owners }
        ∧ (∀ o ∈ s.ownersOf part, o.state ≠ 0 → ∃ n, t.owner o.vd
            = { o with minw := o.hostMinw, maxw := o.hostMaxw, misscurve := List.replicate 17 0, floor := n }
          ∧ (o.hostMinw ≤ o.hostMaxw → o.hostMinw ≤ n ∧ n ≤ o.hostMaxw))
        ∧ ∀ vd, (∀ o ∈ s.ownersOf part, o.vd = vd → o.state = 0) → t.owner vd = s.owner vd))
    ∧ ∀ os os' : List Owner, moveWay os = some os' →
      let up (o : Owner) := o.missAt o.floor - o.missAt (o.floor + 1)
      let down (o : Owner) := o.missAt (o.floor - 1) - o.missAt o.floor
      let give (v : Nat) (xs : List Owner) := xs.map fun x => if x.vd = v then { x with floor := x.floor + 1 } else x
      let take (v : Nat) (xs : List Owner) := xs.map fun x => if x.vd = v then { x with floor := x.floor - 1 } else x
      (sumFloors os < 16 → ∃ o ∈ os, o.floor < o.maxw ∧ 0 < up o ∧ (∀ x ∈ os, x.floor < x.maxw → up x ≤ up o) ∧ os' = give o.vd os)
      ∧ (16 ≤ sumFloors os → ∃ g ∈ os, ∃ r ∈ os, g.vd ≠ r.vd ∧ g.floor < g.maxw ∧ r.minw < r.floor ∧ down r < up g
        ∧ (∀ x ∈ os, x.minw < x.floor → down r ≤ down x) ∧ (∀ x ∈ os, x.vd ≠ r.vd → x.floor < x.maxw → up x ≤ up g)
        ∧ os' = give g.vd (take r.vd os)))
  ∧ ((∀ (s : State) (unit addr : Nat),
      exec (.correctableError unit addr) s = .next { s with host := s.host ++ [.error 0 unit addr] })
    ∧ ∀ (s : State) (e : ErrorSite),
      let r := s.strike e
      let k := errorKind e.struct
      let rec' : ErrorRec := ⟨errorCode e.struct, k, e.unit, if k = 1 then e.addr / 128 * 128 else 0⟩
      ∃ t, exec (.uncorrectableError e) s = .next t
        ∧ (∀ vd ∈ r.2, (t.owner vd).vdevt.getLsbD 1 = true
          ∧ ((r.1.owner vd).errors.length < 16 → (t.owner vd).errors = (r.1.owner vd).errors ++ [rec']
            ∧ (t.owner vd).errDropped = (r.1.owner vd).errDropped)
          ∧ (16 ≤ (r.1.owner vd).errors.length → (t.owner vd).errors = (r.1.owner vd).errors
            ∧ (t.owner vd).errDropped = (r.1.owner vd).errDropped + 1))
        ∧ (∀ vd, vd ∉ r.2 → t.owner vd = r.1.owner vd)
        ∧ t.host.getLast? = some (.error (errorCode e.struct) e.unit e.addr)
        ∧ t = { r.1 with owners := t.owners, host := t.host }
        ∧ (e.struct = .memory → (∀ i, i < e.len → e.addr + i ∈ t.poison)
          ∧ ∀ o ∈ s.owners, o.balustrade e.addr 1 ≠ none → o.vd ∈ r.2)
        ∧ (e.struct = .dispatcher → (t.part e.unit).dead = true ∧ ∀ o ∈ s.ownersOf e.unit, o.vd ∈ r.2)
        ∧ (e.struct = .l3Tlb → (∀ p ∈ t.l3tlb, p.1 ≠ e.unit) ∧ ∀ p ∈ s.l3tlb, p.1 = e.unit → p.2.vd ∈ r.2)
        ∧ (e.struct = .llcData → ∀ l, kget LlcLine.line (e.addr / 128) s.llc = some l → r.2 = [l.vd]
          ∧ (∃ m, kget LlcLine.line (e.addr / 128) t.llc = some m ∧ m.dirty = 0 ∧ m.bad = BitVec.allOnes 128 ∧ m.bytes = l.bytes)
          ∧ ∀ i, i < 128 → l.dirty.getLsbD i = true → 128 * (e.addr / 128) + i ∈ t.poison)
        ∧ (e.struct = .llcTag → (∀ l ∈ t.llc, setOf l.line ≠ (e.unit, e.addr))
          ∧ ∀ l ∈ s.llc, setOf l.line = (e.unit, e.addr) → l.vd ∈ r.2
            ∧ ∀ i, i < 128 → l.dirty.getLsbD i = true → 128 * l.line + i ∈ t.poison)
        ∧ (e.struct = .l2Data ∨ e.struct = .coreL1 → ∀ c ∈ s.lines,
          c.cache = (if e.struct = .l2Data then .l2 e.unit else .l1 e.unit) → c.line = e.addr / 128 →
          (∀ x ∈ s.lines, x.cache = c.cache → x.line = c.line → x = c) → r.2 = [c.vd]
            ∧ (∀ x ∈ t.lines, x.cache = c.cache → x.line = c.line → x.bad = BitVec.allOnes 128 ∧ x.dirty = 0 ∧ x.state ≠ .M)
            ∧ (c.state = .M → ∀ i, i < 128 → c.dirty.getLsbD i = true → 128 * c.line + i ∈ t.poison))
        ∧ (let names (p : Nat × TlbEntry) : Prop := p.1 = e.unit ∧ p.2.va ≤ e.addr ∧ e.addr < p.2.va + p.2.size
          (e.struct = .l1TlbEntry → r.2 = [] ∧ t.l2tlb = s.l2tlb ∧ (∀ p, p ∈ t.l1tlb ↔ p ∈ s.l1tlb ∧ ¬names p))
          ∧ (e.struct = .l2TlbEntry → r.2 = [] ∧ t.l1tlb = s.l1tlb ∧ (∀ p, p ∈ t.l2tlb ↔ p ∈ s.l2tlb ∧ ¬names p))))

/-- A doorbell write of QTAIL (19 R399): one that is not below 2^LOGN sets VDEVT.QERR and clears EN; else the device reads
packets from the ring up to it, while there is room for their entries. QCTL enables and disables a queue: when EN rises LOGN and
the rings are read, and the indices and the phase start again; a LOGN outside 4 to 12 sets QERR (R401). VDEVT_CLEAR clears the
bits written as 1 (R397). The packets of a queue (19 R398, R400): a LAUNCH or LAUNCHI whose address translates enters the
owner's launch queue at that physical address, to complete at the admission of its record; a SIGNAL takes one from its COUNT and
completes with 0x10. An address off its alignment completes with 0x23, one above 2^57 or whose walk fails with 0x21, another op
with 0x20. A completion entry holds TAG, the status and the phase, at the completion index, which moves on; the packet's vector
is signalled if it asked for it. -/
def Obligations.HostQueues : Prop :=
  ((∀ (s : State) (vd n v : Nat),
      let o := s.owner vd
      let h := o.queue n
      let qerr (t : State) : Prop := t.owner vd = { o with
          queues := listSet o.queues n { h with en := false }, vdevt := o.vdevt ||| 4
          pba := (t.owner vd).pba, dropInt := (t.owner vd).dropInt }
        ∧ t = { s with owners := t.owners, host := t.host } ∧ ∀ w, w ≠ vd → t.owner w = s.owner w
      (h.en = false ∨ o.state ≠ 1 ∨ 8 ≤ n → exec (.qtailDoorbell vd n v) s = .next s)
      ∧ (h.en = true → o.state = 1 → n < 8 → o.queues.length = 8 →
        (2 ^ h.elogn ≤ v → ∃ t, exec (.qtailDoorbell vd n v) s = .next t ∧ qerr t)
        ∧ (v < 2 ^ h.elogn → ∃ t, exec (.qtailDoorbell vd n v) s = .next t ∧ ((t.owner vd).queue n).qtail = v
          ∧ (h.qhead = v ∨ 2 ^ h.elogn ≤ h.entries + h.pending →
            t = s.putOwner { o with queues := listSet o.queues n { h with qtail := v } })
          ∧ let a := o.onPort (h.ring + 64 * h.qhead)
            let as := (List.range 64).map fun i => a + i
            let u := s.putOwner { o with queues := listSet o.queues n { h with qtail := v } }
            (h.qhead ≠ v → h.entries + h.pending < 2 ^ h.elogn → o.balustrade a 64 = none ∨ (∃ b ∈ as, s.badByte b = true) →
              (t.owner vd).vdevt.getLsbD 2 = true ∧ ((t.owner vd).queue n).en = false)
            ∧ (v = (h.qhead + 1) % 2 ^ h.elogn → h.qhead ≠ v → h.entries + h.pending < 2 ^ h.elogn → o.balustrade a 64 ≠ none →
              (∀ b ∈ as, s.badByte b = false) → u.devHold as (.sys (.packet n)) = none →
              (t.owner vd).queue n = { h with
                qtail := v, qhead := v, pending := h.pending + 1, packets := h.packets ++ [(u.sysBytes vd a 64).2] }))))
    ∧ (∀ (s : State) (vd n : Nat) (v : BitVec 32), n < 8 → (s.owner vd).queues.length = 8 →
      let o := s.owner vd
      let h := o.queue n
      let logn := v.toNat % 16
      let becomes (h' : HostQueue) : Prop :=
        exec (.qctlWrite vd n v) s = .next (s.putOwner { o with queues := listSet o.queues n h' })
      (v.getLsbD 8 = false → becomes { h with en := false, logn := logn })
      ∧ (v.getLsbD 8 = true → (h.en = true ∨ h.pending ≠ 0 → exec (.qctlWrite vd n v) s = .next s)
        ∧ (h.en = false → h.pending = 0 →
          (4 ≤ logn ∧ logn ≤ 12 → becomes { h with
            en := true, logn := logn, elogn := logn, qhead := 0, qtail := 0, cqhead := 0, cqwrite := 0, phase := true, entries := 0
            ring := h.qbase.toNat / 64 * 64, cring := h.cqbase.toNat / 16 * 16, packets := [] })
          ∧ (logn < 4 ∨ 12 < logn → ∃ t, exec (.qctlWrite vd n v) s = .next t ∧ (t.owner vd).vdevt.getLsbD 2 = true
            ∧ (t.owner vd).queue n = { h with logn := logn }))))
    ∧ ∀ (s : State) (vd : Nat) (v : BitVec 32), ∃ t, exec (.vdevtClear vd v) s = .next t
      ∧ t = s.putOwner { s.owner vd with vdevt := (t.owner vd).vdevt }
      ∧ ∀ b, b < 4 → ((t.owner vd).vdevt.getLsbD b = true ↔ (s.owner vd).vdevt.getLsbD b = true ∧ v.getLsbD b = false))
  ∧ (∀ (s : State) (vd n : Nat) (p : Packet), s.packet vd n = some p → s.devHold (s.ringBytes vd n) (.sys (.packet n)) = none →
      n < 8 → (s.owner vd).queues.length = 8 → (∀ w ∈ s.owners, ∀ e ∈ w.entries, e.owed = []) →
      let o := s.owner vd
      let h := o.queue n
      let asid := o.asid.toNat % 65536
      let at' := o.onPort (h.cring + 16 * h.cqwrite)
      /- The entry is written into memory as `u` holds it, and the packet leaves. -/
      let ends (u t : State) (status : Nat) : Prop :=
        (t.owner vd).queue n = { h with
          packets := h.packets.tail, cqwrite := (h.cqwrite + 1) % 2 ^ h.elogn, entries := h.entries + 1, pending := h.pending - 1
          phase := if h.cqwrite + 1 = 2 ^ h.elogn then !h.phase else h.phase }
        ∧ (let m := (u.dropPacket vd n).sysWrite vd (bytesAt at' (leBytes 4 p.tag ++ leBytes 4 status ++ leBytes 4 (if h.phase then 1 else 0) ++ leBytes 4 0))
          t.mem = m.mem ∧ t.lines = m.lines ∧ t.llc = m.llc)
        ∧ (p.signal = true → (o.state = 1 ∧ o.msixMask.getLsbD (1 + n) = false ∧ o.hvState = 0 →
          HostEvent.msix vd (1 + n) ∈ t.host) ∧ (o.msixMask.getLsbD (1 + n) = true → (t.owner vd).pba.getLsbD (1 + n) = true))
        ∧ t.grids = s.grids ∧ (t.owner vd).launchQ = o.launchQ
      let kinds : List (Instr × Nat × Nat × AccessKind) := [(.hostPacketLaunch vd n, 1, 64, .store), (.hostPacketLaunchi vd n, 2, 64, .store),
        (.hostPacketSignal vd n, 3, 8, .atomic)]
      (∀ i op align need, (i, op, align, need) ∈ kinds →
        (p.op ≠ op → exec i s = .next s)
        ∧ (p.op = op → o.balustrade at' 16 ≠ none →
          (p.addr % align ≠ 0 → ∃ t, exec i s = .next t ∧ ends s t 0x23)
          ∧ (p.addr % align = 0 → 2 ^ 57 ≤ p.addr → ∃ t, exec i s = .next t ∧ ends s t 0x21)
          ∧ (p.addr % align = 0 → p.addr < 2 ^ 57 → s.lookL3 vd asid p.addr need = .lacks → ∃ t, exec i s = .next t ∧ ends s t 0x21)
          ∧ ∀ e, p.addr % align = 0 → p.addr < 2 ^ 57 → s.lookL3 vd asid p.addr need = .hit e →
            let pa := e.phys p.addr
            (op ≠ 3 → ∃ t, exec i s = .next t ∧ ((t.owner vd).queue n) = { h with packets := h.packets.tail }
              ∧ (t.owner vd).launchQ
                = o.launchQ ++ [⟨s.nextKey, n, BitVec.ofNat 64 p.addr, pa, decide (op = 2), .host n p.tag p.signal⟩]
              ∧ t = { s with owners := t.owners, nextKey := s.nextKey + 1 })
            ∧ (op = 3 → s.devHold ((List.range 4).map fun i => pa + i) (.sys (.packet n)) = none →
              (let v := s.sysBytes vd pa 4
                ∃ t, exec i s = .next t ∧ ends (v.1.sysWrite vd (bytesAt pa (leBytes 4 (leNat v.2 + 0xFFFFFFFF)))) t 0x10))))
      ∧ (p.op < 1 ∨ 3 < p.op → o.balustrade at' 16 ≠ none → ∃ t, exec (.hostPacketBadOp vd n) s = .next t ∧ ends s t 0x20)
      ∧ (1 ≤ p.op → p.op ≤ 3 → exec (.hostPacketBadOp vd n) s = .next s))

/-- XFERREQ (19 R406, R407). A request while BUSY is 1 is ignored; one that names no entry sets ERR and raises VDEVT.XFER.
SPLIT makes 512 entries of 4 KiB with their region's ownership; MERGE joins them if they agree; a transfer to the side that
owns the entry ends at once, another begins, with BUSY 1; a request whose entries are in transfer, or owe an access its turn,
waits with BUSY 1, which is the model's choice (log 64). A transfer completes when the host has answered for every line: the
entry changes side, every line of it that the device holds goes to memory, XFERCNT counts it, and a request's BUSY clears. A
back- invalidate answer takes its line off the list. Accesses from outside (19 R396, R402, R405, R407, R411). A CXL.mem
request whose decoder targets no exposure reads zeros and drops writes; one to entries that are P is performed; one to an
entry that is A waits in it and begins its transfer. A BAR2 access is performed as a device access, or waits for a transfer;
on the port that VDCFG.PORT does not select it is an Unsupported Request (R395), and a physical-function access carries its
partition's pseudo-owner's tag (17 R373; how it is named is log 93). A snoop of a host line drops or cleans the whole device
line; there is neither snoop nor CXL.mem on a port in plain PCIe mode (R394). A block from a peer is performed where the
pairing counts and its pages translate, and refused otherwise. -/
def Obligations.ExposedMemory : Prop :=
  ((∀ (s : State) (vd off : Nat) (e : XferEntry),
      let o := s.owner vd
      let reqs : List (Instr × Nat) := [(.xferreqSplit vd off, 1), (.xferreqMerge vd off, 2), (.xferreqToP vd off, 3), (.xferreqToA vd off, 4)]
      let es := o.entries.filter fun x => x.offset / 2 ^ 21 = off / 2 ^ 21
      let stat (t : State) (busy isP split : Bool) : Prop := (t.owner vd).xferBusy = busy ∧ (t.owner vd).xferErr = false
        ∧ (t.owner vd).xferSplit = split ∧ (busy = false → (t.owner vd).xferP = isP) ∧ (t.owner vd).vdevt = o.vdevt
        ∧ ∀ w, w ≠ vd → t.owner w = s.owner w
      let fails (i : Instr) : Prop := ∃ t, exec i s = .next t ∧ (t.owner vd).xferErr = true ∧ (t.owner vd).xferBusy = false
        ∧ (t.owner vd).vdevt.getLsbD 3 = true ∧ (t.owner vd).entries = o.entries
      (∀ i op, (i, op) ∈ reqs → o.xferBusy = true → exec i s = .next s)
      ∧ (∀ i op, (i, op) ∈ reqs → o.xferBusy = false → o.entryAt off = none → fails i)
      ∧ (o.xferBusy = false → o.entryAt off = some e →
        let free (x : XferEntry) : Prop := x.transfer = none ∧ x.owed = []
        (∀ i op, (i, op) ∈ reqs → (∃ x, (x = e ∧ op ≠ 2 ∨ x ∈ es ∧ op = 2) ∧ ¬free x) → ∃ t, exec i s = .next t
          ∧ t.owner vd = { o with xferPend := some (op, off), xferBusy := true, xferErr := false }
          ∧ t = { s with owners := t.owners } ∧ ∀ w, w ≠ vd → t.owner w = s.owner w)
        ∧ (free e →
          let parts := (List.range 512).map fun i => { e with offset := e.offset + 4096 * i, len := 4096 }
          (e.len = 2 ^ 21 → ∃ t, exec (.xferreqSplit vd off) s = .next t ∧ stat t false e.isP true
            ∧ (t.owner vd).entries = o.entries.flatMap fun x => if x.offset = e.offset then parts else [x])
          ∧ (e.len ≠ 2 ^ 21 → ∃ t, exec (.xferreqSplit vd off) s = .next t ∧ stat t false e.isP true ∧ (t.owner vd).entries = o.entries)
          ∧ (e.len = 2 ^ 21 → (∀ x ∈ es, free x) → ∃ t, exec (.xferreqMerge vd off) s = .next t ∧ stat t false e.isP false ∧ (t.owner vd).entries = o.entries)
          ∧ (e.len ≠ 2 ^ 21 → (∀ x ∈ es, free x) → (∃ x ∈ es, x.isP ≠ e.isP) → fails (.xferreqMerge vd off))
          ∧ (e.len ≠ 2 ^ 21 → (∀ x ∈ es, free x ∧ x.isP = e.isP) → ∃ t m, exec (.xferreqMerge vd off) s = .next t
              ∧ stat t false e.isP false ∧ m.offset = off / 2 ^ 21 * 2 ^ 21 ∧ m.len = 2 ^ 21 ∧ m.isP = e.isP ∧ m.transfer = none
              ∧ (∀ w, w ∈ m.held ↔ ∃ x ∈ es, w ∈ x.held)
              ∧ (t.owner vd).entries = o.entries.flatMap fun x =>
                if x.offset / 2 ^ 21 ≠ off / 2 ^ 21 then [x] else if x.offset = off / 2 ^ 21 * 2 ^ 21 then [m] else [])
          ∧ ∀ i toP, (i, toP) ∈ [(Instr.xferreqToP vd off, true), (.xferreqToA vd off, false)] →
            (e.isP = toP → ∃ t, exec i s = .next t ∧ stat t false toP (decide (e.len ≠ 2 ^ 21)) ∧ (t.owner vd).entries = o.entries)
            ∧ (e.isP ≠ toP → ∃ t, exec i s = .next t ∧ stat t true toP (decide (e.len ≠ 2 ^ 21))
              ∧ kget XferEntry.offset e.offset (t.owner vd).entries = some { e with
                request := true, transfer := some (toP, if toP then [] else (List.range (e.len / 64)).map fun i => e.offset + 64 * i) }))))
    ∧ (∀ (s : State) (vd off : Nat) (e : XferEntry) (toP : Bool) (lines : List Nat), kget XferEntry.offset off (s.owner vd).entries = some e →
      e.transfer = some (toP, lines) →
      let o := s.owner vd
      let pages := if toP then o.entryLines e else []
      ((lines ≠ [] ∧ s.plain vd = false) ∨ (∃ ln ∈ pages, s.pinned ln = true) → exec (.xferComplete vd off) s = .next s)
      ∧ (lines = [] ∨ s.plain vd = true → (∀ ln ∈ pages, s.pinned ln = false) → e.held = [] → o.xferPend = none → o.state ≠ 1 ∨ (∀ h ∈ o.queues, h.en = false) →
        ∃ t, exec (.xferComplete vd off) s = .next t
          ∧ kget XferEntry.offset off (t.owner vd).entries = some { e with isP := toP, transfer := none, request := false }
          ∧ (t.owner vd).xferCnt = o.xferCnt + 1
          ∧ (e.request = true → (t.owner vd).xferBusy = false ∧ (t.owner vd).xferErr = false ∧ (t.owner vd).xferP = toP)
          ∧ (∀ ln ∈ pages, (∀ c ∈ t.lines, c.line ≠ ln) ∧ (∀ c ∈ t.llc, c.line ≠ ln) ∧ ∀ w ∈ t.wc, w.line ≠ ln)))
    ∧ ∀ (s : State) (vd off line : Nat) (dirty : Option (List Byte)) (e : XferEntry) (lines : List Nat),
      kget XferEntry.offset off (s.owner vd).entries = some e → e.transfer = some (false, lines) →
      (line ∉ lines → exec (.birspReceived vd off line dirty) s = .next s)
      ∧ (line ∈ lines → ∃ t, exec (.birspReceived vd off line dirty) s = .next t
        ∧ kget XferEntry.offset off (t.owner vd).entries = some { e with transfer := some (false, lines.filter (· ≠ line)) }
        ∧ (dirty = none → t.mem = s.mem ∧ t.lines = s.lines ∧ t.llc = s.llc)
        ∧ ∀ bs, dirty = some bs → memoryWf s = true → bs.length = 64 → ∀ i pa, i < 64 → rangesAt (s.owner vd).exposure (line + i) = some pa →
          s.mapped pa = true → (∀ j, j < 64 → j ≠ i → rangesAt (s.owner vd).exposure (line + j) ≠ some pa) → t.byte pa = bs.getD i 0))
  ∧ ((∀ (s : State) (d n : Nat) (acc : HostAccess),
      let w := s.hdmTgt.getD d 0
      let vd := w.toNat % 512
      let o := s.owner vd
      (s.mgmt.minimal = true ∨ (∀ b ∈ s.pcie, b = true) ∨ (w.getLsbD 31 = true ∧ s.pcie.getD o.port false = true) →
        exec (.hostCxlMemAccess d acc) s = .next s)
      ∧ (s.mgmt.minimal = false → (∃ b ∈ s.pcie, b = false) → (w.getLsbD 31 = true → s.pcie.getD o.port false = false) →
      (w.getLsbD 31 = false →
        (∀ off, exec (.hostCxlMemAccess d (.read off n)) s
          = .next { s with host := s.host ++ [.noTarget d, .readData vd (List.replicate n 0)] })
        ∧ ∀ off bs, exec (.hostCxlMemAccess d (.write off bs)) s = .next { s with host := s.host ++ [.noTarget d] })
      ∧ (w.getLsbD 31 = true → (∀ e ∈ o.entriesOf acc, e.isP = true ∧ e.transfer = none) →
        (∀ off, acc = .read off n → exec (.hostCxlMemAccess d acc) s = .next { s with host := s.host ++ [.readData vd
          ((List.range n).map fun i => match rangesAt o.exposure (off + i) with | some pa => s.byte pa | none => 0)] })
        ∧ ∀ off bs, acc = .write off bs → memoryWf s = true → ∃ t, exec (.hostCxlMemAccess d acc) s = .next t ∧ ∀ i pa, i < bs.length →
          rangesAt o.exposure (off + i) = some pa → s.mapped pa = true →
          (∀ j, i < j → j < bs.length → rangesAt o.exposure (off + j) ≠ some pa) → t.byte pa = bs.getD i 0)
      ∧ ∀ e es, w.getLsbD 31 = true → o.entriesOf acc = e :: es → e.isP = false → e.transfer = none → e.held = [] → e.owed = [] →
        exec (.hostCxlMemAccess d acc) s = .next (s.putEntry vd { e with held := [.host acc], transfer := some (true, []) })))
    ∧ (∀ (s : State) (port vd : Nat) (acc : HostAccess) (u : State),
      let o := s.owner vd
      let as := (o.exposed acc).filterMap id
      (384 ≤ vd → ∀ off bs, acc = .write off bs → exec (.bar2Access vd ⟨port, acc⟩) s
        = .next ((s.modOwner vd fun o => { o with part := vd - 384 }).sysWrite vd (bytesAt off bs)))
      ∧ (vd < 384 → s.mgmt.minimal = true → exec (.bar2Access vd ⟨port, acc⟩) s = .next s)
      ∧ (vd < 384 → s.mgmt.minimal = false → port ≠ o.port →
        exec (.bar2Access vd ⟨port, acc⟩) s = .next { s with host := s.host ++ [.unsupported port vd] })
      ∧ (vd < 384 → s.mgmt.minimal = false → port = o.port →
        (s.barWaits vd acc = true → exec (.bar2Access vd ⟨port, acc⟩) s = .next s)
        ∧ (s.barWaits vd acc = false → (s.devHold as (.bar2 acc) = some u → exec (.bar2Access vd ⟨port, acc⟩) s = .next u)
          ∧ (s.devHold as (.bar2 acc) = none →
            (∀ off bs, acc = .write off bs → exec (.bar2Access vd ⟨port, acc⟩) s = .next (s.sysWrite vd (o.exposedWrites acc)))
            ∧ ∀ off n, acc = .read off n → ∃ t bs, exec (.bar2Access vd ⟨port, acc⟩) s = .next t ∧ t.host.getLast? = some (.readData vd bs)
              ∧ bs.length = n ∧ ∀ i, i < n → rangesAt o.exposure (off + i) = none → bs.getD i 0 = 0))))
    ∧ (∀ (s : State) (ln : Nat),
      let plain := s.pcie.getD (if 128 * ln < 2 ^ 64 then 0 else 1) false
      (128 * ln < 2 ^ 51 ∨ s.pinned ln = true ∨ plain = true → ∀ b, exec (.hostSnoop ln b) s = .next s)
      ∧ (2 ^ 51 ≤ 128 * ln → s.pinned ln = false → plain = false → (∃ t, exec (.hostSnoop ln true) s = .next t ∧ (∀ c ∈ t.lines, c.line ≠ ln) ∧ ∀ c ∈ t.llc, c.line ≠ ln)
        ∧ ∃ t, exec (.hostSnoop ln false) s = .next t ∧ ∀ c ∈ t.lines, c.line = ln → c.state ≠ .M))
    ∧ ∀ (s : State) (b : PeerBlock),
      let o := s.owner b.vd
      let reply (t : State) (ok : Bool) : Prop := HostEvent.peerReply b.link b.vd ok ∈ t.host
      (s.peerPaired b = false ∨ o.state = 0 → ∃ t, exec (.peerBlockArrival b) s = .next t ∧ reply t false ∧ ∀ a, t.byte a = s.byte a)
      ∧ (s.peerPaired b = true → o.state ≠ 0 → ∀ e, b.bytes ≠ [] → b.va.toNat % 4096 + b.bytes.length ≤ 4096 → b.va.toNat < 2 ^ 57 →
        let page := b.va.toNat / 4096 * 4096
        (s.lookL3 b.vd (o.asid.toNat % 65536) page .copyWrite = .lacks →
          ∃ t, exec (.peerBlockArrival b) s = .next t ∧ reply t false ∧ ∀ a, t.byte a = s.byte a)
        ∧ (s.lookL3 b.vd (o.asid.toNat % 65536) page .copyWrite = .hit e →
          let ws := (List.range b.bytes.length).map fun i => (e.phys page + b.va.toNat % 4096 + i, b.bytes.getD i 0)
          (∀ w ∈ ws, s.pinned (w.1 / 128) = false) → s.devHold (ws.map Prod.fst) (.sys (.peer b)) = none →
          ∃ t, exec (.peerBlockArrival b) s = .next t ∧ reply t true
            ∧ (let m := s.sysWrite b.vd ws; t.mem = m.mem ∧ t.lines = m.lines ∧ t.llc = m.llc))))

/-- OPCTL (19 R403). A command while OPSTAT.BUSY is 1, or in a state that R403 does not accept it in, is refused with result 1
and has no other effect. STALL stalls a running owner with HOST (15 R351); RESUME lets an owner stalled for a reason of R350 run
again, its progress count at 0 (15 R352); PAUSE halts it, STATE 3, BUSY until its work has drained; UNPAUSE lets it run again
(19 R410). VDCTL START (15 R331 to R333): of a stopped, enabled owner of an active partition whose header passes the checks, the
registers are loaded from the header, the counters are 0, and the four service flights are placed at WENTRY and FENTRY in owner
mode; where a check fails the owner stalls with VESTIBULE. RESET and a function-level reset end all its work, with STATE 4 and
BUSY 1 until the reset is done, when STATE is 0 and what the host wrote meanwhile stands (19 R402, R403; when it is done is the
schedule's, log 63). -/
def Obligations.OwnersStartAndStop : Prop :=
  ((∀ (s : State) (vd : Nat),
      let o := s.owner vd
      let busy := o.opBusy = true ∨ o.balDropping ≠ none
      let paused := s.copyPaused vd = true
      let refuses (i : Instr) : Prop := exec i s = .next (s.putOwner { o with opResult := 1 })
      let halted (t : State) : Prop := ∀ k f, s.flight k = some f → f.vd = vd → f.ended = false → ∃ h, t.flight k = some h ∧ h.halted = true
      let others (t : State) : Prop := ∀ w, w ≠ vd → t.owner w = s.owner w
      (busy ∨ o.state ≠ 1 → refuses (.opctlStall vd))
      ∧ (¬busy → o.state = 1 → ∃ t, exec (.opctlStall vd) s = .next t ∧ (t.owner vd).state = 2 ∧ (t.owner vd).reason = 7
        ∧ (t.owner vd).opResult = 0 ∧ halted t ∧ HostEvent.stall vd ∈ t.host ∧ others t)
      ∧ (busy ∨ o.state ≠ 2 ∨ (o.reason ≠ 5 ∧ o.reason ≠ 7 ∧ o.reason < 0x80) → refuses (.opctlResume vd))
      ∧ (busy ∨ o.state ≠ 1 ∨ paused → refuses (.opctlPause vd))
      ∧ (¬busy → o.state = 1 → ¬paused → ∃ t, exec (.opctlPause vd) s = .next t ∧ (t.owner vd).state = 3 ∧ (t.owner vd).opBusy = true
        ∧ halted t ∧ HostEvent.stall vd ∈ t.host ∧ others t)
      ∧ (busy ∨ o.state ≠ 3 → refuses (.opctlUnpause vd))
      ∧ (∀ i, (i = .opctlResume vd ∧ o.state = 2 ∧ (o.reason = 5 ∨ o.reason = 7 ∨ 0x80 ≤ o.reason)) ∨ (i = .opctlUnpause vd ∧ o.state = 3) →
        ¬busy → (∀ h ∈ o.queues, h.en = false) → (s.flights.map Flight.key).Nodup → ∃ t, exec i s = .next t ∧ (t.owner vd).state = 1
          ∧ (t.owner vd).reason = 0 ∧ (t.owner vd).progress = 0 ∧ (t.owner vd).opResult = 0 ∧ others t
          ∧ ∀ k f, s.flight k = some f → f.vd = vd → f.halted = true → f.ended = false →
            (s.putOwner { o with state := 1 }).mayRun f = true → ∃ h, t.flight k = some h
              ∧ h = { f.pend.foldl Flight.landOne f with
                pend := [], chain := Chain.closed, halted := false, lastIssue := none, waitCount := 0 })
      ∧ (o.state = 3 → o.opBusy = true → (s.ownerDrained vd = false → exec (.pauseDrained vd) s = .next s)
        ∧ (s.ownerDrained vd = true → o.balWaiting = [] → exec (.pauseDrained vd) s = .next (s.putOwner { o with opBusy := false })))
      ∧ (o.state ≠ 3 ∨ o.opBusy = false → exec (.pauseDrained vd) s = .next s)))
  ∧ ((∀ (s : State) (vd : Nat),
      let o := s.owner vd
      let may := o.opBusy = false ∧ o.balDropping = none ∧ o.state = 0 ∧ o.enable = true ∧ (s.part o.part).active = true
      (¬may → exec (.vdctlStart vd) s = .next (s.putOwner { o with opResult := 1 }))
      ∧ (may → s.headerOk vd = false → ∃ t, exec (.vdctlStart vd) s = .next t ∧ (t.owner vd).state = 2 ∧ (t.owner vd).reason = 6
        ∧ t.flights.length = s.flights.length)
      ∧ (may → s.headerOk vd = true →
        let n (off k : Nat) : Nat := s.vestNat vd off k
        let at' (off : Nat) : DWord := o.vbase + BitVec.ofNat 64 (n off 8)
        ∃ t, exec (.vdctlStart vd) s = .next t
          ∧ (let p := t.owner vd
            p.state = 1 ∧ p.reason = 0 ∧ p.progress = 0 ∧ p.tvec = at' 0x18 ∧ p.wq = at' 0x20 ∧ p.fq = at' 0x28 ∧ p.fpool = at' 0x30
            ∧ p.tree = at' 0x38 ∧ p.asid = BitVec.ofNat 32 (n 0x40 4 % 65536) ∧ p.sbuf = BitVec.ofNat 64 (n 0x48 8) ∧ p.frames = []
            ∧ p.vbase = o.vbase ∧ p.vlimit = o.vlimit ∧ p.bal = o.bal)
          ∧ (Coherent s → ∀ i, i < 4 → ∃ f, t.flight (s.nextKey + i) = some f ∧ f.role = (if i = 0 then .walk else .fault (i - 1)) ∧ f.vd = vd
            ∧ f.pc = at' (if i = 0 then 0x08 else 0x10) &&& pcMask ∧ f.em = 1 ∧ f.regs = [] ∧ f.classMap = s.serviceMap vd
            ∧ (∀ j, f.flags.getD j 0 = 0) ∧ coreOfQuad f.quad = f.core)))
    ∧ ∀ (s : State) (vd : Nat) (i : Instr),
      let o := s.owner vd
      ((o.opBusy = true ∨ o.balDropping ≠ none ∨ 4 ≤ o.state) → exec (.opctlReset vd) s = .next (s.putOwner { o with opResult := 1 }))
      ∧ ((i = .opctlReset vd ∧ o.opBusy = false ∧ o.balDropping = none ∧ o.state < 4) ∨ i = .functionLevelReset vd →
        ∃ t, exec i s = .next t ∧ (t.owner vd).state = 4 ∧ (t.owner vd).opBusy = true ∧ (t.owner vd).reason = 0 ∧ (t.owner vd).pba = 0
          ∧ (∀ f ∈ t.flights, f.vd ≠ vd) ∧ (∀ u ∈ t.teams, u.vd ≠ vd) ∧ (∀ g ∈ t.grids, g.vd ≠ vd)
          ∧ (∀ e, e ∈ t.l1tlb ∨ e ∈ t.l2tlb ∨ e ∈ t.l3tlb → e.2.vd ≠ vd) ∧ (∀ w ∈ t.wc, w.vd ≠ vd)
          ∧ (∀ c ∈ t.lines, c.vd = vd → c.state ≠ .M) ∧ (∀ h ∈ (t.owner vd).queues, h.en = false)
          ∧ (∀ k, (t.owner vd).counters.getD k 0 = 0) ∧ (t.owner vd).launchQ = [] ∧ (t.owner vd).walks = [] ∧ (t.owner vd).faultRing = []
          ∧ (t.owner vd).vbase = o.vbase ∧ (t.owner vd).expose = o.expose ∧ (t.owner vd).msixMask = o.msixMask
          ∧ (t.owner vd).vdevt = o.vdevt
          ∧ ∀ f ∈ s.flights, f.vd ≠ vd → f ∈ t.flights)
      ∧ ∀ rest, s.agenda = .resetDone vd :: rest →
        let u : State := { s with agenda := rest }
        let c := o.hostCfg
        (o.state ≠ 4 → step s = .next u)
        ∧ (o.state = 4 → o.balWaiting = [] → o.vd = vd → step s = .next (u.putOwner { o with
          part := c.part, slot := c.slot, port := c.port, enable := c.enable, vbase := c.vbase, vlimit := c.vlimit
          spillBase := c.spillBase, spillStride := c.spillStride, expose := c.expose, state := 0, opBusy := false })))

/-- A balustrade write drops every translation of the owner, marks its requests stale and takes effect; BUSY is 1 until what
had translated through a dropped entry has completed, and later writes wait for that (19 R404). One that would give an owner
memory outside its partition's is dropped (21 R425). Interrupts (R409): a write of HVSTATE turns delivery off or on, unmasking
a vector lets it deliver, and what is pending, unmasked and delivered is sent. SAVE writes a paused owner's image at MIGADDR,
with MIGSIZE its length: the magic, the version, the number of contexts, which are its teams' and its service flights', the
size, the owner's registers and the balustrade are stated here. LOAD takes an image whose VBASE, VLIMIT, exposure and
balustrade are the owner's own and leaves the owner paused with the image's registers and counters, and refuses any other (19
R410). -/
def Obligations.BalustradeInterruptsMigration : Prop :=
  ((∀ (s : State) (vd n : Nat) (v : DWord),
      let o := s.owner vd
      let busy := o.opBusy = true ∨ o.balDropping ≠ none
      (64 ≤ n ∨ s.balMay vd v = false → exec (.balWrite vd n v) s = .next s)
      ∧ (n < 64 → s.balMay vd v = true →
        (busy → exec (.balWrite vd n v) s = .next (s.putOwner { o with balWaiting := o.balWaiting ++ [(n, v)] }))
        ∧ (¬busy → ∃ t ks, exec (.balWrite vd n v) s = .next t
          ∧ t.owner vd = { o with
            bal := listSet o.bal n (v &&& ~~~(12 : DWord)), balDropping := some ks, walks := o.walks.map fun r => { r with stale := true } }
          ∧ (∀ e, e ∈ t.l1tlb ++ t.l2tlb ++ t.l3tlb → e.2.vd ≠ vd)
          ∧ (∀ e, e.2.vd ≠ vd → (e ∈ t.l1tlb ↔ e ∈ s.l1tlb) ∧ (e ∈ t.l2tlb ↔ e ∈ s.l2tlb) ∧ (e ∈ t.l3tlb ↔ e ∈ s.l3tlb))
          ∧ t = { s with l1tlb := t.l1tlb, l2tlb := t.l2tlb, l3tlb := t.l3tlb, owners := t.owners }))
      ∧ (o.balDropping = none → exec (.balDropDone vd) s = .next s)
      ∧ ∀ ks, o.balDropping = some ks → (s.allDone ks = false → exec (.balDropDone vd) s = .next s)
        ∧ (s.allDone ks = true → o.balWaiting = [] → exec (.balDropDone vd) s = .next (s.putOwner { o with balDropping := none })))
    ∧ ∀ (s : State) (vd v : Nat) (value : BitVec 32), v < 16 →
      let o := s.owner vd
      let sends (t : State) (hv : Nat) (mask : BitVec 16) : Prop :=
        let now (u : Nat) : Prop := o.pba.getLsbD u = true ∧ mask.getLsbD u = false ∧ hv = 0 ∧ o.state < 3
        t.owner vd = { o with pba := (t.owner vd).pba, hvState := hv, msixMask := mask, msixTable := (t.owner vd).msixTable }
        ∧ ∀ u, u < 16 → (now u → HostEvent.msix vd u ∈ t.host ∧ (t.owner vd).pba.getLsbD u = false)
          ∧ (¬now u → (t.owner vd).pba.getLsbD u = o.pba.getLsbD u)
      (∃ t, exec (.hvstateWrite vd value) s = .next t ∧ sends t (value.toNat % 4) o.msixMask
        ∧ (t.owner vd).msixTable = o.msixTable)
      ∧ ∃ t, exec (.msixVectorUnmask vd v) s = .next t ∧ sends t o.hvState (o.msixMask &&& ~~~(BitVec.ofNat 16 (2 ^ v)))
        ∧ (t.owner vd).msixTable = listSet o.msixTable (16 * v + 12) (o.msixTable.getD (16 * v + 12) 0 &&& 0xFE))
  ∧ ((∀ (s : State) (vd : Nat),
      let o := s.owner vd
      let base := o.onPort o.migAddr.toNat
      let size := ((s.liveTeams vd).map s.ctxSize ++ (s.serviceFlights vd).map serviceSize).foldl
        (fun a n => a + (n + 4095) / 4096 * 4096) 0x1000
      let busy := o.opBusy = true ∨ o.balDropping ≠ none
      (busy ∨ o.state ≠ 3 → exec (.opctlSave vd) s = .next (s.putOwner { o with opResult := 1 }))
      ∧ (¬busy → o.state = 3 → (∀ u ∈ s.liveTeams vd, s.teamAccesses u.key = []) →
        memoryWf s = true → (∀ i, i < 0x1000 → s.mapped (base + i) = true) → ∃ t, exec (.opctlSave vd) s = .next t
          ∧ (t.owner vd).migSize = BitVec.ofNat 64 size ∧ (t.owner vd).state = 3 ∧ (t.owner vd).opResult = 0
          ∧ leNat ((List.range 2).map fun i => t.byte (base + i)) = 0x4D56 ∧ leNat ((List.range 2).map fun i => t.byte (base + 2 + i)) = 1
          ∧ leNat ((List.range 4).map fun i => t.byte (base + 4 + i)) = ((s.liveTeams vd).length + (s.serviceFlights vd).length) % 2 ^ 32
          ∧ leNat ((List.range 8).map fun i => t.byte (base + 8 + i)) = size % 2 ^ 64
          ∧ (∀ j r, (j, r) ∈ [(0, o.vbase), (1, o.vlimit), (2, o.tvec), (3, o.wq), (4, o.fq), (5, o.fpool), (6, o.tree), (7, o.asid.setWidth 64), (15, o.sbuf)] →
            leNat ((List.range 8).map fun i => t.byte (base + 0x40 + 8 * j + i)) = r.toNat)
          ∧ ∀ j, j < 64 → o.bal.length = 64 → o.expose.length = 4 → o.pairs.length = 12 →
            leNat ((List.range 8).map fun i => t.byte (base + 0x2C0 + 8 * j + i)) = (o.bal.getD j 0).toNat))
    ∧ ∀ (s : State) (vd : Nat),
      let o := s.owner vd
      let base := o.onPort o.migAddr.toNat
      let word (off k : Nat) : Nat := leNat (s.image base off k)
      (o.opBusy = true ∨ o.balDropping ≠ none ∨ o.state ≠ 0 ∨ s.imageOk o base = false →
        exec (.opctlLoad vd) s = .next (s.putOwner { o with opResult := 1 }))
      ∧ (o.opBusy = false → o.balDropping = none → o.state = 0 → o.expose.length = 4 → o.pairs.length = 12 → o.bal.length = 64 →
        word 0 2 = 0x4D56 → word 2 2 = 1 → s.image base 0x0C8 16 = leBytes 8 o.vbase.toNat ++ leBytes 8 o.vlimit.toNat →
        s.image base 0x140 64 = (o.expose.flatMap fun e => leBytes 8 e.1.toNat ++ leBytes 8 e.2.toNat) →
        s.image base 0x2C0 512 = (o.bal.flatMap fun e => leBytes 8 e.toNat) → ∃ t, exec (.opctlLoad vd) s = .next t
        ∧ (let p := t.owner vd
          p.state = 3 ∧ p.reason = 0 ∧ p.opResult = 0 ∧ p.vbase = o.vbase ∧ p.bal = o.bal
          ∧ p.tvec = BitVec.ofNat 64 (word 0x50 8) ∧ p.wq = BitVec.ofNat 64 (word 0x58 8) ∧ p.fq = BitVec.ofNat 64 (word 0x60 8)
          ∧ p.fpool = BitVec.ofNat 64 (word 0x68 8) ∧ p.tree = BitVec.ofNat 64 (word 0x70 8) ∧ p.sbuf = BitVec.ofNat 64 (word 0xB8 8)
          ∧ ∀ k, k < 25 → p.counters.getD k 0 = BitVec.ofNat 64 (word (0x5C8 + 8 * k) 8))
        ∧ (kget Migration.addr base s.saved = none → ∀ r ∈ serviceRoles, ∃ f ∈ t.flights, f.role = r ∧ f.vd = vd ∧ f.halted = true)))

/-- A package reset, by MGMT.RESET, the watchdog at its expiry or after its last millisecond, or power (21 R415, R419, R423,
R427): no partition is active, every owner is stopped, nothing is resident, ARCID is 0, the measurements are zero; RSTREQ
holds the request, or after the watchdog what it held; the flash and the fuses keep their contents. A thermal trip removes
power and sets BOOTSTAT[3]. PACKAGE_START runs the first stage once (21 R417 to R420): the ROM is measured, RSTREQ is read
and cleared; a request for minimal mode ends in it with reason 7, three failed starts with reason 1, a failing flash write
with reason 5, two refused slots with slot B's reason; an image whose header, version and signature pass is measured and
entered at 0x1000_0100 with the watchdog at 2,000 ms. -/
def Obligations.PackageStarts : Prop :=
  (∀ (s : State),
      let m := s.mgmt
      let resets (i : Instr) (req : Word) (trip : Bool) : Prop := ∃ t, exec i s = .next t
        ∧ (∀ p, (t.part p).active = false) ∧ (∀ vd, t.owner vd = Owner.reset vd) ∧ t.flights = [] ∧ t.teams = [] ∧ t.grids = []
        ∧ t.lines = [] ∧ t.llc = [] ∧ t.l1tlb = [] ∧ t.l2tlb = [] ∧ t.l3tlb = []
        ∧ t.mgmt.rstreq = req ∧ t.mgmt.arcid = 0 ∧ t.mgmt.minimal = false ∧ t.mgmt.bootok = false ∧ t.mgmt.wdog = 0 ∧ t.mgmt.bootReason = 0
        ∧ t.mgmt.mtvec = 0 ∧ t.mgmt.halted = false ∧ t.mgmt.started = false ∧ (∀ k, k < 8 → t.mgmt.meas.getD k [] = List.replicate 32 0)
        ∧ t.mgmt.flash = m.flash ∧ t.mgmt.fuseKey = m.fuseKey ∧ t.mgmt.revoke = m.revoke ∧ t.mgmt.minver = m.minver
        ∧ t.mgmt.rom = m.rom ∧ t.mgmt.trip = trip
      resets .mgmtResetPlain 1 false ∧ resets .mgmtResetMinimal 2 false ∧ resets .mgmtResetRetry 3 false
      ∧ (∀ rest w, s.agenda = .millisecond w :: rest → m.wdog = 1 →
        step s = exec .watchdogExpiry { s with agenda := rest, mgmt := { m with power := w } })
      ∧ (m.wdog ≠ 0 → resets .watchdogExpiry m.rstreq false) ∧ (m.wdog = 0 → exec .watchdogExpiry s = .next s)
      ∧ resets .powerLoss 0 false
      ∧ ∀ g, let hot := 110 ≤ m.temp.getD g 0 ∧ ∀ p ∈ s.parts, p.inGallery g = true → p.mhz = 350
        (hot → resets (.thermalTrip g) 0 true) ∧ (¬hot → exec (.thermalTrip g) s = .next s))
  ∧ ((∀ s : State,
      let m := s.mgmt
      let count := m.flashWord 0
      let bad := Config.freeBit s.free 41
      let minimal (reason : Nat) : Prop := ∃ t, exec .packageStart s = .next t ∧ t.mgmt.minimal = true ∧ t.mgmt.started = true
        ∧ t.mgmt.bootReason = BitVec.ofNat 32 reason ∧ t.mgmt.rstreq = 0 ∧ t.mgmt.rxlen = 0
        ∧ t = { s with mgmt := t.mgmt, free := t.free }
      (m.started = true → exec .packageStart s = .next s)
      ∧ (m.started = false →
        (m.rstreq = 2 → minimal 7)
        ∧ (m.rstreq ≠ 2 → m.rstreq ≠ 3 → 3 ≤ count → minimal 1)
        ∧ (m.rstreq ≠ 2 → m.rstreq = 3 ∨ count < 3 → (bad = true → minimal 5)
          ∧ (bad = false → m.flash.wf = true →
            let n := if m.rstreq = 3 then 0 else count
            let first := { m.measure 0 (sha256 (m.rom.read 0 0x10000)) with
              rstreq := 0, started := true, powered := true, flcAddr := 0, flcData := BitVec.ofNat 32 (n + 1), flcErr := false
              flash := m.flash.puts (bytesAt 0 (leBytes 4 (n + 1))) }
            let a := first.trySlot 0x10000
            let b := a.2.trySlot 0x100000
            let enters (q : Mgmt) : Prop := ∃ t, exec .packageStart s = .next t ∧ t.mgmt.minimal = m.minimal ∧ t.mgmt.bootReason = 0
              ∧ t.mgmt.started = true ∧ t.mgmt.wdog = 2000 ∧ t.mgmt.pc = 0x10000100 ∧ t.mgmt.sram = q.sram ∧ t.mgmt.meas = q.meas
              ∧ t.mgmt.flashWord 0 = n + 1 ∧ t.mgmt.rxlen = 0 ∧ t.mgmt.rstreq = 0
            (a.1 = 0 → enters a.2) ∧ (a.1 ≠ 0 → b.1 = 0 → enters b.2) ∧ (a.1 ≠ 0 → b.1 ≠ 0 → minimal b.1)))))
    ∧ ∀ (m : Mgmt) (slot : Nat),
      let word (o : Nat) : Nat := m.flashWord (slot + o)
      let size := word 8
      let header := word 0 = 0x31465843 ∧ size % 8 = 0 ∧ 8 ≤ size ∧ size ≤ 0x6FF00
      let img := m.flash.read slot (0x100 + size)
      let key := m.flash.read (slot + 0x100 + size) 384
      let sig := m.flash.read (slot + 0x280 + size) 384
      let k := word 12
      let good := k ≤ 3 ∧ m.revoke.getLsbD k = false ∧ sha256 key = m.fuseKey.getD k [] ∧ rsaVerify key sig (sha256 img) = true
      (¬header → (m.trySlot slot).1 = 3)
      ∧ (header → word 4 < m.minver.toNat → (m.trySlot slot).1 = 6)
      ∧ (header → m.minver.toNat ≤ word 4 → slot + 0x400 + size ≤ 0x4000000 →
        (¬good → (m.trySlot slot).1 = 2)
        ∧ (good → m.sram.wf = true → (m.trySlot slot).1 = 0
          ∧ (∀ i, i < 0x100 + size → (m.trySlot slot).2.sram.get i = m.flash.get (slot + i))
          ∧ (m.trySlot slot).2.meas = listSet m.meas 1 (sha256 (m.meas.getD 1 [] ++ sha256 img)))))

/-- The management core's blocks (21 R415 to R418, R421, R422, R430). The accelerator starts an operation unless BUSY and ends
it: HASH, VERIFY and EXTEND as R416 has them. The flash controller writes a word. DOE takes a request when none is pending,
answers in minimal mode, sends and releases. The control registers take the values that R415 allows, and a millisecond
lowers WDOG by one and sets MGMT.PWR (R423). An exception traps to mtvec, or halts the core where it is 0. -/
def Obligations.ManagementBlocks : Prop :=
  ∀ (s : State),
    let m := s.mgmt
    let becomes (i : Instr) (m' : Mgmt) : Prop := exec i s = .next { s with mgmt := m' }
    (∀ i op, (i, op) ∈ [(Instr.hsaHash, HsaOp.hash), (.hsaVerify, .verify), (.hsaExtend, .extend)] →
      (m.hsaBusy = .none → becomes i { m with hsaBusy := op }) ∧ (m.hsaBusy ≠ .none → exec i s = .next s))
    ∧ (m.hsaBusy = .none → exec .hsaOpDone s = .next s)
    ∧ (m.hsaBusy = .hash → ∀ bs, m.range m.hsaSrc.toNat m.hsaLen.toNat = some bs →
      becomes .hsaOpDone { m with dig := sha256 bs, hsaErr := 0, hsaBusy := .none })
    ∧ (m.hsaBusy = .hash → m.range m.hsaSrc.toNat m.hsaLen.toNat = none → ∃ t, exec .hsaOpDone s = .next t
      ∧ t.mgmt = { m with dig := t.mgmt.dig, hsaErr := 2, hsaBusy := .none })
    ∧ (m.hsaBusy = .verify →
      let k := m.hsaIdx.toNat
      (3 < k → becomes .hsaOpDone { m with hsaPass := false, hsaErr := 1, hsaBusy := .none })
      ∧ (k ≤ 3 → ∀ key sig, m.range m.hsaKey.toNat 384 = some key → m.range m.hsaSrc.toNat 384 = some sig →
        becomes .hsaOpDone { m with
          hsaErr := 0, hsaBusy := .none
          hsaPass := decide (m.revoke.getLsbD k = false ∧ sha256 key = m.fuseKey.getD k [] ∧ rsaVerify key sig m.dig = true) }))
    ∧ (m.hsaBusy = .extend →
      (m.hsaIdx.toNat ≤ 7 → becomes .hsaOpDone { m with
        meas := listSet m.meas m.hsaIdx.toNat (sha256 (m.meas.getD m.hsaIdx.toNat [] ++ m.dig)), hsaErr := 0, hsaBusy := .none })
      ∧ (7 < m.hsaIdx.toNat → becomes .hsaOpDone { m with hsaErr := 1, hsaBusy := .none }))
    ∧ (∀ i, i = .flcWriteWord ∨ (i = .mgmtFlcWriteWord ∧ m.minimal = true) → becomes i { m with flcBusy := true })
    ∧ (m.minimal = false → exec .mgmtFlcWriteWord s = .next s)
    ∧ (∀ ok, m.flcBusy = false → exec (.flcWriteDone ok) s = .next s)
    ∧ (let a := m.flcAddr.toNat / 4 * 4
      m.flcBusy = true → m.flash.wf = true → a + 4 ≤ 0x4000000 → (∀ ok, ∃ t, exec (.flcWriteDone ok) s = .next t
        ∧ t.mgmt = { m with flash := t.mgmt.flash, flcBusy := false, flcErr := !ok }
        ∧ (∀ b, b / 4 ≠ a / 4 → t.mgmt.flash.get b = m.flash.get b) ∧ (ok = true → t.mgmt.flashWord a = m.flcData.toNat)))
    ∧ (∀ bytes, (bytes = [] ∨ 1024 < bytes.length ∨ m.rxlen ≠ 0 → exec (.doeRequest bytes) s = .next s)
      ∧ (bytes ≠ [] → bytes.length ≤ 1024 → m.rxlen = 0 → m.powered = true →
        let w : Mgmt := { m with rx := bytes ++ m.rx.drop bytes.length, rxlen := BitVec.ofNat 32 bytes.length }
        (m.minimal = false ∨ m.started = false ∨ m.halted = true → becomes (.doeRequest bytes) w)
        ∧ (m.minimal = true → m.started = true → m.halted = false → ∃ t a, exec (.doeRequest bytes) s = .next t
          ∧ t.mgmt.sent = m.sent ++ [a] ∧ t.mgmt.rxlen = 0
          ∧ (∀ n rest p, bytes = 0x13 :: 0xE0 :: p :: BitVec.ofNat 8 n :: rest → p.getLsbD 0 = false → 1 ≤ n → n ≤ 8 →
            (m.meas.getD (n - 1) []).length = 32 →
            a = [0x13, 0x60, 0, 0, 1, 39, 0, 0, BitVec.ofNat 8 n, 1, 35, 0]
              ++ [if n = 1 then 0 else if n = 3 then 3 else if n = 4 then 2 else 1] ++ [32, 0]
              ++ m.meas.getD (n - 1) [] ++ List.replicate 34 0)
          ∧ (∀ c x rest, bytes = c :: x :: rest → c ≠ 0x13 ∨ x ≠ 0xE0 ∨ rest.length < 2 → a = [0x13, 0x7F, 0x07, x]))))
    ∧ (∀ len, ∃ t, exec (.doeTxSend len) s = .next t ∧ t.mgmt.sent = m.sent ++ [(List.range (min len.toNat 1024)).map fun i => m.tx.getD i 0]
      ∧ t = { s with mgmt := { m with sent := t.mgmt.sent } })
    ∧ becomes (.doeRxRelease 0) { m with rxlen := 0 } ∧ (∀ v, v ≠ 0 → exec (.doeRxRelease v) s = .next s)
    ∧ (∀ v : BitVec 32, (1 ≤ v.toNat ∧ v.toNat ≤ 65535 → becomes (.wdogWrite v) { m with wdog := v.toNat })
      ∧ (v = 0 ∨ 65535 < v.toNat → exec (.wdogWrite v) s = .next s))
    ∧ (∀ rest w, s.agenda = .millisecond w :: rest → m.wdog ≠ 1 →
      step s = .next { s with agenda := rest, mgmt := { m with power := w, wdog := m.wdog - 1 } })
    ∧ becomes (.bootokWrite 1) { m with bootok := true, wdog := 0 } ∧ (∀ v, v ≠ 1 → exec (.bootokWrite v) s = .next s)
    ∧ becomes (.minimalWrite 1) { m with minimal := true } ∧ (∀ v, v ≠ 1 → exec (.minimalWrite v) s = .next s)
    ∧ becomes (.rstreqClear 0) { m with rstreq := 0 } ∧ (∀ v, v ≠ 0 → exec (.rstreqClear v) s = .next s)
    ∧ ∀ cause epc tval, (m.halted = true → exec (.mgmtException cause epc tval) s = .next s)
      ∧ (m.halted = false → ∃ t, exec (.mgmtException cause epc tval) s = .next t ∧ t.mgmt.mepc = epc ∧ t.mgmt.mcause = cause
        ∧ t.mgmt.mtval = tval ∧ t.mgmt.mstatus.getLsbD 3 = false ∧ t.mgmt.mstatus.getLsbD 7 = m.mstatus.getLsbD 3
        ∧ (m.mtvec = 0 → t.mgmt.halted = true ∧ t.mgmt.pc = m.pc)
        ∧ (m.mtvec ≠ 0 → t.mgmt.halted = false ∧ t.mgmt.pc = m.mtvec &&& ~~~(3 : DWord)))

/-- APPLY checks a partition's block in the order of 21 R424, writes the first failing code, or 0 and takes the resources, and
the second stage then extends MEAS.3 by the blocks' digest; TEARDOWN is refused with 2 while an owner that names the partition
has not stopped, and else frees them. A link trains unless both ends present one identity (19 R411); a link that fails is
down, and the blocks of active CPYPs over it end with PEER_DOWN (11 R266). Every sample moves a partition's clock at most one
step: down when it draws more than its share, up after 1 ms below 95 % of it (21 R426). Above 100 °C the partitions with a
hall in the gallery run one step lower until every gallery of theirs is below 95 °C; no partition runs below 350 MHz (R427).
-/
def Obligations.PartitionsLinksClocks : Prop :=
  ((∀ (s : State) (n : Nat), n < 16 →
      let p := s.part n
      let bitsOf (w : Word) (k : Nat) : List Nat := (List.range k).filter fun i => w.getLsbD i
      let halls := bitsOf p.phalls 24
      let groups := bitsOf p.pchgrp 32
      let arc := bitsOf p.parc 12
      let svc := p.psvc.toNat % 512 :: if p.psvc.getLsbD 31 then [p.psvc.toNat / 65536 % 512] else []
      let base := p.pt2.toNat % 65536
      let size := p.pt2.toNat / 65536
      let others := s.parts.filter fun x => x.active && decide (x.num ≠ n)
      let enabled := (s.owners.filter fun o => o.enable && o.part = n).length
      let meet (a b : List Nat) : Prop := ∃ x ∈ a, x ∈ b
      let c1 := s.mgmt.minimal = true
      let c2 := p.active = true
      let c3 := halls = [] ∨ groups = []
      let c4 := (∃ x ∈ others, meet x.halls halls ∨ meet x.groups groups ∨ meet x.arc arc
          ∨ (size ≠ 0 ∧ x.t2.2 ≠ 0 ∧ base < x.t2.1 + x.t2.2 ∧ x.t2.1 < base + size))
        ∨ 1024 < (others.map Partition.atq).sum + p.patq.toNat ∨ (size ≠ 0 ∧ s.t2size < base + size)
      let c5 := (∃ c ∈ svc, c / Config.coresPerHall ∉ halls) ∨ (16 < enabled ∧ p.psvc.getLsbD 31 = false) ∨ 24 < enabled
      let c6 := p.ppower.toNat < 30 * halls.length + 17 * groups.length ∨ 1450 < (others.map Partition.power).sum + p.ppower.toNat
      let refused (code : Nat) : Prop := exec (.pctlApply n) s = .next (s.putPart { p with result := code })
      (c1 → refused 1) ∧ (¬c1 → c2 → refused 2) ∧ (¬c1 → ¬c2 → c3 → refused 3) ∧ (¬c1 → ¬c2 → ¬c3 → c4 → refused 4)
      ∧ (¬c1 → ¬c2 → ¬c3 → ¬c4 → c5 → refused 5) ∧ (¬c1 → ¬c2 → ¬c3 → ¬c4 → ¬c5 → c6 → refused 6)
      ∧ (¬c1 → ¬c2 → ¬c3 → ¬c4 → ¬c5 → ¬c6 → ∃ t, exec (.pctlApply n) s = .next t
        ∧ (let q := t.part n
          q.active = true ∧ q.result = 0 ∧ q.halls = halls ∧ q.groups = groups ∧ q.arc = arc ∧ q.svc = svc ∧ q.t2 = (base, size)
          ∧ q.atq = p.patq.toNat ∧ q.power = p.ppower.toNat)
        ∧ (∀ k, k ≠ n → t.part k = s.part k) ∧ (∀ j, j ≠ 3 → t.mgmt.meas.getD j [] = s.mgmt.meas.getD j [])
        ∧ (s.mgmt.halted = false → s.mgmt.meas.length = 8 → t.mgmt.meas.getD 3 []
          = sha256 (s.mgmt.meas.getD 3 [] ++ sha256 ((List.range 16).flatMap fun i => (t.part i).block))))
      ∧ ((∃ o ∈ s.owners, o.part = n ∧ o.state ≠ 0) → exec (.pctlTeardown n) s = .next (s.putPart { p with result := 2 }))
      ∧ ((∀ o ∈ s.owners, o.part = n → o.state = 0) → ∃ t, exec (.pctlTeardown n) s = .next t
        ∧ (t.part n).active = false ∧ (t.part n).result = 0 ∧ (t.part n).halls = [] ∧ (t.part n).groups = []
        ∧ (t.part n).phalls = p.phalls ∧ (t.part n).pchgrp = p.pchgrp ∧ ∀ k, k ≠ n → t.part k = s.part k))
    ∧ (∀ (s : State) (n : Nat) (far : FarEnd),
      (12 ≤ n → exec (.linkTraining n far) s = .next s)
      ∧ (n < 12 → ∃ t, exec (.linkTraining n far) s = .next t ∧ t = { s with links := t.links } ∧ (∀ k, k ≠ n → t.link k = s.link k)
        ∧ (far.identity.toNat = s.mgmt.arcid.toNat % 4096 → (t.link n).up = false)
        ∧ (far.identity.toNat ≠ s.mgmt.arcid.toNat % 4096 → (t.link n).up = true ∧ (t.link n).peer = far.identity
          ∧ (t.link n).far = far.pairs ∧ (t.link n).failed = false)))
    ∧ ∀ (s : State) (n : Nat), (s.copies.map Copy.key).Nodup → ∃ t, exec (.linkFailure n) s = .next t ∧ (t.link n).up = false
      ∧ (t.link n).failed = true ∧ (∀ k, k ≠ n → t.link k = s.link k) ∧ t = { s with links := t.links, copies := t.copies }
      ∧ ∀ k c, s.copy k = some c →
        let hit := c.form = .cpyp ∧ c.dst.link = n ∧ c.state = .active ∧ c.next < c.units
        (hit → ∃ d, t.copy k = some d ∧ d.state = .written ∧ (c.failAt = none →
          d.failAt = some ((c.unit c.next).first, 0x32, (c.unit c.next).first / 64)))
        ∧ (¬hit → t.copy k = some c))
  ∧ ((∀ (s : State) (n w : Nat),
      let p := s.part n
      let down := ((if 630 < p.clock then 630 else if 560 < p.clock then 560 else if 490 < p.clock then 490 else if 420 < p.clock then 420
        else 350) : Nat)
      let up := ((if p.clock < 420 then 420 else if p.clock < 490 then 490 else if p.clock < 560 then 560 else if p.clock < 630 then 630
        else 700) : Nat)
      let becomes (q : Partition) : Prop := exec (.clockStepSample n w) s = .next (s.putPart q)
      350 ≤ p.clock → p.clock ≤ 700 →
      (p.active = false → exec (.clockStepSample n w) s = .next s)
      ∧ (p.active = true → (p.power < w → becomes { p with clock := down, below := 0 })
        ∧ (w ≤ p.power → 95 * p.power ≤ 100 * w → becomes { p with below := 0 })
        ∧ (w ≤ p.power → 100 * w < 95 * p.power → (p.below < 99 → becomes { p with below := p.below + 1 })
          ∧ (99 ≤ p.below → becomes { p with clock := up, below := 0 }))))
    ∧ ∀ (s : State) (g c : Nat), g < 4 → s.mgmt.temp.length = 4 → ∃ t, exec (.thermalHold g c) s = .next t
      ∧ t.mgmt = { s.mgmt with temp := t.mgmt.temp } ∧ t.mgmt.temp.getD g 0 = c ∧ (∀ h, h ≠ g → t.mgmt.temp.getD h 0 = s.mgmt.temp.getD h 0)
      ∧ ∀ n,
        let p := s.part n
        let inG (h : Nat) : Prop := p.active = true ∧ ∃ x ∈ p.halls, galleryOfHall x = h
        p ∈ s.parts → t.part n = { p with hot := (t.part n).hot }
          ∧ (inG g → 100 < c → (t.part n).hot = true)
          ∧ (inG g → c ≤ 100 → (∃ h, h < 4 ∧ inG h ∧ 95 ≤ t.mgmt.temp.getD h 0) → (t.part n).hot = p.hot)
          ∧ (inG g → c ≤ 100 → (∀ h, h < 4 → inG h → t.mgmt.temp.getD h 0 < 95) → (t.part n).hot = false)
          ∧ (¬inG g → (t.part n).hot = p.hot)
          ∧ (p.clock ∈ [700, 630, 560, 490, 420, 350] → 350 ≤ (t.part n).mhz ∧ (t.part n).mhz ≤ p.clock))

/-- A turn of the management core runs one instruction of its program, and changes nothing but the core and its blocks; the ROM,
the flash, the fuses and the measurements stand. An aligned load and store of 8 bytes move what the map holds there. An illegal
instruction, a jump to an address with bit 1 set, a misaligned load or store, ECALL and EBREAK take the exception of their kind:
the registers keep their values, mepc, mcause and mtval are written, and the core goes to mtvec or, with mtvec 0, halts where it
is; a halted core stays. An access outside the map, or of 2 bytes in a register block, reads zero and its write is dropped, and
so are writes of the ROM and the flash. The codes of the instructions and causes are the RISC-V architecture's (21 R414, R430;
log 22). -/
def Obligations.ManagementCoreRuns : Prop :=
  (∀ (s : State) (rest : List Turn), s.agenda = .mgmt :: rest →
    ∃ t, step s = .next t ∧ t = { s with agenda := rest, mgmt := t.mgmt }
      ∧ t.mgmt.rom = s.mgmt.rom ∧ t.mgmt.flash = s.mgmt.flash ∧ t.mgmt.meas = s.mgmt.meas
      ∧ t.mgmt.fuseKey = s.mgmt.fuseKey ∧ t.mgmt.revoke = s.mgmt.revoke ∧ t.mgmt.minver = s.mgmt.minver
      ∧ (s.mgmt.runs = false → t.mgmt = s.mgmt)
      ∧ (s.mgmt.runs = true →
        let m := s.mgmt
        let w := m.fetch m.pc.toNat 4
        let rs1 := m.x (w / 2 ^ 15 % 32)
        let sum (imm : Nat) : DWord := rs1 + (BitVec.ofNat 12 imm).signExtend 64
        let loads := w % 128 = 0x03 ∧ w / 2 ^ 12 % 8 = 3
        let stores := w % 128 = 0x23 ∧ w / 2 ^ 12 % 8 = 3
        let from' := sum (w / 2 ^ 20)
        let into := sum (w / 2 ^ 25 * 32 + w / 2 ^ 7 % 32)
        let target := (rs1 + (BitVec.ofNat 12 (w / 2 ^ 20)).signExtend 64) &&& ~~~(1 : DWord)
        let exc (cause : Nat) (tval : DWord) : Prop := t.mgmt.mepc = m.pc ∧ t.mgmt.mcause = BitVec.ofNat 64 cause
          ∧ t.mgmt.mtval = tval ∧ t.mgmt.xregs = m.xregs ∧ t.mgmt.sram = m.sram
          ∧ (m.mtvec = 0 → t.mgmt.halted = true ∧ t.mgmt.pc = m.pc)
          ∧ (m.mtvec ≠ 0 → t.mgmt.halted = false ∧ t.mgmt.pc = m.mtvec &&& ~~~(3 : DWord))
        (w % 2 ^ 16 = 0 → exc 2 0) ∧ (w = 0x73 → exc 11 0) ∧ (w = 0x00100073 → exc 3 m.pc)
        ∧ (w % 128 = 0x67 → w / 2 ^ 12 % 8 = 0 → target.getLsbD 1 = true → exc 0 target)
        ∧ (loads → from'.toNat % 8 ≠ 0 → exc 4 from')
        ∧ (stores → into.toNat % 8 ≠ 0 → exc 6 into)
        ∧ (loads → from'.toNat % 8 = 0 → t.mgmt.pc = m.pc + 4 ∧ t.mgmt.sram = m.sram
          ∧ ∀ r, r < 32 → m.xregs.length = 32 →
            t.mgmt.x r = if r ≠ 0 ∧ r = w / 2 ^ 7 % 32 then BitVec.ofNat 64 (m.load from'.toNat 8) else m.x r)
        ∧ (stores → into.toNat % 8 = 0 →
          t.mgmt = { m.write into.toNat 8 (m.x (w / 2 ^ 20 % 32)).toNat with pc := m.pc + 4 })))
  ∧ ∀ (m : Mgmt) (a n v : Nat), n ∈ [1, 2, 4, 8] → a % n = 0 →
    ((∀ i, i < n → m.byteAt (a + i) = none ∧ inBlocks (a + i) = false) → m.load a n = 0 ∧ m.write a n v = m)
    ∧ (inBlocks a = true → n = 2 → m.load a n = 0 ∧ m.write a n v = m)
    ∧ (a + n ≤ 0x10000 ∨ (0x40000000 ≤ a ∧ a + n ≤ 0x44000000) → m.write a n v = m)
    ∧ (0x10000000 ≤ a → a + n ≤ 0x10080000 → m.sram.wf = true → ∀ i, i < n →
      (m.write a n v).byteAt (a + i) = some (BitVec.ofNat 8 (v / 2 ^ (8 * i))))

/-- REGISTER_WRITE is an access to a register: a write stores the register that the offset names and no other, and a read is
answered with what it holds and changes nothing (19 R397, R402; 21 R414 to R416, R423, R424): a queue's base in a virtual
function, VDSTAT, VDEVT, an owner's slice and way limits, which the host may write at any time, the fields that are read at
owner start, which take effect at once while STATE is 0 and else stay as written, a partition's block, ARCID, the
accelerator's and the flash controller's operands, the SRAM. A WAYS that breaks 17 R376 is dropped. A virtual function answers
on the port that VDCFG.PORT selects, but for configuration reads, and elsewhere with an Unsupported Request (19 R395). A write
of another size or alignment, a virtual function in minimal mode, and an offset that names nothing change nothing. -/
def Obligations.RegisterWrites : Prop :=
  ∀ (s : State) (vd : Nat) (v : DWord), vd < 384 →
    let o := s.owner vd
    let m := s.mgmt
    let lo : Word := v.setWidth 32
    let pf (off : Nat) : Instr := .registerWrite (.pf off 4 v)
    let cfg (r : Nat) : Instr := pf (0x10000 + 0x400 * vd + r)
    let vf (off size : Nat) : Instr := .registerWrite (.vf o.port vd off size v)
    let tells (i : Instr) (e : HostEvent) : Prop := exec i s = .next { s with host := s.host ++ [e] }
    (∀ off size, (size ≠ 4 ∧ size ≠ 8) ∨ off % size ≠ 0 → exec (vf off size) s = .next s
      ∧ exec (.registerWrite (.pf off size v)) s = .next s)
    ∧ (∀ port off size, m.minimal = true → exec (.registerWrite (.vf port vd off size v)) s = .next s
      ∧ exec (.registerWrite (.vfRead port vd off size)) s = .next s ∧ exec (.registerWrite (.vfConfig port vd)) s = .next s)
    ∧ (m.minimal = false →
      (∀ port off size, port ≠ o.port → tells (.registerWrite (.vf port vd off size v)) (.unsupported port vd)
        ∧ tells (.registerWrite (.vfRead port vd off size)) (.unsupported port vd))
      ∧ (∀ port, tells (.registerWrite (.vfConfig port vd)) (.config port vd))
      ∧ (let reads (off size n : Nat) : Prop := tells (.registerWrite (.vfRead o.port vd off size)) (.regData n)
        reads 0x000 4 (o.state + (if o.state = 2 then 256 * o.reason else 0) + 65536 * o.errors.length) ∧ reads 0x004 4 o.vdevt.toNat
        ∧ reads 0x008 4 0 ∧ reads 0x1800 4 o.pba.toNat ∧ (∀ n, n < 8 → reads (0x100 + 32 * n) 8 (o.queue n).qbase.toNat)
        ∧ ∀ off size, (size ≠ 4 ∧ size ≠ 8) ∨ off % size ≠ 0 → reads off size 0)
      ∧ ∀ n, n < 8 → o.queues.length = 8 →
        exec (vf (0x100 + 32 * n) 8) s = .next (s.putOwner { o with queues := listSet o.queues n { o.queue n with qbase := v } })
        ∧ exec (vf (0x118 + 32 * n) 8) s = .next (s.putOwner { o with queues := listSet o.queues n { o.queue n with cqbase := v } }))
    ∧ exec (cfg 0x018) s = .next (s.putOwner { o with hostSlice := lo.toNat })
    ∧ tells (.registerWrite (.pfRead (0x10000 + 0x400 * vd + 0x018) 4)) (.regData (o.hostSlice % 2 ^ 32))
    ∧ (let sum (part : Nat) : Nat := ((s.owners.filter fun w => w.enable && w.part = part && w.vd ≠ vd).map Owner.hostMinw).sum
      let minw := lo.toNat % 32
      let maxw := lo.toNat / 256 % 32
      let fits := minw ≤ maxw ∧ maxw ≤ 16 ∧ sum o.part + minw ≤ 16
      (fits → exec (cfg 0x020) s = .next (s.putOwner { o with hostMinw := minw, hostMaxw := maxw }))
      ∧ (¬fits → exec (cfg 0x020) s = .next s)
      ∧ (let h := o.hostCfg
        let stands (c : PfConfig) : Owner := if o.state = 0 then { o with
            hostCfg := c, part := c.part, slot := c.slot, port := c.port, enable := c.enable, vbase := c.vbase, vlimit := c.vlimit
            spillBase := c.spillBase, spillStride := c.spillStride, expose := c.expose }
          else { o with hostCfg := c }
        let writes (r size : Nat) (c : PfConfig) : Prop :=
          (c.enable = true → sum c.part + o.hostMinw ≤ 16) →
            exec (.registerWrite (.pf (0x10000 + 0x400 * vd + r) size v)) s = .next (s.putOwner (stands c))
        writes 0x000 4 { h with
          part := lo.toNat % 16, slot := lo.toNat / 16 % 32, port := lo.toNat / 512 % 2, enable := lo.getLsbD 10 }
        ∧ writes 0x008 8 { h with vbase := v } ∧ writes 0x010 8 { h with vlimit := v } ∧ writes 0x028 8 { h with spillBase := v }
        ∧ writes 0x030 8 { h with spillStride := v }))
    ∧ (∀ n k : Nat, exec (.registerWrite (.farPair n k lo)) s
      = .next (s.putLink { s.link n with far := kset Prod.fst (k, lo) (s.link n).far }))
    ∧ (∀ n, n < 16 → exec (pf (0x1000 + 0x80 * n)) s = .next (s.putPart { s.part n with phalls := lo &&& 0xFFFFFF })
      ∧ exec (pf (0x1004 + 0x80 * n)) s = .next (s.putPart { s.part n with pchgrp := lo })
      ∧ exec (pf (0x1010 + 0x80 * n)) s = .next (s.putPart { s.part n with ppower := lo }))
    ∧ exec (pf 0x030) s = .next { s with mgmt := { m with arcid := lo &&& 0xFFF } }
    ∧ (m.minimal = false → exec (pf 0x020) s = .next s) ∧ (m.minimal = true → exec (pf 0x020) s = .next { s with mgmt := { m with flcAddr := lo } })
    ∧ exec (.registerWrite (.mgmt 0x20000000 8 v)) s = .next { s with mgmt := { m with hsaSrc := v } }
    ∧ exec (.registerWrite (.mgmt 0x20000010 8 v)) s = .next { s with mgmt := { m with hsaKey := v } }
    ∧ exec (.registerWrite (.mgmt 0x20001004 4 v)) s = .next { s with mgmt := { m with flcData := lo } }
    ∧ exec (.registerWrite (.mgmt 0x20001000 8 v)) s
      = .next { s with mgmt := { m with flcAddr := lo, flcData := (v >>> 32).setWidth 32 } }
    ∧ (∀ a, a < 0x80000 → m.sram.wf = true → ∃ t, exec (.registerWrite (.mgmt (0x10000000 + a) 1 v)) s = .next t
      ∧ t = { s with mgmt := { m with sram := t.mgmt.sram } }
      ∧ ∀ b, t.mgmt.sram.get b = if b = a then v.setWidth 8 else m.sram.get b)
end

