-- ==== Sys2Proof/Laws/Enter.lean ====
section
/-!
SUPPORT. What a variable-latency instruction at issue can do: its flight's bookkeeping, and its entry into a queue.
-/

namespace Sys2Proof.Machine

/-! ### Operands do not depend on what a record read caches -/

theorem Ctx.early_state {c : Ctx} {S : State} (h : S.free = c.s.free) (slot : Nat) (put : Nat → Option (Word × Lanes)) :
    ∀ (ps : List Pending) (i : Nat) (v : Lanes), Ctx.early { c with s := S } slot put ps i v = c.early slot put ps i v
  | [], _, _ => rfl
  | p :: ps, i, v => by
    unfold Ctx.early
    rw [Ctx.early_state h slot put ps]
    unfold Ctx.choose
    dsimp only
    rw [h]

theorem Ctx.produced_state {c : Ctx} {S : State} (h : S.free = c.s.free) (slot r : Nat) :
    ∀ (es : List EarlyResult) (i : Nat) (v : Lanes), Ctx.produced { c with s := S } slot r es i v = c.produced slot r es i v
  | [], _, _ => rfl
  | e :: es, i, v => by
    unfold Ctx.produced
    rw [Ctx.produced_state h slot r es]
    unfold Ctx.choose
    dsimp only
    rw [h]

theorem Ctx.vreg_state {c : Ctx} {S : State} (h : S.free = c.s.free) (slot r : Nat) :
    Ctx.vreg { c with s := S } slot r = c.vreg slot r := by
  unfold Ctx.vreg
  rw [Ctx.produced_state h, Ctx.early_state h]

theorem Ctx.src_state {c : Ctx} {S : State} (h : S.free = c.s.free) (hq : S.quads = c.s.quads) (slot : Nat) (v : BitVec 8) :
    Ctx.src { c with s := S } slot v = c.src slot v := by
  have hqq : ∀ n, S.quad n = c.s.quad n := by intro n; unfold State.quad; rw [hq]
  unfold Ctx.src Ctx.latch
  dsimp only
  rw [hqq]
  simp only [Ctx.vreg_state h, Ctx.early_state h]
  unfold Ctx.choose
  dsimp only
  rw [h]

theorem Ctx.srcHi_state {c : Ctx} {S : State} (h : S.free = c.s.free) (slot : Nat) (v : BitVec 8) :
    Ctx.srcHi { c with s := S } slot v = c.srcHi slot v := by
  unfold Ctx.srcHi
  rw [Ctx.vreg_state h]

/-! ### Bookkeeping -/

/-- The bookkeeping of a variable-latency instruction. -/
theorem issued_var (c : Ctx) (s : State) : c.VarIssued (c.issued s .seq none c.f) := by
  constructor
  · unfold Ctx.issued Ctx.flagsUp
    cases hfl : c.flag with
    | none =>
      dsimp only
      unfold Flight.advance
      dsimp only
      split
      · rfl
      · split <;> rfl
    | some n =>
      dsimp only
      unfold Flight.advance Flight.addFlag
      dsimp only
      split
      · rfl
      · split <;> rfl
  · intro hm
    unfold Ctx.issued
    rw [advance_none _ _ _ hm]
    cases c.flag with
    | none => exact ⟨rfl, hm⟩
    | some n => exact ⟨rfl, hm⟩

/-- The bookkeeping over a state in which the instruction has changed nothing that others keep. -/
theorem finish_entered {v : View} {s : State} {f : Flight} {x : XF} (h : AtIssue v s f x) {c1 : Ctx} {S : State}
    (hc : c1 = { Ctx.atIssue v s f x with s := c1.s }) (hfl : S.flights = s.flights) (hq : S.quads = (s.clearLatches f).quads)
    (ho : S.owners = s.owners) (hb : ∀ a, S.byte a = s.byte a) :
    (Ctx.atIssue v s f x).Entered s (c1.finish S .seq none) := by
  have hf : c1.f = f := by rw [hc]; rfl
  have hS : ∀ k, S.flight k = s.flight k := by intro k; unfold State.flight; rw [hfl]
  have hr := Ctx.finish_rest c1 S .seq none
  have hown : ∀ vd, S.owner vd = s.owner vd := by intro vd; unfold State.owner; rw [ho]
  have hqq : ∀ n, (c1.finish S .seq none).quad n = (s.clearLatches f).quad n := by
    intro n; rw [hr]; show S.quad n = _; unfold State.quad; rw [hq]
  refine ⟨⟨c1.issued S .seq none f, ?_, ?_⟩, ?_, ?_, ?_, ?_, ?_⟩
  · have g := Ctx.finish_flight (c := c1) (s := S) (f := f) (by rw [hf, hS]; exact h.flight) (by rw [hf]) .seq none
    rw [hf] at g
    exact g
  · have := issued_var c1 S
    rw [hf] at this
    have e : (Ctx.atIssue v s f x).VarIssued = c1.VarIssued := by rw [hc]; rfl
    rw [e]; exact this
  · intro k hk
    have := Ctx.finish_flight_ne (c := c1) (s := S) (k := k) (by rw [hf]; exact hk) .seq none
    rw [this, hf, hS]
    rfl
  · intro n hn; rw [hqq]; exact State.clearLatches_quad_ne s f hn
  · rw [hqq]; exact State.clearLatches_order s f
  · intro vd; rw [Ctx.finish_owner, hown]
  · intro a
    rw [hr]; exact hb a

theorem modFlight_flights {S T : State} (h : S.flights = T.flights) (k : Nat) (g : Flight → Flight) :
    (S.modFlight k g).flights = (T.modFlight k g).flights := by
  have hk : S.flight k = T.flight k := by unfold State.flight; rw [h]
  unfold State.modFlight
  rw [hk]
  split
  · unfold State.putFlight; dsimp only; rw [h]
  · exact h

/-- An operation enters the memory queue. -/
theorem varOp_enters {v : View} {s : State} {f : Flight} {x : XF} (h : AtIssue v s f x) {body : Ctx → Chk State} {c1 : Ctx}
    {recs : List RecEntry} {o : MemOp}
    (hc : c1 = { Ctx.atIssue v s f x with s := { (Ctx.atIssue v s f x).s with recs := recs } })
    (hb : body (Ctx.atIssue v s f x) = .ok (c1.enter o)) :
    ∃ t, varOp v s body = .next t ∧ (Ctx.atIssue v s f x).MemEntered s t o := by
  subst hc
  refine ⟨_, varOp_ok h hb, ?_, ?_⟩
  · refine finish_entered h (c1 := Ctx.atIssue v s f x) rfl ?_ ?_ ?_ ?_
    · simp [Ctx.enter]
    · simp [Ctx.enter]
    · simp [Ctx.enter]
    · intro a
      unfold State.byte State.cached State.copyOf
      simp [Ctx.enter]
  · rw [Ctx.finish_rest]
    simp [Ctx.enter]

end Sys2Proof.Machine
end

