-- ==== Sys2Proof/Laws/Memory.lean ====
section
/-!
SUPPORT. Memory: reading after writing, and that every operation keeps the canonical form.
-/

namespace Sys2Proof.Machine

theorem Memory.wfFrom_mono {m : Memory} {a b : Nat} (h : Memory.wfFrom b m = true) (hab : a ≤ b) :
    Memory.wfFrom a m = true := by
  cases m with
  | nil => rfl
  | cons p m =>
    obtain ⟨k, v⟩ := p
    simp only [Memory.wfFrom, Bool.and_eq_true, decide_eq_true_eq] at h ⊢
    exact ⟨⟨by omega, h.1.2⟩, h.2⟩

/-- Nothing below the bound is listed. -/
theorem Memory.get_below {m : Memory} {lo a : Nat} (h : Memory.wfFrom lo m = true) (ha : a < lo) : m.get a = Memory.unlisted := by
  induction m generalizing lo with
  | nil => rfl
  | cons p m ih =>
    obtain ⟨k, v⟩ := p
    simp only [Memory.wfFrom, Bool.and_eq_true, decide_eq_true_eq] at h
    simp only [Memory.get]
    rw [if_neg (by omega)]
    exact ih h.2 (by omega)

theorem Memory.set_wfFrom {m : Memory} {lo a : Nat} (b : Byte) (h : Memory.wfFrom lo m = true) (ha : lo ≤ a) :
    Memory.wfFrom lo (m.set a b) = true := by
  induction m generalizing lo with
  | nil =>
    simp only [Memory.set]
    split
    · rfl
    · simp_all [Memory.wfFrom]
  | cons p m ih =>
    obtain ⟨k, v⟩ := p
    simp only [Memory.wfFrom, Bool.and_eq_true, decide_eq_true_eq] at h
    obtain ⟨⟨h1, h2⟩, h3⟩ := h
    simp only [Memory.set]
    split
    · rename_i hk
      split
      · simp_all [Memory.wfFrom]
      · rename_i hb
        simp only [Memory.wfFrom, Bool.and_eq_true, decide_eq_true_eq]
        exact ⟨⟨ha, hb⟩, ⟨by omega, h2⟩, h3⟩
    · split
      · split
        · exact Memory.wfFrom_mono h3 (by omega)
        · rename_i hb
          subst_vars
          simp only [Memory.wfFrom, Bool.and_eq_true, decide_eq_true_eq]
          exact ⟨⟨ha, hb⟩, h3⟩
      · simp only [Memory.wfFrom, Bool.and_eq_true, decide_eq_true_eq]
        exact ⟨⟨h1, h2⟩, ih h3 (by omega)⟩

/-- Storing a byte keeps the canonical form. -/
theorem Memory.set_wf {m : Memory} (h : m.wf = true) (a : Nat) (b : Byte) : (m.set a b).wf = true :=
  Memory.set_wfFrom b h (Nat.zero_le a)

/-- Storing bytes keeps the canonical form. -/
theorem Memory.puts_wf {m : Memory} (h : m.wf = true) (ws : List (Nat × Byte)) : (m.puts ws).wf = true := by
  unfold Memory.puts
  induction ws generalizing m with
  | nil => exact h
  | cons w ws ih => exact ih (Memory.set_wf h w.1 w.2)

theorem Memory.get_set_from {m : Memory} {lo : Nat} (h : Memory.wfFrom lo m = true) (a : Nat) (b : Byte) (a' : Nat) :
    (m.set a b).get a' = if a' = a then b else m.get a' := by
  induction m generalizing lo with
  | nil =>
    simp only [Memory.set]
    split
    · simp_all [Memory.get]
    · simp only [Memory.get, eq_comm]
  | cons p m ih =>
    obtain ⟨k, v⟩ := p
    simp only [Memory.wfFrom, Bool.and_eq_true, decide_eq_true_eq] at h
    obtain ⟨⟨h1, h2⟩, h3⟩ := h
    simp only [Memory.set]
    split
    · rename_i hk
      split
      · rename_i hb
        split
        · subst_vars
          simp only [Memory.get]
          rw [if_neg (by omega)]
          exact Memory.get_below h3 (by omega)
        · rfl
      · simp only [Memory.get, eq_comm]
    · split
      · rename_i hk hka
        subst hka
        split
        · rename_i hb
          split
          · subst_vars; exact Memory.get_below h3 (by omega)
          · simp only [Memory.get]; rw [if_neg (by omega)]
        · simp only [Memory.get]
          by_cases ha : a' = a
          · simp [ha]
          · simp [ha, show a ≠ a' from fun h => ha h.symm]
      · rename_i hk hk'
        simp only [Memory.get, ih h3]
        by_cases ha : a' = a
        · subst ha
          simp [show k ≠ a' by omega]
        · simp [ha]

/-- Reading after storing one byte. -/
theorem Memory.get_set {m : Memory} (h : m.wf = true) (a : Nat) (b : Byte) (a' : Nat) :
    (m.set a b).get a' = if a' = a then b else m.get a' := Memory.get_set_from h a b a'

/-- Bytes that are not written keep their values. -/
theorem Memory.get_puts_ne {m : Memory} (h : m.wf = true) {ws : List (Nat × Byte)} {a : Nat} (ha : ∀ w ∈ ws, w.1 ≠ a) :
    (m.puts ws).get a = m.get a := by
  unfold Memory.puts
  induction ws generalizing m with
  | nil => rfl
  | cons w ws ih =>
    have h1 := ih (Memory.set_wf h w.1 w.2) (fun x hx => ha x (List.mem_cons_of_mem _ hx))
    simp only [List.foldl_cons]
    rw [h1, Memory.get_set h, if_neg (fun hc => ha w (by simp) hc.symm)]

theorem State.memPut_wf {s : State} (h : s.mem.wf = true) (ws : List (Nat × Byte)) : (s.memPut ws).mem.wf = true :=
  Memory.puts_wf h _

/-! ### Every cache operation keeps the form -/

theorem State.foldl_wf {α : Type} {f : State → α → State} (h : ∀ s a, s.mem.wf = true → (f s a).mem.wf = true) (l : List α)
    {s : State} (hs : s.mem.wf = true) : (l.foldl f s).mem.wf = true := by
  induction l generalizing s with
  | nil => exact hs
  | cons a l ih => exact ih (h s a hs)

theorem State.writeBack_wf {s : State} (h : s.mem.wf = true) (ln : Nat) (d : List Byte) (m b : BitVec 128) :
    (s.writeBack ln d m b).mem.wf = true := Memory.puts_wf h _

theorem State.llcEvict_wf {s : State} (h : s.mem.wf = true) (l : LlcLine) : (s.llcEvict l).mem.wf = true := by
  unfold State.llcEvict
  dsimp only
  split
  · exact h
  · exact State.writeBack_wf h _ _ _ _

@[simp] theorem State.count_mem (s : State) (o i n : Nat) : (s.count o i n).mem = s.mem := by
  simp [State.count]

@[simp] theorem State.shadowSize_mem (s : State) (o ln n : Nat) : (s.shadowSize o ln n).mem = s.mem := by
  unfold State.shadowSize
  dsimp only
  split
  · rfl
  · split
    · rfl
    · simp

@[simp] theorem State.llcAccount_mem (s : State) (o ln : Nat) : (s.llcAccount o ln).mem = s.mem := by
  unfold State.llcAccount
  dsimp only
  split <;> simp

theorem State.llcRoom_wf (o ln n : Nat) (k : Option Nat) (fuel : Nat) {s : State} (h : s.mem.wf = true) :
    (s.llcRoom o ln n k fuel).1.mem.wf = true := by
  induction fuel generalizing s with
  | zero => exact h
  | succ fuel ih =>
    unfold State.llcRoom
    dsimp only
    repeat' split
    all_goals first
      | exact h
      | exact ih (by simp [State.llcEvict_wf h])

theorem State.llcPlace_wf {s : State} (h : s.mem.wf = true) (o ln : Nat) (d : List Byte) (m b : BitVec 128) (tally next : Bool) :
    (s.llcPlace o ln d m b tally next).mem.wf = true := by
  unfold State.llcPlace
  dsimp only
  have h1 : ((if tally then s.count o (attarEncode d).1 1 else s).shadowSize o ln (attarEncode d).2).mem.wf = true := by
    rw [State.shadowSize_mem]; split <;> simp [h]
  generalize (if tally then s.count o (attarEncode d).1 1 else s).shadowSize o ln (attarEncode d).2 = s1 at h1
  have h2 := State.llcRoom_wf o ln (attarEncode d).2 ((kget LlcLine.line ln s1.llc).map LlcLine.sectors) 65 h1
  generalize s1.llcRoom o ln (attarEncode d).2 ((kget LlcLine.line ln s1.llc).map LlcLine.sectors) 65 = r at h2
  split
  · exact h2
  · split
    · exact h2
    · exact State.writeBack_wf (by exact h2) _ _ _ _

theorem State.llcTouch_wf {s : State} (h : s.mem.wf = true) (o ln : Nat) (next : Bool) : (s.llcTouch o ln next).mem.wf = true := by
  unfold State.llcTouch
  dsimp only
  split
  · simp [h]
  · exact State.llcPlace_wf (by simp [h]) _ _ _ _ _ _ _

theorem State.writeUp_wf {s : State} (h : s.mem.wf = true) (c : CacheLine) : (s.writeUp c).mem.wf = true := by
  unfold State.writeUp
  split
  · exact State.llcPlace_wf h _ _ _ _ _ _ _
  · exact State.writeBack_wf h _ _ _ _

theorem State.shareLine_wf {s : State} (h : s.mem.wf = true) (ln : Nat) : (s.shareLine ln).mem.wf = true := by
  unfold State.shareLine
  split
  · exact h
  · exact State.writeUp_wf h _

theorem State.upperRoom_wf (c : CacheLine) (fuel : Nat) {s : State} (h : s.mem.wf = true) : (s.upperRoom c fuel).mem.wf = true := by
  induction fuel generalizing s with
  | zero => exact h
  | succ fuel ih =>
    unfold State.upperRoom
    dsimp only
    split
    · exact h
    · split
      · exact h
      · apply ih
        split
        · exact State.writeUp_wf h _
        · exact h

theorem State.putLine_wf {s : State} (h : s.mem.wf = true) (c : CacheLine) : (s.putLine c).mem.wf = true :=
  State.upperRoom_wf c _ (s := { s with lines := s.lines.filter fun m => !(m.cache = c.cache && m.line = c.line) }) h

theorem State.addCopy_wf {s : State} (h : s.mem.wf = true) (c : CacheId) (ln vd : Nat) (z next : Bool) :
    (s.addCopy c ln vd z next).mem.wf = true := by
  unfold State.addCopy
  dsimp only
  split
  · exact h
  · exact State.putLine_wf (by exact h) _

theorem State.dropUpper_wf {s : State} (h : s.mem.wf = true) (ln : Nat) : (s.dropUpper ln).mem.wf = true := h

theorem State.placeLine_wf {s : State} (h : s.mem.wf = true) (vd : Nat) (p : Poc) (ln : Nat) (d : List Byte) (m b : BitVec 128)
    (whole next : Bool) : (s.placeLine vd p ln d m b whole next).mem.wf = true := by
  have hs := State.shareLine_wf h ln
  unfold State.placeLine
  dsimp only
  cases p with
  | l1 c =>
    dsimp only
    split
    · exact State.putLine_wf (State.dropUpper_wf h ln) _
    · split
      · exact State.putLine_wf (State.dropUpper_wf hs ln) _
      · exact State.putLine_wf (State.dropUpper_wf (State.llcTouch_wf hs _ _ _) ln) _
  | l2 c =>
    dsimp only
    split
    · exact State.putLine_wf (State.dropUpper_wf h ln) _
    · split
      · exact State.putLine_wf (State.dropUpper_wf hs ln) _
      · exact State.putLine_wf (State.dropUpper_wf (State.llcTouch_wf hs _ _ _) ln) _
  | llc =>
    dsimp only
    split
    · apply State.llcPlace_wf
      split
      · rw [State.llcAccount_mem]; exact State.dropUpper_wf hs ln
      · exact State.llcTouch_wf (State.dropUpper_wf hs ln) _ _ _
    · exact State.writeBack_wf (State.dropUpper_wf hs ln) _ _ _ _

theorem State.windowOut_wf {s : State} (h : s.mem.wf = true) (t : Team) (o ln : Nat) : (s.windowOut t o ln).mem.wf = true := by
  unfold State.windowOut
  dsimp only
  split
  · exact State.addCopy_wf (State.placeLine_wf (State.placeLine_wf h _ _ _ _ _ _ _ _) _ _ _ _ _ _ _ _) _ _ _ _ _
  · exact State.putLine_wf (by exact h) _

theorem State.recallLine_wf {s : State} (h : s.mem.wf = true) (ln : Nat) : (s.recallLine ln).mem.wf = true := by
  unfold State.recallLine
  refine State.foldl_wf (fun s t h => ?_) _ h
  split
  · exact h
  · dsimp only
    simp only [State.putTeam_mem]
    split
    · exact State.windowOut_wf h _ _ _
    · exact h

theorem State.recallLines_wf {s : State} (h : s.mem.wf = true) (lns : List Nat) : (s.recallLines lns).mem.wf = true :=
  State.foldl_wf (fun _ _ h => State.recallLine_wf h _) lns h

theorem State.flushLine_wf {s : State} (h : s.mem.wf = true) (ln : Nat) : (s.flushLine ln).mem.wf = true := by
  unfold State.flushLine
  dsimp only
  split
  · exact State.recallLine_wf h ln
  · exact State.writeBack_wf (State.recallLine_wf h ln) _ _ _ _

theorem State.devWrite_wf {s : State} (h : s.mem.wf = true) (ws : List (Nat × Byte)) : (s.devWrite ws).mem.wf = true :=
  State.memPut_wf (State.foldl_wf (fun _ _ h => State.flushLine_wf h _) _ h) _

theorem State.cohPut_wf {s : State} (h : s.mem.wf = true) (vd : Nat) (p : Poc) (next : Bool) (ws : List (Nat × Byte)) :
    (s.cohPut vd p next ws).mem.wf = true :=
  State.foldl_wf (fun _ _ h => State.placeLine_wf (State.recallLine_wf h _) _ _ _ _ _ _ _ _) _ h

theorem State.cohWrite_wf {s : State} (h : s.mem.wf = true) (vd : Nat) (p : Poc) (ws : List (Nat × Byte)) :
    (s.cohWrite vd p ws).mem.wf = true := State.cohPut_wf h _ _ _ _

theorem State.write_wf {s : State} (h : s.mem.wf = true) (vd core scope policy : Nat) (ws : List (Nat × Byte)) :
    (s.write vd core scope policy ws).mem.wf = true := by
  unfold State.write
  split
  · exact State.memPut_wf (State.recallLines_wf h _) _
  · exact State.cohPut_wf h _ _ _ _

theorem State.writeOut_wf {s : State} (h : s.mem.wf = true) (w : WcLine) : (s.writeOut w).mem.wf = true := by
  unfold State.writeOut
  split
  · exact h
  · exact State.cohWrite_wf (by exact h) _ _ _

theorem State.drainWc_wf {s : State} (h : s.mem.wf = true) (k : Nat) : (s.drainWc k).mem.wf = true :=
  State.foldl_wf (fun _ _ h => State.writeOut_wf h _) _ h

theorem State.drainLines_wf {s : State} (h : s.mem.wf = true) (k : Nat) (lns : List Nat) : (s.drainLines k lns).mem.wf = true :=
  State.foldl_wf (fun _ _ h => State.writeOut_wf h _) _ h

theorem State.cohPoison_wf {s : State} (h : s.mem.wf = true) (vd : Nat) (as : List Nat) : (s.cohPoison vd as).mem.wf = true :=
  State.foldl_wf (fun _ _ h => State.placeLine_wf (State.recallLine_wf h _) _ _ _ _ _ _ _ _) _ h

theorem State.fetchLlc_wf {s : State} (h : s.mem.wf = true) (vd ln : Nat) (next : Bool) : (s.fetchLlc vd ln next).mem.wf = true := by
  unfold State.fetchLlc
  dsimp only
  split
  · exact State.llcTouch_wf (State.shareLine_wf h ln) _ _ _
  · exact State.shareLine_wf h ln

theorem State.fillL2_wf {s : State} (h : s.mem.wf = true) (vd hall ln : Nat) (z next : Bool) :
    (s.fillL2 vd hall ln z next).mem.wf = true := by
  unfold State.fillL2
  split
  · exact h
  · exact State.addCopy_wf (State.fetchLlc_wf h _ _ _) _ _ _ _ _

theorem State.fillLine_wf {s : State} (h : s.mem.wf = true) (vd core policy : Nat) (attar : Bool) (expand ln : Nat) :
    (s.fillLine vd core policy attar expand ln).mem.wf = true := by
  unfold State.fillLine
  split
  · exact h
  · dsimp only
    split
    · exact State.addCopy_wf (State.fillL2_wf h _ _ _ _ _) _ _ _ _ _
    · exact State.fillL2_wf h _ _ _ _ _
    · split
      · exact h
      · exact State.fetchLlc_wf h _ _ _

theorem State.noteUnmapped_wf {s : State} (h : s.mem.wf = true) (as : List Nat) : (s.noteUnmapped as).mem.wf = true := by
  unfold State.noteUnmapped
  split
  · simpa using h
  · exact h

theorem State.load_wf {s : State} (h : s.mem.wf = true) (vd core policy : Nat) (attar : Bool) (expand : Nat) (as : List Nat) :
    (s.load vd core policy attar expand as).1.mem.wf = true :=
  State.noteUnmapped_wf (State.foldl_wf (fun _ _ h => State.fillLine_wf (State.recallLine_wf h _) _ _ _ _ _ _) _ h) _

theorem State.moveDirty_wf {s : State} (h : s.mem.wf = true) (c : CacheId) (ln : Nat) : (s.moveDirty c ln).mem.wf = true := by
  unfold State.moveDirty
  split
  · exact h
  · exact State.putLine_wf (by exact h) _

theorem State.gatherLine_wf {s : State} (h : s.mem.wf = true) (ln : Nat) : (s.gatherLine ln).mem.wf = true :=
  State.recallLine_wf (State.foldl_wf (fun _ _ h => State.writeOut_wf h _) _ h) _

end Sys2Proof.Machine
end

