-- ==== Sys2Proof/Laws/PerInstr.lean ====
section
/-!
SUPPORT. Statements per instruction. EncodedLength: the words of an encoded instruction have the length that the low bits of the
first byte give (02 R33). An event has no words.
-/

namespace Sys2Proof.Laws.EncodedLength

def Statement (i : Instr) : Prop := ∀ bs, encode i = some bs → bs.length = lengthOf (bs.headD 0)

theorem x_length (op9 : Nat) (x : XF) : (leBytes 8 (x.toWord op9).toNat).length = lengthOf ((leBytes 8 (x.toWord op9).toNat).headD 0) := by
  have h : (x.toWord op9).toNat % 4 = 3 := by
    have e : (x.toWord op9).setWidth 2 = 3#2 := BitVec.setWidth_append_eq_right
    have := congrArg BitVec.toNat e
    simpa using this
  simp [leBytes, lengthOf, List.range_succ]
  rw [if_neg (by omega), if_neg (by omega)]

theorem w_length (op7 : Nat) (w : WF) : (leBytes 4 (w.toWord op7).toNat).length = lengthOf ((leBytes 4 (w.toWord op7).toNat).headD 0) := by
  have h : (w.toWord op7).toNat % 4 = 1 := by
    have e : (w.toWord op7).setWidth 2 = 1#2 := BitVec.setWidth_append_eq_right
    have := congrArg BitVec.toNat e
    simpa using this
  simp [leBytes, lengthOf, List.range_succ]
  rw [if_neg (by omega), if_pos h]

theorem h_length (op4 : Nat) (h : HF) : (leBytes 2 (h.toWord op4).toNat).length = lengthOf ((leBytes 2 (h.toWord op4).toNat).headD 0) := by
  have h : (h.toWord op4).toNat % 2 = 0 := by
    have e : (h.toWord op4).setWidth 1 = 0#1 := BitVec.setWidth_append_eq_right
    have := congrArg BitVec.toNat e
    simpa using this
  simp [leBytes, lengthOf, List.range_succ]
  omega

theorem all (i : Instr) : Statement i := by
  intro bs h
  unfold encode at h
  split at h
  · cases h; exact x_length _ _
  · cases h; exact w_length _ _
  · cases h; exact h_length _ _
  · cases h

theorem nop (x : XF) : Statement (.nop x) := all _
theorem nopW32 (w : WF) : Statement (.nopW32 w) := all _
theorem bra (x : XF) : Statement (.bra x) := all _
theorem braW32 (w : WF) : Statement (.braW32 w) := all _
theorem brp (x : XF) : Statement (.brp x) := all _
theorem brpAnyW32 (w : WF) : Statement (.brpAnyW32 w) := all _
theorem brpNoneW32 (w : WF) : Statement (.brpNoneW32 w) := all _
theorem brez (x : XF) : Statement (.brez x) := all _
theorem brezW32 (w : WF) : Statement (.brezW32 w) := all _
theorem jmp (x : XF) : Statement (.jmp x) := all _
theorem call (x : XF) : Statement (.call x) := all _
theorem ret (x : XF) : Statement (.ret x) := all _
theorem emget (x : XF) : Statement (.emget x) := all _
theorem emgetW32 (w : WF) : Statement (.emgetW32 w) := all _
theorem emset (x : XF) : Statement (.emset x) := all _
theorem emsetW32 (w : WF) : Statement (.emsetW32 w) := all _
theorem emand (x : XF) : Statement (.emand x) := all _
theorem emandW32 (w : WF) : Statement (.emandW32 w) := all _
theorem emandn (x : XF) : Statement (.emandn x) := all _
theorem emandnW32 (w : WF) : Statement (.emandnW32 w) := all _
theorem mcall (x : XF) : Statement (.mcall x) := all _
theorem trap (x : XF) : Statement (.trap x) := all _
theorem yield (x : XF) : Statement (.yield x) := all _
theorem yieldW32 (w : WF) : Statement (.yieldW32 w) := all _
theorem waitf (x : XF) : Statement (.waitf x) := all _
theorem waitfW32 (w : WF) : Statement (.waitfW32 w) := all _
theorem exit (x : XF) : Statement (.exit x) := all _
theorem exitW32 (w : WF) : Statement (.exitW32 w) := all _
theorem getsr (x : XF) : Statement (.getsr x) := all _
theorem getsrW32 (w : WF) : Statement (.getsrW32 w) := all _
theorem iadd (x : XF) : Statement (.iadd x) := all _
theorem iaddW32 (w : WF) : Statement (.iaddW32 w) := all _
theorem iaddSatW32 (w : WF) : Statement (.iaddSatW32 w) := all _
theorem iaddH16 (h : HF) : Statement (.iaddH16 h) := all _
theorem isub (x : XF) : Statement (.isub x) := all _
theorem isubW32 (w : WF) : Statement (.isubW32 w) := all _
theorem isubSatW32 (w : WF) : Statement (.isubSatW32 w) := all _
theorem isubH16 (h : HF) : Statement (.isubH16 h) := all _
theorem imul (x : XF) : Statement (.imul x) := all _
theorem imulW32 (w : WF) : Statement (.imulW32 w) := all _
theorem imulh (x : XF) : Statement (.imulh x) := all _
theorem imulhI32W32 (w : WF) : Statement (.imulhI32W32 w) := all _
theorem imulhN32W32 (w : WF) : Statement (.imulhN32W32 w) := all _
theorem imla (x : XF) : Statement (.imla x) := all _
theorem imlalI32 (x : XF) : Statement (.imlalI32 x) := all _
theorem imlalN32 (x : XF) : Statement (.imlalN32 x) := all _
theorem imin (x : XF) : Statement (.imin x) := all _
theorem iminI32W32 (w : WF) : Statement (.iminI32W32 w) := all _
theorem iminN32W32 (w : WF) : Statement (.iminN32W32 w) := all _
theorem iminH16 (h : HF) : Statement (.iminH16 h) := all _
theorem imax (x : XF) : Statement (.imax x) := all _
theorem imaxI32W32 (w : WF) : Statement (.imaxI32W32 w) := all _
theorem imaxN32W32 (w : WF) : Statement (.imaxN32W32 w) := all _
theorem imaxH16 (h : HF) : Statement (.imaxH16 h) := all _
theorem iabs (x : XF) : Statement (.iabs x) := all _
theorem iabsW32 (w : WF) : Statement (.iabsW32 w) := all _
theorem ineg (x : XF) : Statement (.ineg x) := all _
theorem inegW32 (w : WF) : Statement (.inegW32 w) := all _
theorem iaddminI32 (x : XF) : Statement (.iaddminI32 x) := all _
theorem iaddminI16x2 (x : XF) : Statement (.iaddminI16x2 x) := all _
theorem and (x : XF) : Statement (.and x) := all _
theorem andW32 (w : WF) : Statement (.andW32 w) := all _
theorem andH16 (h : HF) : Statement (.andH16 h) := all _
theorem or (x : XF) : Statement (.or x) := all _
theorem orW32 (w : WF) : Statement (.orW32 w) := all _
theorem orH16 (h : HF) : Statement (.orH16 h) := all _
theorem xor (x : XF) : Statement (.xor x) := all _
theorem xorW32 (w : WF) : Statement (.xorW32 w) := all _
theorem xorH16 (h : HF) : Statement (.xorH16 h) := all _
theorem andn (x : XF) : Statement (.andn x) := all _
theorem andnW32 (w : WF) : Statement (.andnW32 w) := all _
theorem not (x : XF) : Statement (.not x) := all _
theorem notW32 (w : WF) : Statement (.notW32 w) := all _
theorem shl (x : XF) : Statement (.shl x) := all _
theorem shlW32 (w : WF) : Statement (.shlW32 w) := all _
theorem shlH16 (h : HF) : Statement (.shlH16 h) := all _
theorem shr (x : XF) : Statement (.shr x) := all _
theorem shrW32 (w : WF) : Statement (.shrW32 w) := all _
theorem shrH16 (h : HF) : Statement (.shrH16 h) := all _
theorem sar (x : XF) : Statement (.sar x) := all _
theorem sarW32 (w : WF) : Statement (.sarW32 w) := all _
theorem sarH16 (h : HF) : Statement (.sarH16 h) := all _
theorem rotl (x : XF) : Statement (.rotl x) := all _
theorem rotlW32 (w : WF) : Statement (.rotlW32 w) := all _
theorem shlImm (x : XF) : Statement (.shlImm x) := all _
theorem shlImmW32 (w : WF) : Statement (.shlImmW32 w) := all _
theorem shrImm (x : XF) : Statement (.shrImm x) := all _
theorem shrImmW32 (w : WF) : Statement (.shrImmW32 w) := all _
theorem sarImm (x : XF) : Statement (.sarImm x) := all _
theorem sarImmW32 (w : WF) : Statement (.sarImmW32 w) := all _
theorem rotlImm (x : XF) : Statement (.rotlImm x) := all _
theorem rotlImmW32 (w : WF) : Statement (.rotlImmW32 w) := all _
theorem clz (x : XF) : Statement (.clz x) := all _
theorem clzW32 (w : WF) : Statement (.clzW32 w) := all _
theorem popc (x : XF) : Statement (.popc x) := all _
theorem popcW32 (w : WF) : Statement (.popcW32 w) := all _
theorem brev (x : XF) : Statement (.brev x) := all _
theorem brevW32 (w : WF) : Statement (.brevW32 w) := all _
theorem bfxN32 (x : XF) : Statement (.bfxN32 x) := all _
theorem bfxI32 (x : XF) : Statement (.bfxI32 x) := all _
theorem bfi (x : XF) : Statement (.bfi x) := all _
theorem icmp (x : XF) : Statement (.icmp x) := all _
theorem icmpEqW32 (w : WF) : Statement (.icmpEqW32 w) := all _
theorem icmpNeW32 (w : WF) : Statement (.icmpNeW32 w) := all _
theorem icmpLtW32 (w : WF) : Statement (.icmpLtW32 w) := all _
theorem icmpLeW32 (w : WF) : Statement (.icmpLeW32 w) := all _
theorem icmpLtN32W32 (w : WF) : Statement (.icmpLtN32W32 w) := all _
theorem icmpLeN32W32 (w : WF) : Statement (.icmpLeN32W32 w) := all _
theorem sel (x : XF) : Statement (.sel x) := all _
theorem mov (x : XF) : Statement (.mov x) := all _
theorem movW32 (w : WF) : Statement (.movW32 w) := all _
theorem movH16 (h : HF) : Statement (.movH16 h) := all _
theorem movi (x : XF) : Statement (.movi x) := all _
theorem moviW32 (w : WF) : Statement (.moviW32 w) := all _
theorem movhi (x : XF) : Statement (.movhi x) := all _
theorem lea (x : XF) : Statement (.lea x) := all _
theorem fadd (x : XF) : Statement (.fadd x) := all _
theorem faddW32 (w : WF) : Statement (.faddW32 w) := all _
theorem faddH16 (h : HF) : Statement (.faddH16 h) := all _
theorem fsub (x : XF) : Statement (.fsub x) := all _
theorem fsubW32 (w : WF) : Statement (.fsubW32 w) := all _
theorem fsubH16 (h : HF) : Statement (.fsubH16 h) := all _
theorem fmul (x : XF) : Statement (.fmul x) := all _
theorem fmulW32 (w : WF) : Statement (.fmulW32 w) := all _
theorem fmulH16 (h : HF) : Statement (.fmulH16 h) := all _
theorem fmacRn (x : XF) : Statement (.fmacRn x) := all _
theorem fmacRz (x : XF) : Statement (.fmacRz x) := all _
theorem fmacRu (x : XF) : Statement (.fmacRu x) := all _
theorem fmacRd (x : XF) : Statement (.fmacRd x) := all _
theorem fmin (x : XF) : Statement (.fmin x) := all _
theorem fminW32 (w : WF) : Statement (.fminW32 w) := all _
theorem fminH16 (h : HF) : Statement (.fminH16 h) := all _
theorem fmax (x : XF) : Statement (.fmax x) := all _
theorem fmaxW32 (w : WF) : Statement (.fmaxW32 w) := all _
theorem fmaxH16 (h : HF) : Statement (.fmaxH16 h) := all _
theorem fcmp (x : XF) : Statement (.fcmp x) := all _
theorem fclass (x : XF) : Statement (.fclass x) := all _
theorem frint (x : XF) : Statement (.frint x) := all _
theorem frcp (x : XF) : Statement (.frcp x) := all _
theorem frsq (x : XF) : Statement (.frsq x) := all _
theorem fsqrt (x : XF) : Statement (.fsqrt x) := all _
theorem fex2 (x : XF) : Statement (.fex2 x) := all _
theorem flg2 (x : XF) : Statement (.flg2 x) := all _
theorem fsin (x : XF) : Statement (.fsin x) := all _
theorem fcos (x : XF) : Statement (.fcos x) := all _
theorem pkadd (x : XF) : Statement (.pkadd x) := all _
theorem pkaddF16x2W32 (w : WF) : Statement (.pkaddF16x2W32 w) := all _
theorem pkaddBf16x2W32 (w : WF) : Statement (.pkaddBf16x2W32 w) := all _
theorem pkmul (x : XF) : Statement (.pkmul x) := all _
theorem pkmulF16x2W32 (w : WF) : Statement (.pkmulF16x2W32 w) := all _
theorem pkmulBf16x2W32 (w : WF) : Statement (.pkmulBf16x2W32 w) := all _
theorem pkfmaF16x2 (x : XF) : Statement (.pkfmaF16x2 x) := all _
theorem pkfmaBf16x2 (x : XF) : Statement (.pkfmaBf16x2 x) := all _
theorem cvtF (x : XF) : Statement (.cvtF x) := all _
theorem cvtI (x : XF) : Statement (.cvtI x) := all _
theorem dxpack (x : XF) : Statement (.dxpack x) := all _
theorem dxunpk (x : XF) : Statement (.dxunpk x) := all _
theorem lperm (x : XF) : Statement (.lperm x) := all _
theorem lpermW32 (w : WF) : Statement (.lpermW32 w) := all _
theorem lshu (x : XF) : Statement (.lshu x) := all _
theorem lshuW32 (w : WF) : Statement (.lshuW32 w) := all _
theorem lshd (x : XF) : Statement (.lshd x) := all _
theorem lshdW32 (w : WF) : Statement (.lshdW32 w) := all _
theorem lxor (x : XF) : Statement (.lxor x) := all _
theorem lxorW32 (w : WF) : Statement (.lxorW32 w) := all _
theorem lrot (x : XF) : Statement (.lrot x) := all _
theorem pollAny (x : XF) : Statement (.pollAny x) := all _
theorem pollAll (x : XF) : Statement (.pollAll x) := all _
theorem pollMask (x : XF) : Statement (.pollMask x) := all _
theorem pollMaskW32 (w : WF) : Statement (.pollMaskW32 w) := all _
theorem leqMask (x : XF) : Statement (.leqMask x) := all _
theorem leqAll (x : XF) : Statement (.leqAll x) := all _
theorem redAdd (x : XF) : Statement (.redAdd x) := all _
theorem redMin (x : XF) : Statement (.redMin x) := all _
theorem redMax (x : XF) : Statement (.redMax x) := all _
theorem redAnd (x : XF) : Statement (.redAnd x) := all _
theorem redOr (x : XF) : Statement (.redOr x) := all _
theorem redXor (x : XF) : Statement (.redXor x) := all _
theorem redFadd (x : XF) : Statement (.redFadd x) := all _
theorem redFmin (x : XF) : Statement (.redFmin x) := all _
theorem redFmax (x : XF) : Statement (.redFmax x) := all _
theorem scanAdd (x : XF) : Statement (.scanAdd x) := all _
theorem ld (x : XF) : Statement (.ld x) := all _
theorem ldAcq (x : XF) : Statement (.ldAcq x) := all _
theorem ldSc (x : XF) : Statement (.ldSc x) := all _
theorem st (x : XF) : Statement (.st x) := all _
theorem stRel (x : XF) : Statement (.stRel x) := all _
theorem stSc (x : XF) : Statement (.stSc x) := all _
theorem atomRlx (x : XF) : Statement (.atomRlx x) := all _
theorem atomAcq (x : XF) : Statement (.atomAcq x) := all _
theorem atomRel (x : XF) : Statement (.atomRel x) := all _
theorem atomAr (x : XF) : Statement (.atomAr x) := all _
theorem atomSc (x : XF) : Statement (.atomSc x) := all _
theorem atoms (x : XF) : Statement (.atoms x) := all _
theorem lds (x : XF) : Statement (.lds x) := all _
theorem sts (x : XF) : Statement (.sts x) := all _
theorem feset (x : XF) : Statement (.feset x) := all _
theorem feclr (x : XF) : Statement (.feclr x) := all _
theorem ldfrag (x : XF) : Statement (.ldfrag x) := all _
theorem stashmap (x : XF) : Statement (.stashmap x) := all _
theorem stashflush (x : XF) : Statement (.stashflush x) := all _
theorem stashdrop (x : XF) : Statement (.stashdrop x) := all _
theorem pref (x : XF) : Statement (.pref x) := all _
theorem cclean (x : XF) : Statement (.cclean x) := all _
theorem cinv (x : XF) : Statement (.cinv x) := all _
theorem ldp (x : XF) : Statement (.ldp x) := all _
theorem stp (x : XF) : Statement (.stp x) := all _
theorem fence (x : XF) : Statement (.fence x) := all _
theorem bar (x : XF) : Statement (.bar x) := all _
theorem arrive (x : XF) : Statement (.arrive x) := all _
theorem waitb (x : XF) : Statement (.waitb x) := all _
theorem cpy (x : XF) : Statement (.cpy x) := all _
theorem cpy2 (x : XF) : Statement (.cpy2 x) := all _
theorem cpyt (x : XF) : Statement (.cpyt x) := all _
theorem cpyx (x : XF) : Statement (.cpyx x) := all _
theorem cpyz (x : XF) : Statement (.cpyz x) := all _
theorem cpyg (x : XF) : Statement (.cpyg x) := all _
theorem cpys (x : XF) : Statement (.cpys x) := all _
theorem cpym (x : XF) : Statement (.cpym x) := all _
theorem fill (x : XF) : Statement (.fill x) := all _
theorem cpyp (x : XF) : Statement (.cpyp x) := all _
theorem bseal (x : XF) : Statement (.bseal x) := all _
theorem bwait (x : XF) : Statement (.bwait x) := all _
theorem mwld (x : XF) : Statement (.mwld x) := all _
theorem mwldL2 (x : XF) : Statement (.mwldL2 x) := all _
theorem mma (x : XF) : Statement (.mma x) := all _
theorem mmaByp (x : XF) : Statement (.mmaByp x) := all _
theorem mdrain (x : XF) : Statement (.mdrain x) := all _
theorem mzero (x : XF) : Statement (.mzero x) := all _
theorem maccld (x : XF) : Statement (.maccld x) := all _
theorem maccst (x : XF) : Statement (.maccst x) := all _
theorem mstat (x : XF) : Statement (.mstat x) := all _
theorem launch (x : XF) : Statement (.launch x) := all _
theorem launchi (x : XF) : Statement (.launchi x) := all _
theorem signal (x : XF) : Statement (.signal x) := all _
theorem land (x : XF) : Statement (.land x) := all _
theorem landW32 (w : WF) : Statement (.landW32 w) := all _
theorem varq (x : XF) : Statement (.varq x) := all _
theorem ctxsv (x : XF) : Statement (.ctxsv x) := all _
theorem ctxld (x : XF) : Statement (.ctxld x) := all _
theorem ownget (x : XF) : Statement (.ownget x) := all _
theorem ownset (x : XF) : Statement (.ownset x) := all _
theorem lget (x : XF) : Statement (.lget x) := all _
theorem lset (x : XF) : Statement (.lset x) := all _
theorem xret (x : XF) : Statement (.xret x) := all _
theorem wqtake (x : XF) : Statement (.wqtake x) := all _
theorem fqtake (x : XF) : Statement (.fqtake x) := all _
theorem rwalk (x : XF) : Statement (.rwalk x) := all _
theorem tlbput (x : XF) : Statement (.tlbput x) := all _
theorem tlbkill (x : XF) : Statement (.tlbkill x) := all _
theorem tresume (x : XF) : Statement (.tresume x) := all _
theorem ownstall (x : XF) : Statement (.ownstall x) := all _
theorem cntr (x : XF) : Statement (.cntr x) := all _
theorem qosq (x : XF) : Statement (.qosq x) := all _
theorem errq (x : XF) : Statement (.errq x) := all _
theorem barrierGenerationComplete (grid level unit : Nat) : Statement (.barrierGenerationComplete grid level unit) := all _
theorem copyStart (core : Nat) : Statement (.copyStart core) := all _
theorem copySourceFailure (copy : Nat) : Statement (.copySourceFailure copy) := all _
theorem distillerBlock (copy : Nat) : Statement (.distillerBlock copy) := all _
theorem copyComplete (copy : Nat) : Statement (.copyComplete copy) := all _
theorem cpymFollowOn (copy : Nat) : Statement (.cpymFollowOn copy) := all _
theorem matrixCommandStart (cmd : Nat) : Statement (.matrixCommandStart cmd) := all _
theorem matrixCommandComplete (cmd : Nat) : Statement (.matrixCommandComplete cmd) := all _
theorem matrixStop (cmd steps : Nat) : Statement (.matrixStop cmd steps) := all _
theorem matrixResumeReload (core : Nat) : Statement (.matrixResumeReload core) := all _
theorem admission (vd queue : Nat) : Statement (.admission vd queue) := all _
theorem gridDispatch (grid : Nat) : Statement (.gridDispatch grid) := all _
theorem teamPlace (grid : Nat) : Statement (.teamPlace grid) := all _
theorem teamRetire (team : Nat) : Statement (.teamRetire team) := all _
theorem gridRetire (grid : Nat) : Statement (.gridRetire grid) := all _
theorem wcetOverrun (team : Nat) : Statement (.wcetOverrun team) := all _
theorem switchRequestPost (team target : Nat) : Statement (.switchRequestPost team target) := all _
theorem landingRemap (team : Nat) : Statement (.landingRemap team) := all _
theorem switchWithdrawTimeout (team : Nat) : Statement (.switchWithdrawTimeout team) := all _
theorem forwardProgressSwap (team : Nat) : Statement (.forwardProgressSwap team) := all _
theorem migration (team core : Nat) : Statement (.migration team core) := all _
theorem resultWriteback (flight : Nat) : Statement (.resultWriteback flight) := all _
theorem floatUnitComplete (flight : Nat) : Statement (.floatUnitComplete flight) := all _
theorem memoryComplete (op : Nat) : Statement (.memoryComplete op) := all _
theorem ldsWaitWake (op : Nat) : Statement (.ldsWaitWake op) := all _
theorem stashFill (op : Nat) : Statement (.stashFill op) := all _
theorem wcBufferWriteout (core line : Nat) : Statement (.wcBufferWriteout core line) := all _
theorem wayAllocation (part : Nat) : Statement (.wayAllocation part) := all _
theorem noProgressStall (vd : Nat) : Statement (.noProgressStall vd) := all _
theorem sliceEnd (part : Nat) : Statement (.sliceEnd part) := all _
theorem sliceStart (part : Nat) : Statement (.sliceStart part) := all _
theorem correctableError (unit addr : Nat) : Statement (.correctableError unit addr) := all _
theorem uncorrectableError (e : ErrorSite) : Statement (.uncorrectableError e) := all _
theorem qtailDoorbell (vd queue value : Nat) : Statement (.qtailDoorbell vd queue value) := all _
theorem hostPacketLaunch (vd queue : Nat) : Statement (.hostPacketLaunch vd queue) := all _
theorem hostPacketLaunchi (vd queue : Nat) : Statement (.hostPacketLaunchi vd queue) := all _
theorem hostPacketSignal (vd queue : Nat) : Statement (.hostPacketSignal vd queue) := all _
theorem hostPacketBadOp (vd queue : Nat) : Statement (.hostPacketBadOp vd queue) := all _
theorem qctlWrite (vd queue : Nat) (value : BitVec 32) : Statement (.qctlWrite vd queue value) := all _
theorem vdevtClear (vd : Nat) (value : BitVec 32) : Statement (.vdevtClear vd value) := all _
theorem vdctlStart (vd : Nat) : Statement (.vdctlStart vd) := all _
theorem xferreqSplit (vd : Nat) (offset : Nat) : Statement (.xferreqSplit vd offset) := all _
theorem xferreqMerge (vd : Nat) (offset : Nat) : Statement (.xferreqMerge vd offset) := all _
theorem xferreqToP (vd : Nat) (offset : Nat) : Statement (.xferreqToP vd offset) := all _
theorem xferreqToA (vd : Nat) (offset : Nat) : Statement (.xferreqToA vd offset) := all _
theorem xferComplete (vd : Nat) (entry : Nat) : Statement (.xferComplete vd entry) := all _
theorem hostCxlMemAccess (decoder : Nat) (acc : HostAccess) : Statement (.hostCxlMemAccess decoder acc) := all _
theorem birspReceived (vd entry line : Nat) (dirty : Option (List (BitVec 8))) : Statement (.birspReceived vd entry line dirty) := all _
theorem hostSnoop (line : Nat) (invalidate : Bool) : Statement (.hostSnoop line invalidate) := all _
theorem bar2Access (vd : Nat) (acc : PortAccess) : Statement (.bar2Access vd acc) := all _
theorem opctlStall (vd : Nat) : Statement (.opctlStall vd) := all _
theorem opctlResume (vd : Nat) : Statement (.opctlResume vd) := all _
theorem opctlReset (vd : Nat) : Statement (.opctlReset vd) := all _
theorem opctlPause (vd : Nat) : Statement (.opctlPause vd) := all _
theorem pauseDrained (vd : Nat) : Statement (.pauseDrained vd) := all _
theorem opctlSave (vd : Nat) : Statement (.opctlSave vd) := all _
theorem opctlLoad (vd : Nat) : Statement (.opctlLoad vd) := all _
theorem opctlUnpause (vd : Nat) : Statement (.opctlUnpause vd) := all _
theorem functionLevelReset (vd : Nat) : Statement (.functionLevelReset vd) := all _
theorem balWrite (vd n : Nat) (value : BitVec 64) : Statement (.balWrite vd n value) := all _
theorem balDropDone (vd : Nat) : Statement (.balDropDone vd) := all _
theorem hvstateWrite (vd : Nat) (value : BitVec 32) : Statement (.hvstateWrite vd value) := all _
theorem msixVectorUnmask (vd vector : Nat) : Statement (.msixVectorUnmask vd vector) := all _
theorem registerWrite (w : RegAccess) : Statement (.registerWrite w) := all _
theorem mgmtResetPlain : Statement (.mgmtResetPlain) := all _
theorem mgmtResetMinimal : Statement (.mgmtResetMinimal) := all _
theorem mgmtResetRetry : Statement (.mgmtResetRetry) := all _
theorem mgmtFlcWriteWord : Statement (.mgmtFlcWriteWord) := all _
theorem pctlApply (part : Nat) : Statement (.pctlApply part) := all _
theorem pctlTeardown (part : Nat) : Statement (.pctlTeardown part) := all _
theorem linkTraining (link : Nat) (far : FarEnd) : Statement (.linkTraining link far) := all _
theorem peerBlockArrival (b : PeerBlock) : Statement (.peerBlockArrival b) := all _
theorem clockStepSample (part watts : Nat) : Statement (.clockStepSample part watts) := all _
theorem thermalHold (gallery celsius : Nat) : Statement (.thermalHold gallery celsius) := all _
theorem thermalTrip (gallery : Nat) : Statement (.thermalTrip gallery) := all _
theorem packageStart : Statement (.packageStart) := all _
theorem watchdogExpiry : Statement (.watchdogExpiry) := all _
theorem mgmtException (cause epc tval : BitVec 64) : Statement (.mgmtException cause epc tval) := all _
theorem wdogWrite (value : BitVec 32) : Statement (.wdogWrite value) := all _
theorem bootokWrite (value : BitVec 32) : Statement (.bootokWrite value) := all _
theorem minimalWrite (value : BitVec 32) : Statement (.minimalWrite value) := all _
theorem rstreqClear (value : BitVec 32) : Statement (.rstreqClear value) := all _
theorem hsaHash : Statement (.hsaHash) := all _
theorem hsaVerify : Statement (.hsaVerify) := all _
theorem hsaExtend : Statement (.hsaExtend) := all _
theorem hsaOpDone : Statement (.hsaOpDone) := all _
theorem flcWriteWord : Statement (.flcWriteWord) := all _
theorem flcWriteDone (ok : Bool) : Statement (.flcWriteDone ok) := all _
theorem doeRequest (bytes : List (BitVec 8)) : Statement (.doeRequest bytes) := all _
theorem doeTxSend (len : BitVec 32) : Statement (.doeTxSend len) := all _
theorem doeRxRelease (value : BitVec 32) : Statement (.doeRxRelease value) := all _
theorem linkFailure (link : Nat) : Statement (.linkFailure link) := all _
theorem powerLoss : Statement (.powerLoss) := all _
theorem copyEngineBeat (copy : Nat) (answer : PeerAnswer) : Statement (.copyEngineBeat copy answer) := all _
theorem translationResolved (flight : Nat) : Statement (.translationResolved flight) := all _

end Sys2Proof.Laws.EncodedLength
end

