-- ==== Sys2Proof/Laws/Words.lean ====
section
/-!
SUPPORT. Words, pairs, masks and results: what each lane of a fixed-latency result holds.
-/

namespace Sys2Proof.Machine

theorem pair64_lo_hi (d : DWord) : pair64 (loWord d) (hiWord d) = d := by
  apply BitVec.eq_of_getLsbD_eq
  intro i hi
  unfold pair64 loWord hiWord
  rw [BitVec.getLsbD_append]
  by_cases h : i < 32
  · simp [h]
  · simp [h, show i - 32 < 32 by omega, show 32 + (i - 32) = i by omega]

/-- The sum of the chosen powers below 2^n. -/
theorem maskNat (p : Nat → Bool) (n : Nat) :
    (List.range n).foldl (fun a l => if p l then a + 2 ^ l else a) 0 < 2 ^ n
    ∧ ∀ l, ((List.range n).foldl (fun a l => if p l then a + 2 ^ l else a) 0).testBit l = (decide (l < n) && p l) := by
  induction n with
  | zero => simp
  | succ n ih =>
    obtain ⟨h1, h2⟩ := ih
    rw [List.range_succ, List.foldl_append]
    simp only [List.foldl_cons, List.foldl_nil]
    generalize (List.range n).foldl (fun a l => if p l then a + 2 ^ l else a) 0 = a at h1 h2
    by_cases hp : p n
    · simp only [hp, ↓reduceIte]
      refine ⟨by rw [Nat.pow_succ]; omega, fun l => ?_⟩
      rw [Nat.add_comm a]
      rcases Nat.lt_trichotomy l n with h | h | h
      · rw [Nat.testBit_two_pow_add_gt h, h2]; simp [h, Nat.lt_succ_of_lt h]
      · subst h; rw [Nat.testBit_two_pow_add_eq, h2]; simp [hp]
      · have : (2 ^ n + a).testBit l = false := by
          apply Nat.testBit_lt_two_pow
          calc 2 ^ n + a < 2 ^ (n + 1) := by rw [Nat.pow_succ]; omega
            _ ≤ 2 ^ l := Nat.pow_le_pow_right (by omega) h
        rw [this]; simp; omega
    · simp only [hp, Bool.false_eq_true, ↓reduceIte]
      refine ⟨by rw [Nat.pow_succ]; omega, fun l => ?_⟩
      rw [h2]
      by_cases h : l = n
      · subst h; simp [hp]
      · congr 1; simp; omega

theorem maskOf_getLsbD (p : Nat → Bool) (l : Nat) : (maskOf p).getLsbD l = (decide (l < 32) && p l) := by
  unfold maskOf wd laneIds
  rw [BitVec.getLsbD_ofNat, (maskNat p 32).2]
  simp

theorem mem_lanesOf {m : Word} {l : Nat} : l ∈ lanesOf m ↔ m.getLsbD l = true := by
  unfold lanesOf laneIds
  simp only [List.mem_filter, List.mem_range, and_iff_right_iff_imp]
  intro h
  exact BitVec.lt_of_getLsbD h

theorem pairs_getD (c : Ctx) (slot : Nat) (v : BitVec 8) {l : Nat} (h : l < 32) : (c.pairs slot v).getD l 0 = c.pairAt slot v l := by
  unfold Ctx.pairs Ctx.pairAt laneIds
  simp [List.getD, h]

/-- A one-word result, lane by lane. -/
theorem result32_out {i : Instr} {c : Ctx} {lat : Nat} {out : Ctx → Chk FixedOut} {f g : Nat → Word}
    (hf : fixedResult i = some (lat, out)) (ho : out c = .ok (c.out32 f)) (hl : c.Lands i lat (c.out32 f))
    (hg : ∀ l, l < 32 → f l = g l) : Result32 i c lat g :=
  ⟨out, _, hf, ho, hl, rfl, rfl, rfl, fun l hl => by rw [← hg l hl]; exact lanes_at_tab f hl⟩

/-- A pair result, lane by lane. -/
theorem result64_out {i : Instr} {c : Ctx} {lat : Nat} {out : Ctx → Chk FixedOut} {f g : Nat → DWord}
    (hf : fixedResult i = some (lat, out)) (ho : out c = .ok (c.out64 f)) (hl : c.Lands i lat (c.out64 f))
    (hg : ∀ l, l < 32 → f l = g l) : Result64 i c lat g :=
  ⟨out, _, (Lanes.tab fun l => hiWord (f l)), hf, ho, hl, rfl, rfl, rfl, fun l hl => by
    rw [← hg l hl]
    simp only [Ctx.out64]
    rw [lanes_at_tab _ hl, lanes_at_tab _ hl, pair64_lo_hi]⟩

/-- A predicate result, lane by lane. -/
theorem resultP_out {i : Instr} {c : Ctx} {lat : Nat} {out : Ctx → Chk (Word × Flags)} {p g : Nat → Bool} {fl : Flags}
    (hf : predResult i = some (lat, out)) (ho : out c = .ok (maskOf p, fl)) (hl : c.LandsP i lat (maskOf p) fl)
    (hg : ∀ l, l < 32 → p l = g l) :
    ResultP i c lat g fl :=
  ⟨out, _, hf, ho, hl, fun l hl => by rw [maskOf_getLsbD]; simp [hl, hg l hl]⟩

end Sys2Proof.Machine
end

