-- ==== Sys2Proof/Tests/Slice0.lean ====
section
/-!
SUPPORT. Tests. Words of every row decode as the manual encodes them; WellFormed refuses an ill-formed term for each check; and for
each statement of Certificates/Slice0/Obligations.lean, a state and operands that meet the hypotheses of each of its clauses, at
the ends of their ranges. No witness says what the model answers.
-/

open Sys2Proof Sys2Proof.Machine

namespace Sys2Proof.Tests

/- One theorem at a time: the kernel's evaluations need much stack. -/
set_option Elab.async false

/-! ### Decoding

Each row's word, written out from 02 R33 to R38, R55 to R60 and R63: in X64 d 0x11, a 0x22, b 0x33, c 0x44, set 15, distance 1; in
W32 the fields of the form, wait 2, distance 1; in H16 b 0x13, d 0x09, chain 1. -/

noncomputable def reads (n w : Nat) (i : Instr) : Bool :=
  match decode (leBytes n w) with
  | .ok (j, k) => i = j && k = n
  | .error _ => false

noncomputable def readsX (l : List (Nat × (XF → Instr))) : Bool :=
  l.all fun p => reads 8 p.1 (p.2 ⟨0x11, 0x22, 0x33, 0x44, false, 15, 0, 1, false⟩)

noncomputable def readsW (f : WF) (l : List (Nat × (WF → Instr))) : Bool := l.all fun p => reads 4 p.1 (p.2 f)

noncomputable def readsH (l : List (Nat × (HF → Instr))) : Bool := l.all fun p => reads 2 p.1 (p.2 ⟨0x09, 0x13, true⟩)

theorem test_decode_x64_control :
    readsX [(0x22199108801E0007, .nop), (0x22199108803E0007, .bra), (0x22199108805E0007, .brp), (0x22199108807E0007, .brez),
      (0x22199108809E0007, .jmp), (0x2219910880BE0007, .call), (0x2219910880DE0007, .ret), (0x22199108811E0007, .emget),
      (0x22199108813E0007, .emset), (0x22199108815E0007, .emand), (0x22199108817E0007, .emandn), (0x22199108821E0007, .mcall),
      (0x22199108823E0007, .trap), (0x22199108825E0007, .yield), (0x22199108827E0007, .waitf), (0x22199108829E0007, .exit),
      (0x2219910882BE0007, .getsr)] = true := by decide +kernel

theorem test_decode_x64_integer_a :
    readsX [(0x22199108881E0007, .iadd), (0x22199108883E0007, .isub), (0x22199108885E0007, .imul), (0x22199108887E0007, .imulh),
      (0x22199108889E0007, .imla), (0x2219910888BE0007, .imlalI32), (0x2219910888DE0007, .imlalN32), (0x2219910888FE0007, .imin),
      (0x22199108891E0007, .imax), (0x22199108893E0007, .iabs), (0x22199108895E0007, .ineg), (0x22199108897E0007, .iaddminI32),
      (0x22199108899E0007, .iaddminI16x2), (0x221991088A1E0007, .and), (0x221991088A3E0007, .or), (0x221991088A5E0007, .xor),
      (0x221991088A7E0007, .andn), (0x221991088A9E0007, .not), (0x221991088ABE0007, .shl), (0x221991088ADE0007, .shr),
      (0x221991088AFE0007, .sar), (0x221991088B1E0007, .rotl), (0x221991088B3E0007, .clz), (0x221991088B5E0007, .popc),
      (0x221991088B7E0007, .brev), (0x221991088B9E0007, .bfxN32)] = true := by decide +kernel

theorem test_decode_x64_integer_b :
    readsX [(0x221991088BBE0007, .bfxI32), (0x221991088BDE0007, .bfi), (0x221991088C1E0007, .icmp), (0x221991088C3E0007, .sel),
      (0x221991088C5E0007, .mov), (0x221991088C7E0007, .movi), (0x221991088C9E0007, .movhi), (0x221991088CBE0007, .lea),
      (0x221991088D1E0007, .shlImm), (0x221991088D3E0007, .shrImm), (0x221991088D5E0007, .sarImm), (0x221991088D7E0007, .rotlImm)] = true := by decide +kernel

theorem test_decode_x64_float_a :
    readsX [(0x22199108901E0007, .fadd), (0x22199108903E0007, .fsub), (0x22199108905E0007, .fmul), (0x22199108907E0007, .fmacRn),
      (0x22199108909E0007, .fmacRz), (0x2219910890BE0007, .fmacRu), (0x2219910890DE0007, .fmacRd), (0x2219910890FE0007, .fmin),
      (0x22199108911E0007, .fmax), (0x22199108913E0007, .fcmp), (0x22199108915E0007, .fclass), (0x22199108917E0007, .frint),
      (0x22199108921E0007, .frcp), (0x22199108923E0007, .frsq), (0x22199108925E0007, .fsqrt), (0x22199108927E0007, .fex2),
      (0x22199108929E0007, .flg2), (0x2219910892BE0007, .fsin), (0x2219910892DE0007, .fcos), (0x22199108931E0007, .pkadd),
      (0x22199108933E0007, .pkmul), (0x22199108935E0007, .pkfmaF16x2), (0x22199108937E0007, .pkfmaBf16x2), (0x22199108941E0007, .cvtF),
      (0x22199108943E0007, .cvtI), (0x22199108945E0007, .dxpack)] = true := by decide +kernel

theorem test_decode_x64_float_b :
    readsX [(0x22199108947E0007, .dxunpk)] = true := by decide +kernel

theorem test_decode_x64_cross_lane :
    readsX [(0x22199108981E0007, .lperm), (0x22199108983E0007, .lshu), (0x22199108985E0007, .lshd), (0x22199108987E0007, .lxor),
      (0x22199108989E0007, .lrot), (0x22199108991E0007, .pollAny), (0x22199108993E0007, .pollAll), (0x22199108995E0007, .pollMask),
      (0x22199108997E0007, .leqMask), (0x22199108999E0007, .leqAll), (0x221991089A1E0007, .redAdd), (0x221991089A3E0007, .redMin),
      (0x221991089A5E0007, .redMax), (0x221991089A7E0007, .redAnd), (0x221991089A9E0007, .redOr), (0x221991089ABE0007, .redXor),
      (0x221991089B1E0007, .redFadd), (0x221991089B3E0007, .redFmin), (0x221991089B5E0007, .redFmax), (0x221991089B9E0007, .scanAdd)] = true := by decide +kernel

theorem test_decode_x64_memory :
    readsX [(0x221991089C1E0007, .ld), (0x221991089C3E0007, .ldAcq), (0x221991089C5E0007, .ldSc), (0x221991089C9E0007, .st),
      (0x221991089CBE0007, .stRel), (0x221991089CDE0007, .stSc), (0x221991089D1E0007, .atomRlx), (0x221991089D3E0007, .atomAcq),
      (0x221991089D5E0007, .atomRel), (0x221991089D7E0007, .atomAr), (0x221991089D9E0007, .atomSc), (0x221991089E1E0007, .atoms),
      (0x221991089E3E0007, .lds), (0x221991089E5E0007, .sts), (0x221991089E7E0007, .feset), (0x221991089E9E0007, .feclr),
      (0x221991089EBE0007, .ldfrag), (0x221991089F1E0007, .stashmap), (0x221991089F3E0007, .stashflush), (0x221991089F5E0007, .stashdrop),
      (0x22199108A01E0007, .pref), (0x22199108A03E0007, .cclean), (0x22199108A05E0007, .cinv), (0x22199108A11E0007, .ldp),
      (0x22199108A13E0007, .stp)] = true := by decide +kernel

theorem test_decode_x64_order :
    readsX [(0x22199108A41E0007, .fence), (0x22199108A43E0007, .bar), (0x22199108A45E0007, .arrive), (0x22199108A47E0007, .waitb)] = true := by decide +kernel

theorem test_decode_x64_copy :
    readsX [(0x22199108A81E0007, .cpy), (0x22199108A83E0007, .cpy2), (0x22199108A85E0007, .cpyt), (0x22199108A87E0007, .cpyx),
      (0x22199108A89E0007, .cpyz), (0x22199108A8BE0007, .cpyg), (0x22199108A8DE0007, .cpys), (0x22199108A8FE0007, .cpym),
      (0x22199108A91E0007, .fill), (0x22199108A93E0007, .cpyp), (0x22199108A99E0007, .bseal), (0x22199108A9BE0007, .bwait)] = true := by decide +kernel

theorem test_decode_x64_matrix :
    readsX [(0x22199108AC1E0007, .mwld), (0x22199108AC3E0007, .mwldL2), (0x22199108AC5E0007, .mma), (0x22199108AC7E0007, .mmaByp),
      (0x22199108AC9E0007, .mdrain), (0x22199108ACBE0007, .mzero), (0x22199108ACDE0007, .maccld), (0x22199108ACFE0007, .maccst),
      (0x22199108AD1E0007, .mstat)] = true := by decide +kernel

theorem test_decode_x64_launch :
    readsX [(0x22199108B01E0007, .launch), (0x22199108B03E0007, .launchi), (0x22199108B05E0007, .signal), (0x22199108B07E0007, .land),
      (0x22199108B09E0007, .varq), (0x22199108B0BE0007, .ctxsv), (0x22199108B0DE0007, .ctxld)] = true := by decide +kernel

theorem test_decode_x64_owner :
    readsX [(0x22199108B41E0007, .ownget), (0x22199108B43E0007, .ownset), (0x22199108B45E0007, .lget), (0x22199108B47E0007, .lset),
      (0x22199108B49E0007, .xret), (0x22199108B4BE0007, .wqtake), (0x22199108B4DE0007, .rwalk), (0x22199108B4FE0007, .tlbput),
      (0x22199108B51E0007, .tlbkill), (0x22199108B53E0007, .fqtake), (0x22199108B55E0007, .tresume), (0x22199108B57E0007, .ownstall)] = true := by decide +kernel

theorem test_decode_x64_system :
    readsX [(0x22199108B81E0007, .cntr), (0x22199108B83E0007, .qosq), (0x22199108B85E0007, .errq)] = true := by decide +kernel

theorem test_decode_w32_fixed :
    readsW ⟨0x00, 0x00, 0x00, 2, 1⟩ [(0x00000025, .nopW32), (0x000002A5, .exitW32), (0x00000325, .yieldW32), (0x000003A5, .waitfW32)] = true := by decide +kernel

theorem test_decode_w32_a :
    readsW ⟨0x00, 0x22, 0x00, 2, 1⟩ [(0x022019A5, .emsetW32), (0x02201A25, .emandW32), (0x02201AA5, .emandnW32)] = true := by decide +kernel

theorem test_decode_w32_ab :
    readsW ⟨0x00, 0x22, 0x33, 2, 1⟩ [(0xCE202825, .landW32)] = true := by decide +kernel

theorem test_decode_w32_d :
    readsW ⟨0x11, 0x00, 0x00, 2, 1⟩ [(0x00045925, .emgetW32)] = true := by decide +kernel

theorem test_decode_w32_da :
    readsW ⟨0x11, 0x22, 0x00, 2, 1⟩ [(0x022449A5, .iabsW32), (0x02244A25, .inegW32), (0x02244E25, .notW32), (0x022452A5, .clzW32), (0x02245325, .popcW32),
      (0x022453A5, .brevW32), (0x02245825, .movW32), (0x02246625, .pollMaskW32)] = true := by decide +kernel

theorem test_decode_w32_dab :
    readsW ⟨0x11, 0x22, 0x33, 2, 1⟩ [(0xCE2440A5, .braW32), (0xCE244125, .brezW32), (0xCE2441A5, .brpAnyW32), (0xCE244225, .brpNoneW32), (0xCE244425, .iaddW32),
      (0xCE2444A5, .isubW32), (0xCE244525, .imulW32), (0xCE2445A5, .imulhI32W32), (0xCE244625, .imulhN32W32), (0xCE2446A5, .iminI32W32),
      (0xCE244725, .imaxI32W32), (0xCE2447A5, .iminN32W32), (0xCE244825, .imaxN32W32), (0xCE2448A5, .iaddSatW32), (0xCE244925, .isubSatW32),
      (0xCE244C25, .andW32), (0xCE244CA5, .orW32), (0xCE244D25, .xorW32), (0xCE244DA5, .andnW32), (0xCE244EA5, .shlW32),
      (0xCE244F25, .shrW32), (0xCE244FA5, .sarW32), (0xCE245025, .rotlW32), (0xCE2450A5, .shlImmW32), (0xCE245125, .shrImmW32),
      (0xCE2451A5, .sarImmW32), (0xCE245225, .rotlImmW32), (0xCE245425, .icmpEqW32), (0xCE2454A5, .icmpNeW32), (0xCE245525, .icmpLtW32),
      (0xCE2455A5, .icmpLeW32), (0xCE245B25, .getsrW32)] = true := by decide +kernel

theorem test_decode_w32_dab_2 :
    readsW ⟨0x11, 0x22, 0x33, 2, 1⟩ [(0xCE245625, .icmpLtN32W32), (0xCE2456A5, .icmpLeN32W32), (0xCE2458A5, .moviW32), (0xCE245C25, .faddW32), (0xCE245CA5, .fsubW32),
      (0xCE245D25, .fmulW32), (0xCE245DA5, .fminW32), (0xCE245E25, .fmaxW32), (0xCE246025, .pkaddF16x2W32), (0xCE2460A5, .pkmulF16x2W32),
      (0xCE246125, .pkaddBf16x2W32), (0xCE2461A5, .pkmulBf16x2W32), (0xCE246425, .lpermW32), (0xCE2464A5, .lshuW32), (0xCE246525, .lshdW32),
      (0xCE2465A5, .lxorW32)] = true := by decide +kernel

theorem test_decode_h16 :
    readsH [(0x9A46, .iaddH16), (0x9A4A, .isubH16), (0x9A66, .iminH16), (0x9A6A, .imaxH16), (0x9A4E, .andH16),
      (0x9A52, .orH16), (0x9A56, .xorH16), (0x9A5A, .shlH16), (0x9A5E, .shrH16), (0x9A62, .sarH16),
      (0x9A42, .movH16), (0x9A6E, .faddH16), (0x9A72, .fsubH16), (0x9A76, .fmulH16), (0x9A7A, .fminH16),
      (0x9A7E, .fmaxH16)] = true := by decide +kernel

/-! ### Well-formedness: an ill-formed term for each check, beside a well-formed one -/

/-- X64 fields with set 15 and no schedule. -/
def xf (d a b c : BitVec 8) : XF := ⟨d, a, b, c, false, 15, 0, 0, false⟩

/-- The first is well formed and the others are not. -/
def only (good : Instr) (bad : List Instr) : Bool := good.wf && bad.all fun i => !i.wf

/-- A set field other than 15 on kinds F and C, and 12 to 14 on kind V (02 R42). -/
theorem test_wf_set : only (.ld { xf 1 2 3 0 with set := 11 })
    [.ld { xf 1 2 3 0 with set := 12 }, .ld { xf 1 2 3 0 with set := 14 }, .iadd { xf 1 2 3 0 with set := 0 }, .nop { xf 0 0 0 0 with set := 11 }]
    = true := by decide +kernel

/-- WS on a row that has no register result (02 R44). -/
theorem test_wf_ws : only (.iadd { xf 1 2 3 0 with ws := true }) [.emset { xf 0 2 0 0 with ws := true }, .ld { xf 1 2 3 0 with ws := true }]
    = true := by decide +kernel

/-- An unused field that is not zero (02 R48). -/
theorem test_wf_unused : only (.nop (xf 0 0 0 0))
    [.nop (xf 1 0 0 0), .nop (xf 0 1 0 0), .nop (xf 0 0 1 0), .nop (xf 0 0 0 1), .not (xf 1 2 1 1)] = true := by decide +kernel

/-- Value bits outside their mask: BRP's mode, LEA's scope, a matrix tile. -/
theorem test_wf_bits : only (.brp (xf 0x1F 0 0 0)) [.brp (xf 0x20 0 0 0), .lea (xf 2 1 0 1), .mzero (xf 4 0 0 0), .mwld (xf 2 1 0 0)]
    = true := by decide +kernel

/-- The integer modifier byte (02 R50): a reserved or refused type, SAT where there is none, a condition outside ICMP or above 5. -/
theorem test_wf_mi : only (.icmp (xf 1 2 3 0xA1))
    [.icmp (xf 1 2 3 0xC0), .icmp (xf 1 2 3 0x02), .iadd (xf 1 2 3 0x20), .iadd (xf 1 2 3 9), .imul (xf 1 2 3 0x10), .and (xf 1 2 3 0)]
    = true := by decide +kernel

/-- The float modifier byte (02 R51): a refused type, rounding or SAT. -/
theorem test_wf_mf : only (.fadd (xf 1 2 3 0x30)) [.fadd (xf 1 2 3 0x40), .fadd (xf 1 2 3 1), .fadd (xf 1 2 3 0x80), .pkadd (xf 1 2 3 0)]
    = true := by decide +kernel

/-- CVT's source type, and a packed type against one that is not (06 R161). -/
theorem test_wf_convert : only (.cvtF (xf 1 2 0x10 1)) [.cvtF (xf 1 2 0x17 1), .cvtF (xf 1 2 0x08 1), .cvtF (xf 1 2 0x20 1), .cvtI (xf 1 2 0x15 0)]
    = true := by decide +kernel

/-- The memory bytes (02 R53): a reserved scope, mode, operation, order or fence. -/
theorem test_wf_memory : only (.ld (xf 1 2 3 5))
    [.ld (xf 1 2 3 6), .lds (xf 1 2 0 3), .sts (xf 1 2 0 1), .atomRlx (xf 1 2 3 0x68), .atomRlx (xf 1 2 3 0x06), .atomRlx (xf 1 2 3 0x80),
      .atoms (xf 1 2 0 0x05), .atoms (xf 1 2 0 0x68)] = true := by decide +kernel

theorem test_wf_fence : only (.fence (xf 0 0 0 0x25)) [.fence (xf 0 0 0 0x05), .fence (xf 0 0 0 0x28), .fence (xf 0 0 0 0x0E), .fence (xf 0 0 0 0x48)]
    = true := by decide +kernel

/-- GETSR's level where the selector takes none (02 R62). -/
theorem test_wf_level : only (.getsr (xf 1 2 0 1)) [.getsr (xf 1 1 0 1), .getsrW32 ⟨1, 0, 1, 0, 0⟩] = true := by decide +kernel

/-- W32: unused fields, a predicate above P7 in BRP, a negative LAND (02 R63). -/
theorem test_wf_w32 : only (.brpAnyW32 ⟨7, 0, 0, 0, 0⟩)
    [.brpAnyW32 ⟨8, 0, 0, 0, 0⟩, .landW32 ⟨0, 0, 32, 0, 0⟩, .nopW32 ⟨1, 0, 0, 0, 0⟩, .emgetW32 ⟨1, 1, 0, 0, 0⟩, .emsetW32 ⟨1, 0, 0, 0, 0⟩,
      .emandW32 ⟨0, 1, 1, 0, 0⟩, .movW32 ⟨1, 2, 1, 0, 0⟩, .pollMaskW32 ⟨1, 2, 1, 0, 0⟩] = true := by decide +kernel

/-- Events: an owner, queue, partition, link, gallery, core or vector that does not exist, and a DOE message too long. -/
theorem test_wf_events : only (.admission 383 7)
    [.admission 384 0, .admission 0 8, .qtailDoorbell 0 8 0, .balWrite 0 64 0, .msixVectorUnmask 0 16, .pctlApply 16, .clockStepSample 16 0,
      .linkFailure 12, .thermalTrip 4, .copyStart 288, .doeRequest (List.replicate 1025 0)] = true := by decide +kernel

/-! ### A small machine

Owner 1 runs in partition 0 on core 0. Flight 1, of team 1 of grid 1, is the current one, in quadrant 0. Registers V1 to V9 hold one
float in every lane; V20 to V23 are two uniform pairs and V24 is affine; every other register is general. -/

def rowOfWord (w : Word) : RegVal := .general (Lanes.tab fun _ => w)

def classes : List ShapeClass :=
  List.replicate 20 .general ++ List.replicate 4 .uniform ++ [.affine] ++ List.replicate 215 .general

def lane1 : Flight :=
  { Flight.fresh 1 1 0 1 0 0 .lane 0x1000 classes [] with
    regs := [(1, rowOfWord 0x7F800000), (2, rowOfWord 0xFF800000), (3, rowOfWord 0x7FC00000), (4, rowOfWord 0x7F800001),
      (5, rowOfWord 0x3F800000), (6, rowOfWord 0), (7, rowOfWord 0x80000000), (8, rowOfWord 0xBF800000), (9, rowOfWord 0x4F800000),
      (20, .uniform 0x3000), (22, .uniform 0x3001)] }

def part0 : Partition :=
  { Partition.reset 0 with
    active := true, halls := [0], groups := [0], svc := [0], atq := 64, power := 100, ppower := 100, turn := some 0, cycle := 50 }

def own1 : Owner := { Owner.reset 1 with enable := true, state := 1, vbase := 0x100000, vlimit := 0x200000, tvec := 0x2000 }

def team1 : Team := { Team.fresh 1 1 0 1 0 0 with bodies := [(2, [0x0000000000000003])] }

def variant0 : Variant where
  num := 0
  code := 0x1000
  classMap := classes
  rows := 64
  flights := 1
  isMatrix := false
  scratch := 4096
  wcet := 0
  waitTab := []
  macros := 0x9000
  mused := 4
  mlen := 1
  bodies := [(2, [0x0000000000000003])]
  landings := []

def grid1 : Grid where
  key := 1
  vd := 1
  queue := 0
  va := 0x4000
  pa := 0x4000
  pa2 := none
  isI := false
  source := .flight
  kernel := 0x8000
  state := .dispatched
  levels := [(1, 1), (2, 1)]
  producer := 0
  cls := 0
  varmask := 1
  variants := [variant0]
  buftab := 0
  asid := 0
  edgesIn := []
  edgesOut := []
  countVa := 0
  countMax := 0
  swap := []
  frameSz := 0x10000
  teams := 1
  next := 1
  bound := 0
  accepted := 10
  started := 20
  vstar := some 0
  reserved := []
  overrun := false
  clamped := false
  sigfail := false

def st : State :=
  { State.reset with
    cur := some 1, flights := [lane1], teams := [team1], grids := [grid1], owners := [own1], parts := [part0]
    quads := [{ Quad.reset 0 with lastTeam := 1, order := [1] }], mx := [] }

/-- `st` with another current flight. -/
def st.as (f : Flight) : State := { st with cur := some f.key, flights := [f] }

/-- Flight 1 collapsed onto lane 3, and as the walk flight. -/
def col1 : Flight := { lane1 with role := .collapsed 3, em := 8 }
def walk1 : Flight := { lane1 with role := .walk, em := 1, team := 0 }

/-- What AtIssue asks, for a flight outside any macro body. -/
def issues (v : View) (s : State) (f : Flight) : Bool :=
  s.curFlight = some f && f.macroStep = none && (!(rowOf v.op9).owner || f.role.isOwner) && v.encOk && v.opndOk
    && fieldsOk (rowOf v.op9) f v.x

theorem atIssue_of_issues {v : View} {s : State} {f : Flight} (h : issues v s f = true) : AtIssue v s f v.x := by
  simp only [issues, Bool.and_eq_true, decide_eq_true_eq, Bool.or_eq_true, Bool.not_eq_true'] at h
  obtain ⟨⟨⟨⟨⟨h1, h2⟩, h3⟩, h4⟩, h5⟩, h6⟩ := h
  refine ⟨h1, fun ho => ?_, fun hm => ?_, ?_, h4, h5, h6⟩
  · rcases h3 with h3 | h3
    · rw [h3] at ho; cases ho
    · exact h3
  · rw [h2] at hm; cases hm
  · unfold State.fieldsOf; rw [h2]

/-- Each X64 instruction of the list passes its checks for the flight. -/
def allIssue (s : State) (f : Flight) (l : List (Nat × XF)) : Bool := l.all fun p => issues (viewX p.1 p.2) s f

/-- The context of an X64 instruction of flight 1 in lane mode. -/
def at1 (op9 : Nat) (x : XF) : Ctx := Ctx.atIssue (viewX op9 x) st lane1 x

/-! ### Witnesses: states and operands that meet the hypotheses of the statements, clause by clause -/

/-- DecodeOfEncode, EncodeOfDecode: an instruction of each length. -/
theorem witness_DecodeOfEncode :
    (encode (.nop (xf 0 0 0 0))).map List.length = some 8 ∧ (encode (.nopW32 ⟨0, 0, 0, 0, 0⟩)).map List.length = some 4
    ∧ (encode (.iaddH16 ⟨3, 9, true⟩)).map List.length = some 2 := by decide +kernel

/-- What the turn at the head of the agenda fetches. -/
noncomputable def turns (s : State) (p : List Byte → State → Bool) : Bool :=
  match s.agenda with
  | .quad n :: rest =>
    match State.turn { s with agenda := rest } n with
    | .fetched t bytes => p bytes t
    | _ => false
  | _ => false

noncomputable def decodes (bytes : List Byte) : Bool :=
  match decode bytes with
  | .ok _ => true
  | .error _ => false

/-- StepRunsDecoded: a turn that fetches an instruction, one that fetches a reserved cell, an event. -/
theorem witness_StepRunsDecoded :
    turns (st.withFetchWord 32 0x00000001) (fun b _ => decodes b) = true
    ∧ turns (st.withFetchWord 64 0x0FFE0003) (fun b t => !decodes b && t.curFlight.isSome) = true
    ∧ ({ st with agenda := [.event .packageStart] } : State).agenda = .event .packageStart :: [] := by decide +kernel

theorem witness_StepRunsAtPC :
    let s := st.withFetchWord 32 0x00000001
    (match s.flight 1 with
      | some f =>
        f.quad = 0 && f.block = .none && !f.halted && !f.ended && f.pend = [] && f.poisoned = [] && f.macroStep = none && !f.chain.isOpen
          && f.lastIssue = none && f.yielding = none && f.waitCount = 0 && f.flags.all (· = 0)
          && (match s.fetchWord f with | .ok bytes => decodes bytes | .error _ => false)
      | none => false) = true
    ∧ s.agenda = [.quad 0] ∧ s.partitionOfCore (coreOfQuad 0) = some part0 ∧ s.part 0 = part0 ∧ (s.quad 0).turnCycle = none
    ∧ (s.quad 0).order = [1] ∧ s.memOps = [] ∧ s.vfu = [] ∧ s.copies = [] ∧ s.mxq = [] ∧ (∀ u ∈ s.teams, u.windows = [])
    ∧ (∀ o ∈ s.owners, ∀ e ∈ o.entries, e.owed = [])
    ∧ (match s.flight 1 with
      | some f => f.early = [] && (s.devHold (s.fetchAddrs f 4) (.op f.key)).isNone
      | none => false) = true := by decide +kernel

/-- StepKeepsForm. -/
theorem witness_StepKeepsForm :
    let s := st.withFetchWord 32 0x00000001
    memoryWf s = true ∧ (match step s with | .next _ => true | _ => false) = true := by decide +kernel

/-- ChecksTrapInOrder: an owner instruction in lane mode, a control instruction in a body, a refused encoding, a refused operand. -/
theorem witness_ChecksTrapInOrder :
    ((rowOf 0x1A4).owner = true ∧ lane1.role.isOwner = false) ∧ ({ lane1 with macroStep := some (2, 0) } : Flight).macroStep.isSome = true
    ∧ isControl 0x000 = true ∧ isControl 0x183 = false ∧ (viewX 0x000 (xf 1 0 0 0)).encOk = false ∧ isControl 0x040 = false
    ∧ (viewX 0x00A (xf 0 8 0 0)).encOk = true ∧ fieldsOk (rowOf 0x00A) lane1 (xf 0 8 0 0) = false
    ∧ (Instr.brpAnyW32 ⟨8, 0, 0, 0, 0⟩).view.map View.opndOk = some false ∧ st.curFlight = some lane1 := by decide +kernel

/-- TrapCollapsesFlight: with and without an open chain. -/
theorem witness_TrapCollapsesFlight :
    st.flight lane1.key = some lane1 ∧ lane1.role.isOwner = false ∧ lane1.pend = [] ∧ lane1.chain.isOpen = false
    ∧ ({ lane1 with chain := ⟨true, 0xFF8, 0, 1, List.replicate 4 none⟩ } : Flight).chain.isOpen = true := by decide +kernel

/-- OwnerModeStalls: OWNSTALL with the lowest reason it takes and the highest it does not. -/
theorem witness_OwnerModeStalls :
    col1.role.isOwner = true ∧ (st.as col1).flight 1 = some col1
    ∧ allIssue (st.as col1) col1 [(0x1AB, xf 0 0 0 0x80), (0x1AB, xf 0 0 0 0x7F)] = true := by decide +kernel

/-- TrapInstruction: in lane mode and in owner mode. -/
theorem witness_TrapInstruction :
    issues (viewX 0x011 (xf 0 0 0 0x21)) st lane1 = true ∧ issues (viewX 0x011 (xf 0 0 0 0x21)) (st.as col1) col1 = true := by
  decide +kernel

/-- XretReturns: a legal target, an odd one, one above bit 56, and a service flight. -/
theorem witness_XretReturns :
    let back (pc : DWord) : Flight := { col1 with trap := { col1.trap with tepc := pc } }
    (∀ f ∈ [back 0x1FFFFFFFFFFFFFE, back 0x1001, back 0x200000000000000, walk1], issues (viewX 0x1A4 (xf 0 0 0 0)) (st.as f) f = true)
    ∧ (0x1FFFFFFFFFFFFFE : DWord) >>> 57 = 0 ∧ (0x200000000000000 : DWord) >>> 57 ≠ 0 ∧ col1.role.isService = false
    ∧ walk1.role.isService = true := by decide +kernel

/-- FixedResultsComplete, and the hypotheses of Lands: a general destination, a pair, WS, and VZ; MSTAT while the team holds the array;
OWNGET of the first and the last register, through a pair, a register and VZ; LGET of a register, a latch and a predicate. -/
theorem witness_FixedResultsComplete :
    allIssue st lane1 [(0x040, xf 10 5 6 0), (0x040, xf 10 12 14 6), (0x040, { xf 10 5 6 0 with ws := true }), (0x040, xf 248 5 6 0)] = true
    ∧ (lane1.cls 10, lane1.cls 11) = (.general, .general)
    ∧ (∃ o, outIadd (at1 0x040 (xf 10 5 6 0)) = .ok o ∧ o.hi.isSome = false)
    ∧ (∃ o, outIadd (at1 0x040 (xf 10 12 14 6)) = .ok o ∧ o.hi.isSome = true)
    ∧ (lane1.role.isOwner = false ∧ (({ st with mx := [{ MxCore.reset 0 with team := some 1 }] } : State).mxCore lane1.core).team = some lane1.team)
    ∧ (0x7F ≤ 0x7F ∧ 0x40 ≤ 0x7F ∧ lane1.present 10 = true ∧ lane1.present 11 = true ∧ col1.role.isService = false)
    ∧ (∃ l, col1.role = .collapsed l) ∧ col1.present 239 = true ∧ col1.present 10 = true := by
  refine ⟨by decide +kernel, by decide +kernel, ⟨_, rfl, rfl⟩, ⟨_, rfl, rfl⟩, by decide +kernel, by decide +kernel, ⟨_, rfl⟩,
    by decide +kernel, by decide +kernel⟩

/-- The integer statements: every type from the first to the last. -/
theorem witness_integer_types : (List.range 9).all (fun t => (at1 0x047 (xf 10 5 6 (BitVec.ofNat 8 t))).itype = t) = true
    ∧ (at1 0x040 (xf 10 5 6 0x15)).itype = 5 ∧ (at1 0x040 (xf 10 5 6 0x15)).isat = true := by decide +kernel

/-- BitwiseAndShifts: counts in the immediate at both ends. -/
theorem witness_BitwiseAndShifts : allIssue st lane1 [(0x068, xf 10 5 0 31), (0x06B, xf 10 5 0 0)] = true
    ∧ (at1 0x068 (xf 10 5 0 31)).x.c.toNat = 31 := by decide +kernel

/-- CountsAndBitFields: a length of 0 in lane 0, of 1 in lane 1, of 32; a BFI position of 32 and of 31. -/
theorem witness_CountsAndBitFields :
    ((at1 0x05C (xf 10 5 249 249)).srcC.at 0).toNat = 0 ∧ ((at1 0x05C (xf 10 5 249 249)).srcC.at 1).toNat = 1
    ∧ min ((at1 0x05C (xf 10 5 249 5)).srcC.at 0).toNat 32 = 32
    ∧ ((at1 0x05E (xf 10 5 249 9)).srcC.at 0).toNat % 256 = 0 ∧ ((at1 0x05E (xf 10 5 249 249)).srcC.at 31).toNat % 256 = 31
    ∧ (0x0120 : Word).toNat % 256 = 32 ∧ (0x011F : Word).toNat / 256 % 256 = 1 := by decide +kernel

/-- CompareSelectAndMoves: the conditions EQ to GE, at a 32-bit and at a 64-bit type. -/
theorem witness_CompareSelectAndMoves :
    ((List.range 6).all fun k => (at1 0x060 (xf 1 5 6 (BitVec.ofNat 8 (32 * k)))).x.c.toNat / 32 = k
      && issues (viewX 0x060 (xf 1 10 12 (BitVec.ofNat 8 (32 * k + 7)))) st lane1) = true := by decide +kernel

/-- PredResultsComplete. -/
theorem witness_PredResultsComplete : allIssue st lane1 [(0x060, xf 1 5 6 0), (0x089, xf 2 5 6 0), (0x0C8, xf 3 1 0 0), (0x0C9, xf 7 7 0 0)] = true
    ∧ (∃ o, outIcmp (at1 0x060 (xf 1 5 6 0)) = .ok o) := by
  exact ⟨by decide +kernel, ⟨_, rfl⟩⟩

/-- ShapesAcceptOrTrap: a result that a uniform register takes and one that it does not, a pair of uniform registers that takes
neither half's departure, and the shape check with one active lane, with two, and with a difference that does not divide. -/
theorem witness_ShapesAcceptOrTrap :
    allIssue st lane1 [(0x062, xf 20 5 0 1), (0x062, xf 20 249 0 1), (0x062, xf 20 10 0 7), (0x062, xf 10 249 0 1)] = true
    ∧ (xf 20 5 0 1).ws = false ∧ (xf 239 5 0 1).d.toNat < 240 ∧ lane1.em ≠ 0
    ∧ fitShape .uniform 0 lane1.em (Lanes.tab fun _ => 7) = .ok (.uniform 7) ∧ fitShape .uniform 0 lane1.em (Lanes.tab wd) = .error 1
    ∧ formShape .uniform 0 2 (Lanes.tab fun l => if l = 7 then 1 else 0) = .error none
    ∧ formShape .uniform 0 0x80 (Lanes.tab fun l => if l = 7 then 1 else 0) = .error (some 7)
    ∧ lanesOf 0x10 = [4] ∧ lanesOf 0x90 = [4, 7] ∧ ((7 : Int) % ((7 : Int) - 4) ≠ 0) ∧ ((6 : Int) % ((7 : Int) - 4) = 0)
    ∧ (∃ o, outMov (at1 0x062 (xf 20 10 0 7)) = .ok o ∧ o.hi.isSome = true) := by
  refine ⟨by decide +kernel, by decide +kernel, by decide +kernel, by decide +kernel, by decide +kernel, by decide +kernel,
    by decide +kernel, by decide +kernel, by decide +kernel, by decide +kernel, by decide, by decide, ⟨_, rfl, rfl⟩⟩

/-- ResultsLand: one result that is due, with a later one, and with and without a latch. -/
theorem witness_ResultsLand :
    let p (due : Nat) (l : Option LatchPut) : Pending := ⟨due, [⟨10, 1, Lanes.tab wd, .general (Lanes.tab wd)⟩], [], l, 0⟩
    let f : Flight := { lane1 with pend := [p 50 (some ⟨3, 1, Lanes.tab wd⟩), p 51 none] }
    let g : Flight := { lane1 with pend := [p 50 none, p 51 none] }
    (st.as f).flight 1 = some f ∧ (st.as g).flight 1 = some g ∧ (p 50 none).due ≤ (st.as f).now f.vd ∧ (st.as f).now f.vd < (p 51 none).due
    ∧ ((st.as f).quad f.quad).lastTeam = f.latchTeam ∧ (3 : Nat) < ((st.as f).quad f.quad).latches.length := by decide +kernel

/-- ChainsAndLatches: no chain, the positions 6 and 7, and a latch with a valid writer. -/
theorem witness_ChainsAndLatches :
    let f (n : Nat) : Flight := { lane1 with chain := ⟨true, 0xFF8, 0, n, [none, none, none, some ⟨0x80000000, 50, Lanes.tab wd⟩]⟩ }
    let c (n : Nat) : Ctx := Ctx.atIssue (viewX 0x040 { xf 10 5 243 0 with chain := true }) (st.as (f n)) (f n) { xf 10 5 243 0 with chain := true }
    (at1 0x040 (xf 10 5 6 0)).f.chain.isOpen = false ∧ (c 6).f.chain.pos < 7 ∧ (c 7).f.chain.pos = 7 ∧ (c 7).f.macroStep = none
    ∧ (c 6).x.chain = true ∧ (c 6).len ≠ 4 ∧ isControl (c 6).op9 = false ∧ (c 6).op9 ≠ 0x183 ∧ (c 6).f.chain.writers.length = 4
    ∧ (c 6).f.chain.writers.getD 3 none = some ⟨0x80000000, 50, Lanes.tab wd⟩ ∧ 50 ≤ (c 6).now ∧ (0x80000000 : Word).getLsbD 31 = true := by decide +kernel

/-- FloatArithmetic, FloatOrderAndConversion, FloatUnit: the classes of operands. -/
theorem witness_float_operands :
    let v (a : BitVec 8) : Word := (at1 0x080 (xf 10 a a 0)).srcA.at 0
    (isInf32 (v 1) ∧ (v 1).msb = false) ∧ (isInf32 (v 2) ∧ (v 2).msb = true) ∧ (isNaN32 (v 3) ∧ ¬isSNaN32 (v 3)) ∧ isSNaN32 (v 4)
    ∧ finite32 (v 5) ∧ isZero32 (v 6) ∧ isZero32 (v 7) ∧ v 6 ≠ v 7 ∧ finite32 (v 8) ∧ (v 8).msb = true ∧ ¬isZero32 (v 8)
    ∧ (at1 0x080 (xf 10 5 5 0x30)).rnd = 3 ∧ (at1 0x080 (xf 10 5 5 0)).rnd = 0
    ∧ allIssue st lane1 [(0x080, xf 10 1 2 0x30), (0x082, xf 10 1 6 0), (0x086, xf 10 1 5 2), (0x087, xf 10 6 7 0)] = true := by
  decide +kernel

/-- FCMP's eight conditions; CVT.I from F32 at its first and last type and modes; 1.0 rounds to 1, and 2^32 lies above .I32. -/
theorem witness_FloatOrderAndConversion :
    ((List.range 8).all fun k => (at1 0x089 (xf 1 5 6 (BitVec.ofNat 8 (16 * k)))).rnd = k) = true
    ∧ (at1 0x0A1 (xf 10 5 0x10 0x45)).x.b = 0x10 ∧ (at1 0x0A1 (xf 10 5 0x10 0x45)).itype = 5 ∧ (at1 0x0A1 (xf 10 5 0x10 0x45)).rnd = 4
    ∧ (at1 0x0A1 (xf 10 9 0x10 0)).itype = 0 ∧ allIssue st lane1 [(0x0A1, xf 10 5 0x10 0x45), (0x0A1, xf 10 9 0x10 0)] = true
    ∧ (rangeT 0).2 < 2 ^ 32 ∧ (rangeT 0).1 ≤ 1 := by decide +kernel

theorem witness_val32 : val32 0x3F800000 = 1 ∧ val32 0x4F800000 = 2 ^ 32 := by
  decide +kernel

/-- LanesMoveAndCompare: distances at both ends, in lane mode and in owner mode; equal and unequal lanes. -/
theorem witness_LanesMoveAndCompare :
    allIssue st lane1 [(0x0C0, xf 10 5 249 0), (0x0C1, xf 10 5 0 0), (0x0C4, xf 10 5 0 31), (0x0C8, xf 1 7 0 0), (0x0CC, xf 10 5 0 0)] = true
    ∧ issues (viewX 0x0C3 (xf 10 5 0 31)) (st.as col1) col1 = true ∧ col1.role.ownerLane = 3
    ∧ (at1 0x0CC (xf 10 5 0 0)).srcA.at 0 = (at1 0x0CC (xf 10 5 0 0)).srcA.at 31
    ∧ (at1 0x0CC (xf 10 249 0 0)).srcA.at 0 ≠ (at1 0x0CC (xf 10 249 0 0)).srcA.at 31 := by decide +kernel

/-- ReductionsAndScan: both types. -/
theorem witness_ReductionsAndScan : (at1 0x0D1 (xf 10 5 0 0)).itype = 0 ∧ (at1 0x0D1 (xf 10 5 0 1)).itype = 1
    ∧ allIssue st lane1 [(0x0D1, xf 10 5 0 0), (0x0D2, xf 10 5 0 1), (0x0D8, xf 10 5 0 0), (0x0DC, xf 10 5 0 0)] = true := by decide +kernel

/-- FloatUnit: one that enters, and one in the unit that completes. -/
theorem witness_FloatUnit :
    let o : VfuOp := ⟨9, 1, 0x090, 0, 10, 0xFFFFFFFF, Lanes.tab fun _ => 0x3F800000, Lanes.tab fun _ => 0, some 3, 0x1000⟩
    let s : State := { st with vfu := [o] }
    allIssue st lane1 [(0x090, { xf 10 5 0 0 with set := 3 }), (0x096, xf 10 1 0 0), (0x0A2, xf 10 5 6 7), (0x0A3, xf 10 5 6 8)] = true
    ∧ s.flight 1 = some lane1 ∧ (s.vfu.find? fun o => o.flight = 1) = some o ∧ s.flightFrame lane1 = none ∧ s.regFrame lane1 o.dst = none
    ∧ o.dst < 240 ∧ lane1.cls o.dst = .general ∧ o.mask ≠ 0 := by decide +kernel

/-- ControlTransfers: branches with EM empty and not, BRP's four modes, transfers over a uniform pair, an odd target, a pair that is
not uniform, CALL to a uniform pair, to VZ and to a general pair; MCALL of a body, of none, and in owner mode. -/
theorem witness_ControlTransfers :
    allIssue st lane1 [(0x001, xf 0 0x10 0 0), (0x003, xf 0 0x10 0 0), (0x002, xf 0x01 4 0 0), (0x002, xf 0x09 4 0 0), (0x002, xf 0x11 4 0 0),
      (0x002, xf 0x1F 4 0 0), (0x004, xf 0 20 0 0), (0x006, xf 0 22 0 0), (0x004, xf 0 10 0 0), (0x005, xf 20 4 0 0), (0x005, xf 248 4 0 0),
      (0x005, xf 10 4 0 0), (0x010, xf 0 2 0 0), (0x010, xf 0 63 0 0)] = true
    ∧ issues (viewX 0x003 (xf 0 0x10 0 0)) (st.as { lane1 with em := 0 }) { lane1 with em := 0 } = true
    ∧ issues (viewX 0x010 (xf 0 2 0 0)) (st.as col1) col1 = true ∧ issues (viewX 0x005 (xf 20 4 0 0)) (st.as col1) col1 = true
    ∧ (lane1.cls 20, lane1.cls 21) = (.uniform, .uniform) ∧ lane1.cls 10 = .general
    ∧ ((at1 0x004 (xf 0 20 0 0)).pairAt 1 20 0).getLsbD 0 = false ∧ ((at1 0x004 (xf 0 20 0 0)).pairAt 1 20 0) >>> 57 = 0
    ∧ ((at1 0x006 (xf 0 22 0 0)).pairAt 1 22 0).getLsbD 0 = true
    ∧ issues (viewX 0x005 (xf 20 4 0 0)) (st.as { lane1 with em := 0x10 }) { lane1 with em := 0x10 } = true
    ∧ (st.body lane1 2).map List.length = some 1 ∧ st.body lane1 63 = none := by decide +kernel

/-- MaskAndSpecialValues: in lane mode and in owner mode; every selector, with a level of 0 for 2 and 3. -/
theorem witness_MaskAndSpecialValues :
    allIssue st lane1 ([(0x008, xf 10 0 0 0), (0x009, xf 0 5 0 0), (0x00A, xf 0 1 0 0), (0x00B, xf 0 7 0 0)]
      ++ (List.range 13).map fun n => (0x015, xf 10 (BitVec.ofNat 8 n) 0 0)) = true
    ∧ allIssue (st.as col1) col1 [(0x008, xf 10 0 0 0), (0x009, xf 0 5 0 0)] = true
    ∧ (at1 0x015 (xf 10 9 0 0)).s.team lane1.team = some team1 := by decide +kernel

/-- SchedulingAndExit: idle, with a flag up, and a service flight. -/
theorem witness_SchedulingAndExit :
    let busy : Flight := { lane1 with flags := [1] }
    let e := viewX 0x014 (xf 0 0 0 0)
    allIssue st lane1 [(0x012, xf 0 0 0 0), (0x013, xf 0 0 0 0), (0x014, xf 0 0 0 0)] = true ∧ (∀ n ∈ lane1.flags, n = 0)
    ∧ st.quiet lane1.key = true ∧ st.wcStuck lane1.key = false ∧ st.wc = [] ∧ st.barriers = [] ∧ issues e (st.as busy) busy = true ∧ (∃ n ∈ busy.flags, n ≠ 0)
    ∧ issues e (st.as col1) col1 = true ∧ issues e (st.as walk1) walk1 = true ∧ walk1.role.isService = true := by decide +kernel

/-- FencesAndBarriers: the orders 1 and 4, with nothing and with a load outstanding; levels at both ends; an arrival that is
pending and complete, pending and not; BAR at issue and waiting; a generation that is complete and one that is not. -/
theorem witness_FencesAndBarriers :
    let ld : MemOp := ⟨5, 1, .ld, 0, 1, 0, ⟨0, 0, 0, 0, 0⟩, 0, 10, 1, [], none, 0x1000⟩
    let s : State := { st with memOps := [ld] }
    let joined (n : Nat) (b : Block) : Flight := { lane1 with bars := ⟨some n, n + 1⟩ :: List.replicate 6 ⟨none, 0⟩, block := b }
    let gone : State := { st with flights := [{ lane1 with ended := true }] }
    let past (f : Flight) : State := { st.as f with barriers := [⟨1, 1, 0, 1, []⟩] }
    allIssue st lane1 [(0x120, xf 0 0 0 0x08), (0x120, xf 0 0 0 0x25), (0x122, xf 0 0 0 1), (0x123, xf 0 0 0 2), (0x123, xf 0 0 0 3),
      (0x121, xf 0 0 0 2)] = true
    ∧ issues (viewX 0x120 (xf 0 0 0 0x25)) s lane1 = true ∧ (ld.kind.accesses = true ∧ ld.kind.reads = true ∧ ld.flight = lane1.key)
    ∧ lane1.early = [] ∧ st.beforeArrival lane1 = []
    ∧ st.memberArrived grid1 { st.barrier 1 1 0 with arrived := [(1, [])] } 0 = true
    ∧ (st.unitOf lane1 1).map Prod.snd = some 0 ∧ lane1.bars.length = 7 ∧ (lane1.bar 1).pending = none ∧ st.wc = [] ∧ grid1.levels.length = 2
    ∧ issues (viewX 0x123 (xf 0 0 0 1)) (past (joined 0 .none)) (joined 0 .none) = true ∧ ((joined 0 .none).bar 1).pending = some 0
    ∧ ((past (joined 0 .none)).barrier 1 1 0).gen = 1 ∧ (st.barrier 1 1 0).gen ≤ 0
    ∧ issues (viewX 0x121 (xf 0 0 0 1)) (past (joined 0 (.barrier 1 0))) (joined 0 (.barrier 1 0)) = true
    ∧ st.grid grid1.key = some grid1 ∧ grid1.unitSize 1 = 1 ∧ gone.memberArrived grid1 (gone.barrier 1 1 0) 0 = true
    ∧ st.memberArrived grid1 (st.barrier 1 1 0) 0 = false := by decide +kernel

/-! Buffer records 0 to 10 of a table at 0x10000, under an identity translation of owner 1's first 2^40 bytes. -/

def mkRec (kind bounds base extent pitch ilm ilp menc : Nat) : BufRec :=
  ⟨dw (base + kind * 2 ^ 57 + bounds * 2 ^ 60), dw (extent + pitch / 16 * 2 ^ 40), dw (menc + ilm * 2 ^ 6 + ilp * 2 ^ 10), dw 0x28000, 0⟩

def recTable : List BufRec :=
  [mkRec 0 0 0 0 0 0 0 0, mkRec 1 0 0x20000 0x1000 0 0 0 0, mkRec 1 1 0x20000 64 0 0 0 0, mkRec 3 0 0x20000 64 0 0 0 0,
    mkRec 4 0 0x20000 256 0 0 0 0, mkRec 5 0 0 0 0 0 0 0, mkRec 2 0 0x20000 0x10000 64 1 2 0, mkRec 1 0 0x20000 0x1000 0 0 0 6,
    mkRec 1 0 0x20000 64 0 4 7 0, mkRec 1 0 (2 ^ 41) 0x1000 0 0 0 0, mkRec 1 1 0x20000 16 0 0 0 6]

def stM : State :=
  { st with
    mem := Memory.puts [] (bytesAt 0x10000 (recTable.flatMap fun r => [r.q0, r.q1, r.q2, r.q3, r.q4].flatMap fun q => leBytes 8 q.toNat))
    l1tlb := [(0, ⟨1, 0, 0, 2 ^ 40, 0, true, true, false⟩)], grids := [{ grid1 with buftab := 0x10000 }] }

def stM.as (f : Flight) : State := { stM with flights := [f] }

def atM (f : Flight) (op9 : Nat) (x : XF) : Ctx := Ctx.atIssue (viewX op9 x) (stM.as f) f x

def good {α : Type} : Chk α → Bool
  | .ok _ => true
  | .error _ => false

/-- A property of the record that an instruction reads, and of the context after. -/
def withRec (c : Ctx) (p : BufRec → Ctx → Bool) : Bool :=
  match c.record c.x.b.toNat with
  | .ok (r, c1) => p r c1
  | .error _ => false

def located (c : Ctx) (n disp align : Nat) (skip : Bool) (p : BufRec → Ctx → List LaneVa → Bool) : Bool :=
  withRec c fun r c1 => match c1.locateLanes r n disp align skip with
    | .ok ls => p r c1 ls
    | .error _ => false

/-- The lanes that read the number of the lane as an offset, and one that is active alone. -/
def low4 : Flight := { lane1 with em := 0xF }
def none1 : Flight := { lane1 with em := 0 }

/-- GlobalAddresses: extents that a lane meets exactly and passes, both BOUNDS, an alignment kept and missed, KIND 2 with its
swizzle, and KIND 1 with the first and the last swizzle position. -/
theorem witness_GlobalAddresses :
    let off (l : Nat) : Nat := ((atM lane1 0x0E0 (xf 10 249 8 0)).srcA.at l).toNat
    let r (bounds ext ilm ilp : Nat) : BufRec := mkRec 1 bounds 0x20000 ext 0 ilm ilp 0
    (r 0 64 4 7).isDx = false ∧ (r 0 64 4 26).ilp = 26 ∧ (r 1 35 0 0).bounds = 1 ∧ off 31 = 31 ∧ off 31 + 4 ≤ (r 0 35 0 0).extent
    ∧ ¬off 31 + 4 ≤ (r 0 34 0 0).extent ∧ (0x20000 + off 4) % 4 = 0 ∧ (0x20000 + off 5) % 4 ≠ 0
    ∧ (mkRec 2 0 0x20000 0x10000 64 1 2 0).kind = 2 ∧ (mkRec 2 0 0x20000 0x10000 64 1 2 0).pitch = 64
    ∧ located (atM lane1 0x065 (xf 10 249 1 0xF8)) 1 124 1 false (fun r _ _ => r.kind = 1) = true
    ∧ issues (viewX 0x065 (xf 10 249 1 0xF8)) (stM.as lane1) lane1 = true ∧ issues (viewX 0x065 (xf 10 249 1 0)) (stM.as none1) none1 = true
    ∧ (∀ u ∈ stM.teams, u.windows = []) ∧ (∀ o ∈ stM.owners, ∀ e ∈ o.entries, e.owed = []) := by decide +kernel

/-- GlobalAccesses: records that cannot be read, of no accepted kind, and of KIND 1; lanes out of extent, out of what translates,
and in both; the DX block in its right lanes, in others, clamped, and under EM zero; wide and narrow atomics. -/
theorem witness_GlobalAccesses :
    let ld (b : BitVec 8) (a : BitVec 8) : Ctx := atM low4 0x0E0 (xf 10 a b 0)
    let stx (f : Flight) (b a : BitVec 8) : Ctx := atM f 0x0E4 (xf 10 a b 0)
    good ((Ctx.atIssue (viewX 0x0E0 (xf 10 6 1 0)) st lane1 (xf 10 6 1 0)).record 1) = false
    ∧ [(0, 0), (5, 5), (3, 3), (4, 4), (1, 1), (6, 2), (10, 1)].all (fun p => withRec (ld (BitVec.ofNat 8 p.1) 6) fun r _ => r.kind = p.2) = true
    ∧ withRec (ld 1 5) (fun r c1 => !good (c1.locateLanes r 4 0 1 false)) = true
    ∧ located (ld 9 249) 4 0 1 false (fun r c1 ls => !good (c1.translateLanes r 4 .load ls)) = true
    ∧ located (ld 1 249) 4 0 1 false (fun r c1 ls => good (c1.translateLanes r 4 .load ls)) = true
    ∧ withRec (stx low4 7 249) (fun r _ => r.isDx && r.isDx8) = true
    ∧ ((stx low4 7 249).srcA.at 3).toNat = 3 ∧ ((stx low4 7 6).srcA.at 3).toNat ≠ 3
    ∧ located (stx low4 7 249) 1 0 1 false (fun _ _ ls => ls.all fun p => p.va.isSome) = true
    ∧ located (stx lane1 10 249) 1 0 1 false (fun _ _ ls => ls.any fun p => p.va.isNone) = true
    ∧ withRec (stx low4 7 249) (fun _ c1 => good (c1.s.translateRange low4 0x20000 16 .store 0) && good (c1.s.translateRange low4 0x28000 2 .store 0)) = true
    ∧ withRec (atM low4 0x0E8 (xf 10 249 1 0)) (fun r c1 => !good (c1.locateLanes r 4 0 4 false)) = true
    ∧ located (atM low4 0x0EC (xf 10 6 1 0x60)) 8 0 8 false (fun r c1 ls => good (c1.translateLanes r 8 .atomic ls)) = true
    ∧ located (atM low4 0x101 (xf 0 249 1 0)) 1 0 1 true (fun r c1 ls => good (c1.translateLanes { r with q2 := 0 } 1 .load ls)) = true
    ∧ located (atM low4 0x100 (xf 0 249 1 0)) 1 0 1 true (fun _ _ ls => ls.length = 4) = true
    ∧ allIssue (stM.as low4) low4 [(0x0E0, xf 10 249 1 0), (0x0E6, xf 10 249 1 5), (0x0E8, xf 10 249 1 0), (0x0EC, xf 10 6 1 0x60),
      (0x100, xf 0 249 1 0), (0x101, xf 0 249 1 0), (0x102, xf 0 249 1 0)] = true
    ∧ issues (viewX 0x0E4 (xf 10 249 7 0)) (stM.as none1) none1 = true := by decide +kernel

/-- ScratchAndPhysicalAccesses: offsets at both sides of the allocation, an atomic on and off its size; LDFRAG with an origin off 8
bytes, a pitch too small, a fragment outside and inside, and under EM zero; LDP off 8 bytes, at 2^52, outside the vestibule for the
walk flight. -/
theorem witness_ScratchAndPhysicalAccesses :
    let c := atM low4 0x0F1 (xf 10 249 0 0)
    let phys (v : DWord) (bal : List DWord) (role : Role) : State × Flight :=
      let f : Flight := { lane1 with role := role, em := 1, regs := [(12, rowOfWord (loWord v)), (13, rowOfWord (hiWord v))] }
      ({ st.as f with owners := [{ own1 with bal := bal }] }, f)
    let p (q : State × Flight) : Nat := ((Ctx.atIssue (viewX 0x108 (xf 10 12 0 0)) q.1 q.2 (xf 10 12 0 0)).pairAt 1 12 0).toNat
    let at' (v : DWord) (role : Role) : State × Flight := phys v (List.replicate 64 0) role
    (∀ u, (stM.as low4).team low4.team = some u → u.windows = []) ∧ c.allocation = 4096
    ∧ (4095 : Nat) / 4 * 4 < c.allocation ∧ c.allocation ≤ 4096 / 4 * 4
    ∧ (c.srcA.at 0).toNat % 8 = 0 ∧ (c.srcA.at 1).toNat % 8 ≠ 0
    ∧ allIssue (stM.as low4) low4 [(0x0F0, xf 10 249 0 0), (0x0F0, xf 12 6 0 0x58), (0x0F1, xf 10 249 0 0xFA), (0x0F2, xf 10 249 0 0),
      (0x0F3, xf 0 249 0 0), (0x0F4, xf 0 249 0 0), (0x0F5, xf 30 249 0 0), (0x0F5, xf 30 6 0 0xF8)] = true
    ∧ issues (viewX 0x0F5 (xf 30 249 0 0)) (stM.as none1) none1 = true
    ∧ (let w : Nat := 8 + 2 ^ 21 * 4; w % 2 ^ 19 % 8 = 0 ∧ 32 ≤ 8 * (w / 2 ^ 21) ∧ 8 + 31 * (8 * (w / 2 ^ 21)) + 31 < 4096)
    ∧ (let w : Nat := 4000 + 2 ^ 21 * 4; w % 2 ^ 19 % 8 = 0 ∧ 4096 ≤ 4000 + 31 * (8 * (w / 2 ^ 21)))
    ∧ (let w : Nat := 2 ^ 21 * 3; w % 2 ^ 19 % 8 = 0 ∧ 8 * (w / 2 ^ 21) < 32) ∧ (9 : Nat) % 8 ≠ 0
    ∧ issues (viewX 0x108 (xf 10 12 0 0)) (at' 8 .walk).1 (at' 8 .walk).2 = true
    ∧ issues (viewX 0x109 (xf 10 12 0 0)) (at' 8 (.fault 0)).1 (at' 8 (.fault 0)).2 = true
    ∧ lanesOf (at' 8 .walk).2.em = [(at' 8 .walk).2.role.ownerLane] ∧ p (at' 9 .walk) % 8 ≠ 0 ∧ p (at' 0x10000000000000 .walk) = 2 ^ 52
    ∧ own1.inVestibule 0x80000 8 = false ∧ own1.inVestibule 0x100000 8 = true := by decide +kernel

/-- The same, outside and inside the balustrade. -/
theorem witness_balustrade :
    own1.balustrade 0x100000 8 = none ∧ ({ own1 with bal := 0x100000011 :: List.replicate 63 0 } : Owner).balustrade 0x100000 8 = some false := by
  decide +kernel

/-- StashWindows at issue: a record of no kind that it accepts, of KIND 4; EM zero; a window that fits, at 0 and at the last place, and
one off 128 bytes; a window open and not. -/
def stashAt (f : Flight) (s : State) (op9 : Nat) (x : XF) (kind : Nat) : Bool :=
  issues (viewX op9 x) s f && withRec (Ctx.atIssue (viewX op9 x) s f x) fun r _ => r.kind = kind

def stashOff (n : Word) : Flight := { lane1 with regs := [(12, rowOfWord n)] }

def stashHeld : State := { stM with teams := [{ team1 with windows := [⟨4, 0, 256, 0x20000, [], []⟩] }] }

theorem witness_StashWindows :
    stashAt lane1 (stM.as lane1) 0x0F8 (xf 0 6 0 0) 0 = true ∧ stashAt lane1 (stM.as lane1) 0x0F8 (xf 0 6 3 0) 3 = true
    ∧ stashAt lane1 (stM.as lane1) 0x0F9 (xf 0 0 5 0) 5 = true
    ∧ stashAt (stashOff 0) (stM.as (stashOff 0)) 0x0F8 (xf 0 12 4 0) 4 = true
    ∧ stashAt (stashOff 64) (stM.as (stashOff 64)) 0x0F8 (xf 0 12 4 0) 4 = true
    ∧ stashAt none1 (stM.as none1) 0x0F8 (xf 0 6 4 0) 4 = true := by decide +kernel

theorem witness_StashWindows_open :
    stashAt lane1 stashHeld 0x0F9 (xf 0 0 4 0) 4 = true ∧ stashAt lane1 stashHeld 0x0FA (xf 0 0 4 0) 4 = true
    ∧ (stashHeld.team 1).map (fun u => u.windows.map Window.num) = some [4] ∧ stashHeld.memOps = []
    ∧ (mkRec 4 0 0x20000 256 0 0 0 0).base % 128 = 0 ∧ (mkRec 4 0 0x20000 256 0 0 0 0).extent = 256 ∧ 3840 + 256 ≤ 4096
    ∧ team1.windows = [] ∧ (stM.team lane1.team).isSome = true := by decide +kernel

def opAt (kind : MemKind) (lanes : List LaneAcc) : MemOp :=
  ⟨5, 1, kind, 0, 1, 0, mkRec 1 0 0x20000 0x1000 0 0 0 0, 4, 10, 1, lanes, some 3, 0x1000⟩

def laneAt (a n : Nat) : LaneAcc := { LaneAcc.none 0 with addrs := (List.range n).map fun i => a + i }

/-- STASH_FILL of a line that the core's L1 holds; STASHFLUSH and STASHDROP whose turn has come. -/
theorem witness_StashLines :
    let o := opAt (.lds 0) [{ laneAt 0x80 4 with scale := [0x80, 0x401] }]
    let u : Team := { team1 with windows := [⟨4, 0, 256, 0x20000, [], []⟩] }
    let s : State := { st with memOps := [o], teams := [u], lines := [⟨.l1 0, 0x401, .E, 1, 5, List.replicate 128 7, 0, 0, false⟩] }
    let d := opAt .stashdrop []
    let s' : State := { st with memOps := [d], teams := [u] }
    s.memOp o.key = some o ∧ o.kind.isScratch = true ∧ s.flight o.flight = some lane1 ∧ s.team lane1.team = some u ∧ u.key = lane1.team
    ∧ o.lanes.all (fun a => a.scale = [0 + 128 * 1, 0x401]) = true ∧ 128 * 1 + 128 ≤ 256 ∧ s.mapped (128 * 0x401) = true
    ∧ s.teams = [u] ∧ o.lanes ≠ [] ∧ s.pinned 0x401 = false ∧ (∀ x ∈ s.lines, x.state ≠ .M) ∧ (s.line 0x401).length = 128 ∧ u.scratch.wf = true
    ∧ (s.devHold ((List.range 128).map fun i => 128 * 0x401 + i) (.op o.key)).isNone = true
    ∧ s'.memOp d.key = some d ∧ s'.flightFrame lane1 = none ∧ d.mask ≠ 0 ∧ s'.inOrder d = true
    ∧ ({ s' with memOps := [opAt .stashflush []] } : State).inOrder (opAt .stashflush []) = true
    ∧ (∀ w ∈ u.windows, w.dirty = []) := by decide +kernel

/-- MemoryCompletes: each kind, when its turn has come and when an earlier store to the same bytes is outstanding; poisoned data. -/
theorem witness_MemoryCompletes :
    let s (o : MemOp) (before : List MemOp) (poison : List Nat) : State :=
      { st with memOps := before ++ [o], poison := poison, lines := [⟨.l1 0, 0x401, .E, 1, 5, List.replicate 128 7, 0, if poison = [] then 0 else 8, false⟩] }
    let l := laneAt (128 * 0x401) 8
    let ok (k : MemKind) (before : List MemOp) (ready : Bool) : Bool :=
      let o := opAt k [if k = .ld || k = .st then laneAt (128 * 0x401) 4 else l]
      let s := s o before []
      s.memOp o.key = some o && s.flight o.flight = some lane1 && (s.flightFrame lane1).isNone && (s.devHold o.bytes (.op o.key)).isNone
        && s.inOrder o = ready && !s.pinHolds o && (o.bytes.all fun b => s.mapped b && s.holds (.l1 0) (b / 128) && (s.line (b / 128)).length = 128)
    (∀ k ∈ [MemKind.ld, .st, .ldp, .stp, .atom 0, .atom 12], ok k [] true = true)
    ∧ ok .ld [{ opAt .st [laneAt (128 * 0x401) 4] with key := 4 }] false = true
    ∧ (List.range 240).all (fun r => ((s (opAt .ld [l]) [] []).regFrame lane1 r).isNone) = true ∧ lane1.role.isService = false
    ∧ lane1.cls 10 = .general ∧ lane1.cls 11 = .general ∧ (opAt .ld [l]).record.isDx = false ∧ (opAt .ld [l]).mask ≠ 0
    ∧ (∃ b ∈ l.addrs, (s (opAt .ld [l]) [] [128 * 0x401 + 3]).badByte b = true) := by
  decide +kernel

/-- AtomicUpdates: lanes with the same bytes, and one that is clamped; a float sum that is exact. -/
theorem witness_AtomicUpdates : (laneAt 0x20000 4).addrs.Nodup ∧ (laneAt 0x20000 4).addrs ≠ [] ∧ (LaneAcc.none 1).addrs = []
    ∧ finite32 0x3F800000 ∧ val32 0x40000000 = val32 0x3F800000 + val32 0x3F800000 ∧ val32 0x40000000 ≠ 0 := by decide +kernel

/-- ScratchCompletes: each kind over granules that are Empty, Full and poisoned. -/
theorem witness_ScratchCompletes :
    let u (g : Granule) : Team := { team1 with granules := [(0, g)] }
    let o (k : MemKind) : MemOp := opAt k [laneAt 0 4]
    let s (k : MemKind) (g : Granule) : State := { st with memOps := [o k], teams := [u g] }
    (∀ k ∈ [MemKind.lds 0, .lds 1, .lds 2, .sts, .atoms 0, .atoms 12, .feset, .feclr, .ldfrag], ∀ g ∈ [Granule.empty, .full, .poisonedError],
      (s k g).memOp 5 = some (o k) ∧ (s k g).flight 1 = some lane1 ∧ (s k g).team 1 = some (u g) ∧ (u g).scratch.wf = true
      ∧ (s k g).wc = [] ∧ (∀ w ∈ (s k g).owners, ∀ e ∈ w.entries, e.owed = []) ∧ (∀ n, n < 8 → lane1.cls (10 + n) = .general)
      ∧ (u g).state = .resident ∧ (u g).windows = [] ∧ (u g).spills = [] ∧ lane1.role = .lane ∧ (o k).mask ≠ 0 ∧ (s k g).inOrder (o k) = true)
    ∧ (u .empty).gran 0 = .empty ∧ (u .full).gran 0 = .full := by decide +kernel

/-- WritesLeaveAndLookupsResolve: a gathered line of tier 2; a lookup that the L2 TLB serves, one that nothing serves, and none. -/
theorem witness_WritesLeaveAndLookupsResolve :
    let w : WcLine := ⟨0, 1, 1, 0x100000000, [(0x8000000001, 9)]⟩
    let s : State := { st with wc := [w] }
    let f : Flight := { lane1 with block := .lookup 0x5008 .load 2 }
    let e : TlbEntry := ⟨1, 0, 0x5000, 4096, 0x7000, false, false, false⟩
    let s' : State := { st.as f with l2tlb := [(0, e)] }
    s.pinned w.line = false ∧ (∀ u ∈ s.teams, u.windows = []) ∧ s.mapped 0x8000000001 = true ∧ 0x8000000001 / 128 = w.line ∧ (s.cached w.line).isNone = true ∧ llcMay w.line = false
    ∧ memoryWf s = true ∧ s'.flight f.key = some f ∧ f.block = .lookup 0x5008 .load 2 ∧ (tlbFind s'.l1tlb 0 1 (s'.asidOf f) 0x5008).isNone = true
    ∧ tlbFind s'.l2tlb 0 1 (s'.asidOf f) 0x5008 = some e ∧ AccessKind.load.allowed e = true ∧ s'.l1tlb = []
    ∧ (tlbFind (st.as f).l2tlb 0 1 0 0x5008).isNone = true ∧ (tlbFind (st.as f).l3tlb ((st.as f).bankOf 1 0x5008) 1 0 0x5008).isNone = true
    ∧ ((st.as f).owner 1).walks = [] ∧ lane1.block = .none := by decide +kernel

/-- `stM` with a map record 11 in the scratchpad, and with arcade lane 3 in the partition. -/
def stC : State :=
  { stM with
    mem := Memory.puts [] (bytesAt 0x10000 ((recTable ++ [mkRec 3 0 0x100 0x1000 64 0 0 0]).flatMap fun r =>
      [r.q0, r.q1, r.q2, r.q3, r.q4].flatMap fun q => leBytes 8 q.toNat))
    parts := [{ part0 with arc := [3] }] }

def stC.as (f : Flight) : State := { stC with flights := [f] }

def copyF (a b n : DWord) : Flight :=
  { lane1 with regs := (30, rowOfWord (loWord a)) :: (31, rowOfWord (hiWord a)) :: (32, rowOfWord (loWord b)) ::
      (33, rowOfWord (hiWord b)) :: (34, rowOfWord (loWord n)) :: (35, rowOfWord (hiWord n)) :: lane1.regs }

/-- A locator of an offset, with SPACE, record, encoding and LINK; a pair of two words. -/
def loc (off space rec enc link : Nat) : DWord := BitVec.ofNat 64 (off + 2 ^ 32 * (rec + 2 ^ 8 * space + 2 ^ 10 * enc + 2 ^ 16 * link))
def two (lo hi : Nat) : DWord := BitVec.ofNat 64 (lo + 2 ^ 32 * hi)

/-- Which check of CopiesQueue stops the copy: 0 rights or fields, 1 limits, 2 a record, 3 whole blocks or overlap, 4 alignment, 5 a
lane's alignment, 6 bounds of the source, 7 bounds of the destination; 8 where it enters. -/
def copyStage (form : CopyForm) (op9 : Nat) (a b n : DWord) : Nat :=
  let f := copyF a b n
  let x := xf 20 30 32 34
  let c := Ctx.atIssue (viewX op9 x) (stC.as f) f x
  if !(issues (viewX op9 x) (stC.as f) f && c.isProducer) then 0
  else if !(copyLimits form (loWord n).toNat (hiWord n).toNat (locSpace (hiWord a)) (locSpace (hiWord b)))
    || (form = .cpyp && !(stC.as f).linkOk f.vd (locLink (hiWord a))) then 1
  else match c.copySide form true (loWord a).toNat (hiWord a) with
    | .error _ => 2
    | .ok (dst, c1) =>
      match (if form = .fill then (.ok ({ Side.none with off := (loWord b).toNat }, c1) : Chk (Side × Ctx))
        else c1.copySide form false (loWord b).toNat (hiWord b)) with
      | .error _ => 2
      | .ok (src, c2) =>
        match (if form = .cpyz then c2.copyRec ((hiWord n).toNat % 256) [1, 2] else (.ok (BufRec.zero, c2) : Chk (BufRec × Ctx))) with
        | .error _ => 2
        | .ok (table, _) =>
          let lanes : List (Nat × Nat) := match form with
            | .cpyg => (lanesOf f.em).map fun l => (l, (c.srcB.at l).toNat)
            | .cpys => (lanesOf f.em).map fun l => (l, (c.srcA.at l).toNat)
            | _ => []
          let k := c.copyOf form dst src (loWord n) (hiWord n) table lanes
          if !(k.dxWhole = true ∧ k.overlaps = false) then 3
          else if k.misaligned (loWord a).toNat (loWord b).toNat then 4
          else if lanes.any fun p => p.2 % 4 ≠ 0 then 5
          else if (k.outOfBounds c.allocation false).isSome then 6
          else if (k.outOfBounds c.allocation true).isSome then 7 else 8

/-- CopiesQueue: each form enters, at boundary values. -/
theorem witness_CopiesQueue :
    copyStage .cpy 0x140 (loc 0 1 0 0 0) (loc 0 0 1 0 0) (two 4096 0) = 8 ∧ copyStage .cpy 0x140 (loc 0 1 0 0 0) (loc 0 0 1 0 0) (two 0 0) = 8
    ∧ copyStage .cpy2 0x141 (loc 0 1 0 0 0) (loc 0 0 1 0 0) (two 4 1) = 8
    ∧ copyStage .cpyt 0x142 (loc 0 0 11 0 0) (loc 0 0 1 0 0) (two 31 0) = 8
    ∧ copyStage .cpyx 0x143 (loc 0 1 0 1 0) (loc 0 0 1 0 0) (two 32 0) = 8
    ∧ copyStage .cpyz 0x144 (loc 0 1 0 0 0) (loc 0 0 1 0 0) (two 1 2) = 8
    ∧ copyStage .cpyg 0x145 (loc 0 1 0 0 0) (loc 0 0 1 0 0) (two 128 0) = 8
    ∧ copyStage .cpys 0x146 (loc 0 0 1 0 0) (loc 0 1 0 0 0) (two 4 0) = 8
    ∧ copyStage .cpym 0x147 (loc 0 0 11 0 0) (loc 0 0 1 0 0) (two 31 1) = 8
    ∧ copyStage .fill 0x148 (loc 0 1 0 0 0) (two 7 0) (two 64 0) = 8
    ∧ copyStage .cpyp 0x149 (loc 0 2 1 0 3) (loc 0 1 0 0 0) (two 64 0) = 8 := by decide +kernel

/-- Each check stops one. -/
theorem witness_CopiesQueue_stops :
    copyStage .cpy 0x140 (loc 0 1 0 0 0) (loc 0 0 1 0 0) (two 2 0) = 1 ∧ copyStage .cpyp 0x149 (loc 0 2 1 0 4) (loc 0 1 0 0 0) (two 64 0) = 1
    ∧ copyStage .cpy 0x140 (loc 0 1 0 0 0) (loc 60 1 0 0 0) (two 64 0) = 3
    ∧ copyStage .cpyx 0x143 (loc 0 1 0 6 0) (loc 0 0 1 0 0) (two 31 0) = 3
    ∧ copyStage .cpy 0x140 (loc 8 1 0 0 0) (loc 0 0 1 0 0) (two 4 0) = 4
    ∧ copyStage .cpyg 0x145 (loc 0 1 0 0 0) (loc 0 0 1 0 0) (two 4 0) = 8
    ∧ copyStage .cpys 0x146 (loc 2 0 1 0 0) (loc 0 1 0 0 0) (two 4 0) = 4
    ∧ copyStage .cpy 0x140 (loc 0 1 0 0 0) (loc 4 0 1 0 0) (two 4096 0) = 6
    ∧ copyStage .cpy 0x140 (loc 16 1 0 0 0) (loc 0 0 1 0 0) (two 4096 0) = 7 := by decide +kernel

/-- Another flight, the walk flight, a status register of class general, EM zero; CPYG with an offset off 4 in one lane. -/
theorem witness_CopiesQueue_rights :
    let other : Flight := { lane1 with index := 1 }
    let x := xf 20 30 32 34
    let c (f : Flight) : Ctx := Ctx.atIssue (viewX 0x140 x) (stC.as f) f x
    let g : Flight := { lane1 with regs := (32, .general (Lanes.tab fun l => BitVec.ofNat 32 (if l = 3 then 2 else 0))) ::
      (31, rowOfWord 0x100) :: (33, rowOfWord 1) :: (34, rowOfWord 4) :: lane1.regs }
    let cg := Ctx.atIssue (viewX 0x145 x) (stC.as g) g x
    issues (viewX 0x140 x) (stC.as other) other = true ∧ (c other).isProducer = false
    ∧ issues (viewX 0x140 (xf 248 30 32 34)) (stC.as walk1) walk1 = true
    ∧ issues (viewX 0x140 (xf 10 30 32 34)) (stC.as lane1) lane1 = true ∧ lane1.cls 10 = .general ∧ (c lane1).isProducer = true
    ∧ issues (viewX 0x140 x) (stC.as none1) none1 = true ∧ (c none1).isProducer = true ∧ none1.cls 20 = .uniform
    ∧ issues (viewX 0x145 x) (stC.as g) g = true ∧ (cg.srcB.at 3).toNat % 4 ≠ 0 ∧ (cg.srcB.at 2).toNat % 4 = 0
    ∧ copyLimits .cpyg 4 0 1 0 = true := by decide +kernel

def copyFor (form : CopyForm) (state : CopyState) (dst src : Side) (n c1 : Nat) : Copy :=
  { (Ctx.atIssue (viewX 0x140 (xf 248 30 32 34)) st lane1 (xf 248 30 32 34)).copyOf form dst src
      (BitVec.ofNat 32 n) (BitVec.ofNat 32 c1) BufRec.zero [] with key := 5, state := state }

def padSide (off : Nat) : Side := ⟨1, BufRec.zero, off, 0, 0, false, 0, 0⟩

/-- BSEAL and BWAIT of batches 2 and 7, with copies of the flight outstanding and not. -/
theorem witness_CopiesQueue_batches :
    let s : State := { st with copies := [copyFor .cpy .active (padSide 0) (padSide 64) 64 0], teams := [{ team1 with batches := [0, 0, 1] }] }
    let c := Ctx.atIssue (viewX 0x14C (xf 10 0 0 7)) s lane1 (xf 10 0 0 7)
    issues (viewX 0x14C (xf 10 0 0 7)) s lane1 = true
    ∧ issues (viewX 0x14D (xf 0 0 0 2)) s lane1 = true ∧ issues (viewX 0x14D (xf 0 0 0 7)) s lane1 = true
    ∧ c.isProducer = true ∧ c.x.d = 10 ∧ lane1.cls 10 = .general ∧ s.batchCount lane1 2 = 1 ∧ s.batchCount lane1 7 = 0
    ∧ lane1.role ≠ .walk ∧ lane1.role.isService = false ∧ s.team lane1.team ≠ none := by decide +kernel

/-- CopiesMove: a core with nothing to start, with 8 under way, with one to start behind one of an owner that does not run. -/
theorem witness_CopiesMove_start :
    let k := copyFor .cpy .queued (padSide 0) (padSide 64) 64 0
    let stray : Copy := { k with key := 4, flight := 9 }
    let s : State := { st with copies := [stray, k] }
    s.copies.filter (fun c => c.core = 0) = [stray] ++ k :: [] ∧ s.flight k.flight = some lane1 ∧ (s.owner lane1.vd).state = 1
    ∧ s.flight stray.flight = none
    ∧ ((List.replicate 8 (copyFor .cpy .active (padSide 0) (padSide 64) 64 0)).filter
        fun c => c.core = 0 ∧ c.state ≠ .queued ∧ c.state ≠ .done).length = 8 := by decide +kernel

/-- A beat of a CPY and of a FILL, at the first and at the last block; a poisoned source granule; a written copy with a batch and
without one; a queued one. -/
theorem witness_CopiesMove :
    let s (k : Copy) (u : Team) : State := { st with copies := [k], teams := [u] }
    let k := copyFor .cpy .active (padSide 0) (padSide 1024) 100 0
    let fill := copyFor .fill .active (padSide 0) { Side.none with off := 7 } 100 0
    let last : Copy := { k with next := 1 }
    let bad : Team := { team1 with granules := [(64, .poisonedError)] }
    let done : Copy := { k with state := .written, batch := some 2 }
    (s k team1).copy k.key = some k ∧ (s k team1).flight k.flight = some lane1 ∧ lane1.role = .lane ∧ (s k team1).team k.team = some team1
    ∧ team1.key = k.team ∧ lane1.team = k.team ∧ team1.state = .resident ∧ team1.spills = [] ∧ team1.scratch.wf = true
    ∧ (∀ w ∈ (s k team1).owners, ∀ e ∈ w.entries, e.owed = []) ∧ (s k team1).wc = [] ∧ (s k team1).memOps = []
    ∧ ((s k team1).nextServed k.core).map Copy.key = some k.key ∧ ((s fill team1).nextServed k.core).map Copy.key = some k.key
    ∧ 64 * k.next < k.c0.toNat ∧ 64 * last.next < last.c0.toNat ∧ k.dst.space = 1 ∧ k.src.space = 1 ∧ fill.form = .fill
    ∧ fill.dst.space = 1 ∧ team1.gran (1024 / 16) = .empty ∧ bad.gran (1024 / 16) = .poisonedError ∧ k.failAt = none ∧ k.dst.off % 16 = 0
    ∧ (s done team1).copy done.key = some done ∧ done.dreg = 248 ∧ lane1.flags.length = 12 ∧ 2 < team1.batches.length
    ∧ lane1.cls 20 = .uniform := by decide +kernel

def essBytes (magic raw : Nat) : List Byte := leBytes 4 magic ++ leBytes 4 raw ++ leBytes 4 raw ++ List.replicate 20 0 ++ List.replicate raw 7

def essCopy (magic raw : Nat) : Copy :=
  { copyFor .cpyz .active (padSide 0) ⟨0, mkRec 1 0 0x20000 0x1000 0 0 0 0, 0, 0, 0, false, 0, 0⟩ 1 0 with
    placed := 48, taken := 48, got := 48, tkBlock := 1, buf := essBytes magic raw }

/-- DistillerAndFollowOn: a block with a bad magic and a stored one of 16 bytes; a follow-on that reads a cached record. -/
theorem witness_DistillerAndFollowOn :
    let k (m : Nat) : Copy := essCopy m 16
    let s : State := { st with copies := [k 0xE55E] }
    let m : Copy := { copyFor .cpym .written (padSide 0) (padSide 0) 0 (1 + 256 * 12) with next := 1 }
    s.copy (k 0xE55E).key = some (k 0xE55E) ∧ s.flight (k 0xE55E).flight = some lane1 ∧ s.inDistiller (k 0xE55E) = true
    ∧ s.inDistiller (k 0xE55F) = true ∧ (k 0xE55E).badBlock = none ∧ (k 0xE55E).block < (k 0xE55E).blocks
    ∧ (k 0xE55E).dst.space = 1 ∧ (k 0xE55E).failAt = none ∧ (k 0xE55E).block < (k 0xE55E).tkBlock ∧ s.team (k 0xE55E).team = some team1
    ∧ ((k 0xE55E).placedFrom 0).length = 48 ∧ leNat (((k 0xE55E).placedFrom 0).take 2) = 0xE55E
    ∧ leNat (((k 0xE55F).placedFrom 0).take 2) ≠ 0xE55E ∧ leNat ((((k 0xE55E).placedFrom 0).drop 2).take 1) = 0
    ∧ leNat ((((k 0xE55E).placedFrom 0).drop 4).take 4) = 16 ∧ (k 0xE55E).essConverts = false ∧ (k 0xE55E).win = 0 ∧ (k 0xE55E).carry = []
    ∧ (k 0xE55E).src.record.ilm ≠ 4 ∧ (k 0xE55E).src.off + 48 ≤ (k 0xE55E).src.record.extent ∧ (k 0xE55E).outAt + 16 ≤ s.allocOf (k 0xE55E)
    ∧ m.c1.toNat % 4 ≠ 0 ∧ m.units ≤ m.next ∧ st.mxq = [] ∧ m.failAt = none ∧ m.c1.toNat / 256 % 256 = 12 := by decide +kernel

/-- Owner 1 with the first 16 MiB in its balustrade. -/
def ownB : Owner := { own1 with bal := 0x1001 :: List.replicate 63 0 }

/-- `stM` with room for a weight tile, and a map record 12 and a global record 13 of BF16. -/
def stX : State :=
  { stM with
    mem := Memory.puts [] (bytesAt 0x10000 ([mkRec 3 0 0 0x10000 256 0 0 3, mkRec 1 0 0x20000 0x10000 0 0 0 3].flatMap fun r =>
      [r.q0, r.q1, r.q2, r.q3, r.q4].flatMap fun q => leBytes 8 q.toNat))
    grids := [{ grid1 with buftab := 0xFE20, variants := [{ variant0 with scratch := 0x10000, isMatrix := true }] }]
    owners := [ownB], mx := [{ MxCore.reset 0 with team := some 1, w0 := { Bank.reset with fmt := 1 } }] }

def followOf : Copy := { copyFor .cpym .written (padSide 0) (padSide 0) 0 (1 + 256 * 12) with next := 1 }

theorem witness_DistillerAndFollowOn_record : (stX.copyRecord lane1 followOf 12).2.isSome = true := by
  unfold State.copyRecord
  generalize Config.freeBit _ _ = b
  cases b <;> decide +kernel

/-- A matrix command that passes its checks, whole. -/
def mxEnters (kind : MxKind) (op9 : Nat) (d a b : BitVec 8) (ctl : Word) : Bool :=
  let f : Flight := { lane1 with regs := (34, rowOfWord ctl) :: lane1.regs }
  let s : State := { stX with flights := [f] }
  let x := xf d a b (if kind = .mma || kind = .mmaByp || kind = .mdrain then 34 else 0)
  let c := Ctx.atIssue (viewX op9 x) s f x
  let low (v : Lanes) : Word := if f.em = 0 then 0 else v.at (lowestLane f.em)
  let ctl : Word := if kind ∈ [.mma, .mmaByp, .mdrain] then low c.srcC else 0
  let r := if kind = .mzero then Except.ok (BufRec.zero, c) else c.record b.toNat
  issues (viewX op9 x) s f && (s.mxCore f.core).team = some f.team && match r with
    | .ok (r, c1) =>
      let m := c.mxCmd kind r ctl (low (c.srcHi 3 x.c))
      good (m.check (s.mxCore f.core) ctl c.allocation) && good (c1.mxPages m)
    | .error _ => false

/-- A plain map in the scratchpad that holds every row passes the limits. -/
theorem tile_check (o : MxOpnd) (alloc rows : Nat) (hk : o.map.kind = 3) (hi : o.map.ilm = 0) (hd : o.dx = false)
    (hw : o.width ≤ o.map.pitch) (ha : (o.map.base + o.off) % 16 = 0)
    (he : o.off + rows * o.map.pitch ≤ o.map.extent) (hm : o.map.padBase + o.map.extent ≤ alloc) : o.check alloc rows = .ok () := by
  have hs : ∀ r, o.scaleAddrs r = [] := fun r => by simp [MxOpnd.scaleAddrs, hd]
  have hp : ∀ r x, o.posAt r x = o.off + r * o.map.pitch + x := fun r x => by simp [MxOpnd.posAt, hk, hi, BufRec.rowPos]
  have far : ∀ r, r < rows → ∀ p ∈ o.positions r, p < o.map.extent := by
    intro r hr p hp'
    simp only [MxOpnd.positions, List.mem_map, List.mem_range, hp] at hp'
    obtain ⟨g, hg, rfl⟩ := hp'
    have : (r + 1) * o.map.pitch ≤ rows * o.map.pitch := Nat.mul_le_mul_right _ hr
    rw [Nat.add_mul] at *
    omega
  have h2 : (List.range rows).any (fun r => (o.positions r).any fun p =>
      decide (o.map.extent < p + 1) || (o.scratch && decide (alloc < o.map.padBase + p + 1))) = false := by
    rw [List.any_eq_false]
    intro r hr
    rw [Bool.not_eq_true, List.any_eq_false]
    intro p hp'
    have := far r (List.mem_range.1 hr) p hp'
    have a1 : ¬(o.map.extent < p + 1) := by omega
    have a2 : ¬(alloc < o.map.padBase + p + 1) := by omega
    simp [a1, a2]
  have h1 : ¬(o.map.pitch < o.width) := by omega
  unfold MxOpnd.check
  dsimp only
  rw [h2]
  simp [hs, ha, h1]

/-- MatrixCommandsQueue: each instruction passes; a flight whose team does not hold the array; records of KIND 0 and of one that the
form does not take; rows past the store. -/
theorem witness_MatrixCommandsQueue :
    mxEnters .mma 0x162 0 6 12 0 = true ∧ mxEnters .mmaByp 0x163 8 0 12 0 = true ∧ mxEnters .mdrain 0x164 3 6 12 0 = true
    ∧ mxEnters .mzero 0x165 3 0 0 0 = true := by decide +kernel

def tileRec : BufRec := mkRec 3 0 0 0x10000 256 0 0 3

/-- A load: MWLD of record 12. -/
theorem witness_MatrixCommandsQueue_load :
    let x := xf 0 6 12 0
    let c := Ctx.atIssue (viewX 0x160 x) stX lane1 x
    issues (viewX 0x160 x) stX lane1 = true ∧ withRec c (fun r _ => r = tileRec) = true
    ∧ (c.mxCmd .mwld tileRec 0 0).ctlOk 0 = true ∧ (c.mxCmd .mwld tileRec 0 0).formatOk (stX.mxCore 0) = true
    ∧ (c.mxCmd .mwld tileRec 0 0).operand (stX.mxCore 0) = some ⟨tileRec, 0, 4, 128, false⟩ ∧ (c.mxCmd .mwld tileRec 0 0).rows = 128
    ∧ (⟨tileRec, 0, 4, 128, false⟩ : MxOpnd).check c.allocation 128 = .ok ()
    ∧ good (c.mxPages (c.mxCmd .mwld tileRec 0 0)) = true := by
  refine ⟨by decide +kernel, by decide +kernel, by decide +kernel, by decide +kernel, by decide +kernel, by decide +kernel, ?_,
    by decide +kernel⟩
  exact tile_check _ _ _ (by decide +kernel) (by decide +kernel) rfl (by decide +kernel) (by decide +kernel) (by decide +kernel)
    (by decide +kernel)

theorem witness_MatrixCommandsQueue_stops :
    let x (b : BitVec 8) : XF := xf 0 6 b 0
    (stM.mxCore lane1.core).team ≠ some lane1.team ∧ issues (viewX 0x160 (x 12)) (stM.as lane1) lane1 = true
    ∧ issues (viewX 0x160 (x 11)) stX lane1 = true ∧ issues (viewX 0x160 (x 13)) stX lane1 = true
    ∧ good ((Ctx.atIssue (viewX 0x160 (x 11)) stX lane1 (x 11)).record 11) = true ∧ 1 ∉ MxKind.mwld.kinds
    ∧ mxEnters .mma 0x162 3 6 12 0xFE00 = true ∧ mxEnters .mma 0x162 3 6 12 0xFE01 = false := by decide +kernel

def cmdOf (kind : MxKind) (rows : Nat) (started paused : Bool) : MxCmd :=
  { (Ctx.atIssue (viewX 0x160 (xf 0 6 12 0)) stX lane1 (xf 0 6 12 0)).mxCmd kind (mkRec 3 0 0 0x10000 256 0 0 3) 0 0 with
    key := 5, rows := rows, started := started, paused := paused }

/-- MatrixSequencer: a command that can start; MZERO and MWLD that have started; a stream that can stop after 32 of its 64 rows, its
team not running; a core that goes on. -/
theorem witness_MatrixSequencer :
    let s (c : MxCmd) : State := { stX with mxq := [c] }
    let idle : State := { s (cmdOf .mma 64 true false) with owners := [{ ownB with state := 2 }] }
    (s (cmdOf .mzero 128 false false)).mxCmd 5 = some (cmdOf .mzero 128 false false)
    ∧ (cmdOf .mzero 128 true false).flight = 1 ∧ (cmdOf .mzero 128 true false).team = 1 ∧ stX.flightFrame lane1 = none
    ∧ (s (cmdOf .mzero 128 false false)).mxCanStart team1 (cmdOf .mzero 128 false false) = true
    ∧ (s (cmdOf .mzero 128 true false)).mxCanStart team1 (cmdOf .mzero 128 true false) = false
    ∧ (cmdOf .mwld 128 true false).bank < 2 ∧ ((cmdOf .mwld 128 true false).opnd 0).map MxOpnd.scratch = some true
    ∧ team1.granules = [] ∧ team1.gran 2047 = .empty ∧ (idle.owner 1).state ≠ 1 ∧ 0 + 32 * 1 < 64
    ∧ (stX.mxCore 0).team = some team1.key ∧ (stX.mxCore 0).reload = [] ∧ stX.team team1.key = some team1 ∧ stX.teamFlights team1.key ≠ []
    ∧ stX.teamRuns team1 = true := by decide +kernel

/-- A flight whose registers 30 and 31 hold a pair. -/
def pairF (f : Flight) (v : DWord) : Flight := { f with regs := (30, rowOfWord (loWord v)) :: (31, rowOfWord (hiWord v)) :: f.regs }

def landV (n : Nat) : Variant := { variant0 with num := n, landings := [⟨7, 0x1000, []⟩] }

/-- LaunchesAndLandings: a pair at 2^57, off its alignment, that translates and that does not; EM zero; owner mode; an id with and
without a landing; a switch pending and not. -/
theorem witness_LaunchesAndLandings :
    let at' (op9 : Nat) (v : DWord) : Ctx := atM (pairF lane1 v) op9 (xf 0 30 6 0)
    let va (op9 : Nat) (v : DWord) : Nat := ((at' op9 v).pairAt 1 30 (lowestLane lane1.em)).toNat
    let trans (op9 : Nat) (v : DWord) (n : Nat) (k : AccessKind) : Bool :=
      good ((at' op9 v).s.translateRange (pairF lane1 v) (va op9 v) n k 0)
    let s : State := { st with grids := [{ grid1 with variants := [landV 0, landV 1] }] }
    let q : Team := { team1 with request := some ⟨1, true, none⟩ }
    [0x180, 0x181, 0x182].all (fun op9 => issues (viewX op9 (xf 0 30 (if op9 = 0x182 then 0 else 6) 0)) (stM.as (pairF lane1 0x20000)) (pairF lane1 0x20000)) = true
    ∧ issues (viewX 0x180 (xf 0 30 6 0)) (stM.as none1) none1 = true
    ∧ va 0x180 0x0200000000000000 = 2 ^ 57 ∧ va 0x180 0x20020 % 64 ≠ 0 ∧ va 0x182 0x20004 % 8 ≠ 0 ∧ va 0x180 0x20040 % 64 = 0
    ∧ trans 0x180 0x20040 1 .store = true ∧ trans 0x180 0x0000020000000000 1 .store = false ∧ trans 0x182 0x20008 4 .atomic = true
    ∧ issues (viewX 0x183 { xf 0 0 0 0 with c := 7 }) s lane1 = true ∧ issues (viewX 0x183 { xf 0 0 0 0 with c := 7 }) (st.as col1) col1 = true
    ∧ (s.variantOf team1).map (fun r => ((r.landing 7).isSome, (r.landing 8).isNone)) = some (true, true)
    ∧ s.pairAt team1 7 = false ∧ s.pairAt q 7 = true := by decide +kernel

def fault1 : Flight := { walk1 with role := .fault 0 }
def fault2 : Flight := { walk1 with role := .fault 1 }

/-- OWNSET of register `n` from a pair of `v` issues; its source is a valid pair where it needs one. -/
def ownsetAt (f : Flight) (n : Nat) (a : BitVec 8) (v : DWord) : Bool :=
  let f := pairF f v
  issues (viewX 0x1A1 (xf 0 a (BitVec.ofNat 8 n) 0)) (st.as f) f
    && ((Ctx.atIssue (viewX 0x1A1 (xf 0 a (BitVec.ofNat 8 n) 0)) (st.as f) f (xf 0 a (BitVec.ofNat 8 n) 0)).pairAt 1 a f.role.ownerLane = v || a ≠ 30)

def ringOk (d : DWord) : Bool := d >>> 52 = 0 ∧ (d >>> 4) &&& 0xFF = 0 ∧ 6 ≤ d.toNat % 16 ∧ d.toNat % 16 ≤ 12
  ∧ own1.inVestibule (d.toNat / 4096 % 2 ^ 40 * 4096) (64 * 2 ^ (d.toNat % 16)) = true

/-- OwnerRegisterWrites: registers that may and may not be written, at 0, 1, 16 and 255; a source that is no pair; rings of LOGN 6, 5 and
12, in and out of the vestibule; handlers even and odd; ASID 65535 and 65536; a service flight and a collapsed one; EM zero. -/
theorem witness_OwnerRegisterWrites :
    [0, 1, 8, 10, 12, 13, 14, 16, 255].all (fun n => ownsetAt col1 n 30 0) = true
    ∧ [2, 3, 4, 6, 7, 9, 11, 15].all (fun n => ownsetAt col1 n 30 0x100006) = true
    ∧ ownsetAt fault1 9 30 0 = true ∧ ownsetAt col1 2 31 0 = true ∧ pairOk col1 31 = false ∧ pairOk col1 30 = true
    ∧ ownsetAt { col1 with em := 0 } 2 248 0 = true
    ∧ ringOk 0x100006 = true ∧ ringOk 0x10000C = true ∧ ringOk 0x100005 = false ∧ ringOk 0x1FF006 = true ∧ ringOk 0x1FF007 = false
    ∧ own1.walks = [] ∧ own1.misses = [] ∧ own1.faultRing = []
    ∧ own1.inVestibule 0x1FFFFE 2 = true ∧ own1.inVestibule 0x1FFFFF 2 = false
    ∧ ({ own1 with walks := [⟨0, 0, 0, 0, .load, 0, [], false, false⟩] } : Owner).walks ≠ [] := by decide +kernel

/-- LSET: of a general and a uniform register, of the first and the last predicate, of 247 and 255, from a service flight, under EM
zero. -/
theorem witness_LaneWrites :
    let l (f : Flight) (sel : Nat) : Bool := issues (viewX 0x1A3 (xf 0 6 5 (BitVec.ofNat 8 sel))) (st.as f) f
    [10, 20, 24, 240, 246, 247, 255].all (l col1) = true ∧ l fault1 10 = true ∧ l { col1 with em := 0 } 10 = true
    ∧ col1.cls 10 = .general ∧ col1.cls 20 = .uniform ∧ (col1.reg 20).lanes.at 0 ≠ (Lanes.tab fun _ => (0 : Word)).at 0
    ∧ col1.preds.length = 7 := by decide +kernel

/-- OwnerInstructions at issue: each with and without the role that it asks, and its operands at their bounds. -/
def ownIssue (f : Flight) (op9 : Nat) (x : XF) : Bool := issues (viewX op9 x) (st.as f) f

theorem witness_OwnerInstructions_issue :
    ownIssue walk1 0x1A5 (xf 10 0 0 0) = true ∧ ownIssue col1 0x1A5 (xf 10 0 0 0) = true
    ∧ ownIssue fault1 0x1A9 (xf 10 0 0 0) = true ∧ ownIssue fault2 0x1A9 (xf 10 0 0 0) = true ∧ ownIssue walk1 0x1A9 (xf 10 0 0 0) = true
    ∧ [0, 0x100, 0x80, 3, 0x1001, 0xFFFFFFFFFFFFF000, 0x10000000000000].all (fun v => ownIssue (pairF walk1 v) 0x1A6 (xf 10 30 6 0)) = true
    ∧ (walkRange 0x100100 0).1 = 0x100100 ∧ own1.inVestibule 0x100100 256 = true
    ∧ ownIssue { walk1 with em := 0 } 0x1A6 (xf 10 30 6 0) = true
    ∧ ownIssue fault1 0x1AA (xf 0 5 0 0) = true ∧ ownIssue col1 0x1AA (xf 0 5 0 0) = true ∧ ownIssue { fault1 with em := 0 } 0x1AA (xf 0 5 0 0) = true
    ∧ [0, 0x0B, 0x0C, 0x0F, 0x10, 0x18, 0x19].all (fun k => ownIssue lane1 0x1C0 (xf 10 0 0 (BitVec.ofNat 8 k))) = true
    ∧ [0, 3, 4, 7, 8, 0x18, 0x19].all (fun k => ownIssue lane1 0x1C1 (xf 10 0 0 (BitVec.ofNat 8 k))) = true
    ∧ [0, 1, 2, 3].all (fun k => ownIssue col1 0x1C2 (xf 10 0 0 (BitVec.ofNat 8 k))) = true ∧ ownIssue col1 0x1C2 (xf 11 0 0 1) = true
    ∧ ownIssue walk1 0x185 (xf 0 30 0 0) = true ∧ ownIssue walk1 0x186 (xf 0 30 0 0) = true
    ∧ ownIssue { col1 with em := 0 } 0x185 (xf 0 30 0 0) = true ∧ ownIssue { col1 with em := 0 } 0x186 (xf 0 30 0 0) = true
    ∧ ownIssue { col1 with em := 0 } 0x1A8 (xf 0 30 32 0) = true := by decide +kernel

/-- A token that a waiting copy answers to. -/
theorem witness_OwnerInstructions_token :
    let k : Copy := { copyFor .cpy (.paused 0x1005) (padSide 0) (padSide 64) 64 0 with key := 5 }
    let s : State := { st with copies := [k] }
    s.party fault1.vd 0x1005 = some (.copy 5) ∧ s.sysOps = [] ∧ st.party fault1.vd 0x1005 = none
    ∧ { own1 with bal := 0x1001 :: List.replicate 63 0 }.balustrade 0x100100 256 = some false := by decide +kernel

def sysOf (kind : SysKind) (f : Flight) : SysOp := ⟨5, f.key, kind, 10, f.em, some 3, 0x1000⟩
def sysAt (kind : SysKind) (f : Flight) (o : Owner) : State := { st.as f with sysOps := [sysOf kind f], owners := [o] }

/-- OwnerInstructions at completion: rings with and without a record, a level-1 record, a counter that waits and one that does not, an
error log with and without a record. -/
theorem witness_OwnerInstructions_done :
    let ok (kind : SysKind) (f : Flight) : Bool :=
      (sysAt kind f own1).memOp 5 = none && ((sysAt kind f own1).sysOps.find? fun x => x.key = 5) = some (sysOf kind f)
        && (sysAt kind f own1).flight f.key = some f && ((sysAt kind f own1).flightFrame f).isNone && f.em ≠ 0
        && (List.range 255).all (fun r => ((sysAt kind f own1).regFrame f r).isNone)
    let r : WalkReq := ⟨0, 0, 0x5000, 0, .load, 0, [], false, false⟩
    let e : FaultRec := ⟨0x5000, .load, 0, 0, 0, 7, 0, 0, 0, 0, 0⟩
    ok .wqtake walk1 = true ∧ ok .fqtake fault1 = true ∧ ok .fqtake fault2 = true ∧ ok (.cntr 0 [4]) lane1 = true ∧ ok (.qosq 0) lane1 = true
    ∧ ok (.errq 0) col1 = true ∧ ok (.errq 1) col1 = true ∧ ok (.errq 2) col1 = true ∧ ok (.rwalk 0x100100 0) walk1 = true
    ∧ (List.range 6).all (fun n => lane1.cls (10 + n) = .general) = true ∧ st.wc = [] ∧ own1.walks = []
    ∧ ({ own1 with walks := [{ r with taken := true }, r] } : Owner).walks = [{ r with taken := true }] ++ r :: []
    ∧ own1.faultRing = [] ∧ ({ own1 with faultRing := [e] } : Owner).faultRing = e :: [] ∧ own1.faultWait = [] ∧ own1.level1 = none
    ∧ ({ own1 with level1 := some e } : Owner).level1 = some e ∧ (sysAt (.cntr 0 [4]) lane1 own1).allDone [4] = true
    ∧ ({ st with copies := [{ copyFor .cpy .active (padSide 0) (padSide 64) 64 0 with key := 4 }] } : State).allDone [4] = false
    ∧ own1.errors = [] ∧ ({ own1 with errors := [⟨1, 2, 3, 4⟩] } : Owner).errors = ⟨1, 2, 3, 4⟩ :: []
    ∧ st.devHold ((List.range 256).map fun j => 0x100100 + j) (.op 5) = none ∧ st.uncachedAt 1 0x100100 = false
    ∧ team1.windows = [] ∧ own1.entries = [] := by decide +kernel

/-- The lines that RWALK reads, in the core's L1. -/
theorem witness_OwnerInstructions_walk :
    let s : State := { sysAt (.rwalk 0x100100 0) walk1 own1 with lines := [⟨.l1 0, 0x2002, .E, 1, 5, List.replicate 128 7, 0, 0, false⟩,
      ⟨.l1 0, 0x2003, .E, 1, 5, List.replicate 128 7, 0, 0, false⟩] }
    [0x100100, 0x10017F, 0x100180, 0x1001FF].all (fun b => s.mapped b && !s.badByte b && s.holds (.l1 walk1.core) (b / 128)) = true
    ∧ 0x100100 / 128 = 0x2002 ∧ 0x1001FF / 128 = 0x2003 := by decide +kernel

/-- A node of a walk: its level, keys and slots as 31 doublewords. -/
def node (level n : Nat) (keys slots : List Nat) : List Byte :=
  ([n + 16 * level] ++ keys ++ List.replicate (15 - keys.length) 0 ++ slots ++ List.replicate (16 - slots.length) 0).flatMap (leBytes 8)

def nq (raw : List Byte) (o : Nat) : Nat := leNat ((raw.drop o).take 8)

/-- WalksAndContexts: an inner node and a leaf, below the first key, at one, above; slots of each kind and none; table entries of each
size. -/
theorem witness_WalksAndContexts_nodes :
    let inner := node 0 2 [0x10000, 0x20000] [0x1000, 0x2000, 0x3000]
    let leaf := node 1 2 [0x10000, 0x40000000] [1 + 2 ^ 5 + 2 ^ 28, 3 + 4 * 1 + 2 ^ 12 * 5]
    let count (raw : List Byte) (v : Nat) : Nat := ((List.range (nq raw 0 % 16)).filter fun j => nq raw (8 + 8 * j) % 2 ^ 57 ≤ v).length
    nq inner 0 / 16 % 2 = 0 ∧ nq leaf 0 / 16 % 2 = 1 ∧ count inner 0xFFFF = 0 ∧ count inner 0x10000 = 1 ∧ count inner 0x20000 = 2
    ∧ count leaf 0 = 0 ∧ count leaf 0x1FFFF = 1 ∧ count leaf 0x40000000 = 2
    ∧ nq leaf 0x80 % 2 = 1 ∧ nq leaf 0x80 / 2 % 2 = 0 ∧ nq leaf 0x80 / 2 ^ 5 % 2 ^ 23 = 1
    ∧ nq leaf 0x88 / 2 % 2 = 1 ∧ nq leaf 0x88 / 4 % 4 = 1 ∧ nq (node 1 1 [0] [0]) 0x80 % 2 = 0
    ∧ [0x1001, 0x1011, 0x1021, 0x1031, 0].map (fun e => (e % 2, e / 16 % 4)) = [(1, 0), (1, 1), (1, 2), (1, 3), (0, 0)] := by decide +kernel

def putF (pa va word units ctl : Nat) : Flight :=
  { fault1 with regs := [(10, rowOfWord (BitVec.ofNat 32 pa)), (12, rowOfWord (BitVec.ofNat 32 va)), (14, rowOfWord (BitVec.ofNat 32 word)),
    (15, rowOfWord (BitVec.ofNat 32 units)), (16, rowOfWord (BitVec.ofNat 32 ctl)), (17, rowOfWord 3)] }

/-- TLBPUT: a PREFILL of 4 KiB, one malformed, and the LEAF of a request for which a flight waits. -/
theorem witness_WalksAndContexts_put :
    let x := xf 10 17 16 0
    let iss (f : Flight) : Bool := issues (viewX 0x1A7 x) (st.as f) f
    let a : PutArgs := ⟨0x10000, 0x5000, 1 + 0x70, 0, 1⟩
    let r : WalkReq := ⟨0, 0, 0x5000, 0, .load, 0, [(.flight 2, .load, 0x5000)], true, false⟩
    let g : Flight := { lane1 with key := 2, block := .walk 0x5000 .load 0 }
    iss (putF 0x10000 0x5000 0x71 0 1) = true ∧ iss (putF 0x10000 0x5000 0 0 1) = true ∧ iss (putF 0x10000 0x5000 0x71 0 0) = true
    ∧ a.ctl / 2 % 2 ^ 15 = 0 ∧ a.word % 4 = 1 ∧ a.cls = 0 ∧ a.size = 4096 ∧ a.bad none = false ∧ a.bad (some r) = false
    ∧ ownB.balustrade a.pa a.size = some false ∧ r.stale = false ∧ ({ st with flights := [fault1, g] } : State).flight 1 = some fault1
    ∧ g.key ≠ fault1.key ∧ AccessKind.load.allowed (a.entry own1 0) = true
    ∧ (0 : Nat) < 65536 ∧ own1.misses = [] := by decide +kernel

/-- TLBKILL with an address at and below 2^57; CTXSV of a swapped team, of no team, and misaligned; CTXLD above 2^52, misaligned, and
of a context with no header. -/
theorem witness_WalksAndContexts_contexts :
    let u : Team := { team1 with state := .swapped }
    let f (v : DWord) : Flight := { pairF col1 v with team := 2 }
    let s (v : DWord) : State := { st.as (f v) with teams := [u, { team1 with key := 2, handle := 9 }], owners := [ownB] }
    let iss (op9 : Nat) (v : DWord) : Bool := issues (viewX op9 (xf 0 30 (if op9 = 0x1A8 then 6 else 0) 0)) (s v) (f v)
    [0, 0x0200000000000000].all (iss 0x1A8) = true ∧ [0x100000, 0x100001, 0x0050000000100000].all (iss 0x185) = true
    ∧ [0x100000, 0x100001, 0x0010000000000000].all (iss 0x186) = true
    ∧ (s 0).teamByHandle 1 0 = some u ∧ (s 0).teamByHandle 1 5 = none ∧ (s 0).team 1 = some u ∧ ((s 0).grid u.grid).isSome = true
    ∧ ownB.balustrade 0x100000 ((s 0).ctxSize u) = some false ∧ memoryWf (s 0) = true
    ∧ (s 0).mapped 0x100000 = true ∧ (s 0).mapped (0x100000 + (s 0).ctxSize u - 1) = true
    ∧ (s 0).devHold [0x100000] (.op 1) = none ∧ (∀ w ∈ (s 0).teams, w.windows = []) ∧ (∀ w ∈ (s 0).owners, ∀ e ∈ w.entries, e.owed = [])
    ∧ ownB.balustrade 0x100000 256 = some false ∧ (s 0).headerTeam 1 (.at 0x100000) = none
    ∧ ownB.balustrade 0x100000 ((s 0).frameNat (.at 0x100000) 0x20 8) = some false := by decide +kernel

/-- CTXLD of a context whose header names a team that was parked as swapped, as held and as ready; a pool with a free frame and with
none. -/
theorem witness_WalksAndContexts_header :
    let u (w : Nat) : Team := { team1 with state := .parked 0x100000 w }
    let size := st.ctxSize (u 0)
    let s (w : Nat) (taken : List Nat) : State := { st with
      mem := Memory.puts [] (bytesAt 0x100000 (leBytes 2 0xC5A0 ++ [0, 1, 0, 0] ++ leBytes 2 0 ++ List.replicate 24 0 ++ leBytes 8 size))
      teams := [u w], owners := [{ ownB with fpool := 31, nframes := 1, frames := taken }] }
    [0, 1, 2].all (fun w => ((s w []).headerTeam 1 (.at 0x100000)).map Team.key = some 1) = true
    ∧ (s 0 []).frameNat (.at 0x100000) 0x20 8 = size ∧ ownB.balustrade 0x100000 size = some false
    ∧ ((s 1 []).owner 1).freeFrame size = some 0 ∧ ((s 1 [0]).owner 1).freeFrame size = none := by decide +kernel

/-- CoherentWrites: the state after reset is in form and its caches agree with memory; addresses mapped and not. -/
theorem witness_CoherentWrites :
    memoryWf State.reset = true ∧ State.reset.mapped 0 = true ∧ State.reset.mapped (2 ^ 52) = false := by decide +kernel

/-- A launch record at 0x4000, its kernel at 0x4100, one variant with no registers, 4 KiB of scratchpad and one flight. The address space
is identical, read, write and execute, in the one L3 TLB of a partition with no memory group. -/
def field (a n v : Nat) : List (Nat × Byte) := bytesAt a (leBytes n v)

def launchMem : List (Nat × Byte) :=
  field 0x4000 8 0x4100 ++ field 0x4008 2 0x0102 ++ field 0x4010 4 0x01000001 ++ field 0x4100 3 0x01534B
    ++ field 0x4140 8 0x1000 ++ field 0x4148 8 0x4200 ++ field 0x4150 4 0x00010000 ++ field 0x4154 4 4096

def queued : Queued := ⟨7, 0, 0x4000, 0x4000, false, .flight⟩

def stL : State :=
  { st with
    mem := Memory.puts [] launchMem, l3tlb := [(0, ⟨1, 0, 0, 2 ^ 40, 0, true, true, true⟩)]
    grids := [], teams := [], parts := [{ part0 with groups := [] }]
    sysOps := [⟨5, 1, .launch 7, 0, 1, some 3, 0x1000⟩], owners := [{ ownB with launchQ := [queued] }] }

def admission1 (s : State) : Except SysStop Grid :=
  let w : SysWho := ⟨1, (s.owner 1).asid.toNat % 65536, .admission 0⟩
  (w.run (do
    w.hold (match queued.source with | .host h _ _ => s.ringBytes 1 h | .flight => [])
    w.record queued) s).2

/-- Admission: a record that is accepted; one whose kernel is not, REFUSED_KERNEL; one whose page is not in the TLB, which waits; an
owner that does not run; another queue. -/
theorem witness_Admission :
    (match admission1 stL with
      | .ok g => g.key = 7 && g.levels = [(1, 1)] && g.variants.length = 1
      | .error _ => false) = true
    ∧ (match admission1 { stL with mem := Memory.puts [] (field 0x4000 8 0x4180 ++ field 0x4008 2 0x0102 ++ field 0x4010 4 0x01000001) } with
      | .error (.refuse c _ _) => c = 5
      | _ => false) = true
    ∧ (match admission1 { stL with l3tlb := [] } with
      | .error .waits => true
      | _ => false) = true
    ∧ (stL.owner 1).state = 1 ∧ ((stL.owner 1).launchQ.find? fun x => x.queue = 0) = some queued
    ∧ ((stL.owner 1).launchQ.find? fun x => x.queue = 1).isNone = true ∧ stL.flight 1 = some lane1
    ∧ (stL.sysOps.find? fun x => x.kind = .launch queued.key).isSome = true := by decide +kernel

def waiting : Grid := { grid1 with state := .admitted, kernel := 0x4100, levels := [(1, 1), (2, 4)], isI := true, countVa := 0x4300, countMax := 3 }

/-- Dispatch: a LAUNCHI that reads 2 from its count; an edge that is not satisfied; a grid that is not admitted. -/
theorem witness_Dispatch :
    let s : State := { stL with grids := [waiting], mem := Memory.puts [] (launchMem ++ field 0x4300 4 2) }
    let w : SysWho := ⟨1, (s.owner 1).asid.toNat % 65536, .grid 1⟩
    let g' : Grid := { waiting with asid := (s.owner 1).asid.toNat % 65536 }
    (match (w.run (w.dispatchReads g') ((s.putGrid g').dropRegions 1 0 (waiting.edgesIn.flatMap Edge.regions))).2 with
      | .ok (vs, n) => n = 2 && vs.length = 1
      | .error _ => false) = true
    ∧ s.grid 1 = some waiting ∧ waiting.edgesIn = [] ∧ waiting.levels ≠ [] ∧ grid1.state ≠ .admitted
    ∧ (s.owner 1).state = 1 := by decide +kernel

/-- Retirement: a grid with no team left, and one whose team is not done. -/
theorem witness_Retire :
    let done : Grid := { grid1 with teams := 1, next := 1 }
    let s : State := { stL with grids := [done], sysOps := [], teams := [{ team1 with state := .retired }], flights := [] }
    let w : SysWho := ⟨1, (s.owner 1).asid.toNat % 65536, .grid 1⟩
    let r := w.run (w.counts done.edgesOut) s
    s.gridDone done = true ∧ (match r.2 with
      | .ok cs => cs = [] && r.1.devHold (r.1.retireBytes done cs) (.sys (.grid 1)) = none
      | .error _ => false) = true
    ∧ st.gridDone grid1 = false ∧ (st.owner 1).state = 1 ∧ st.grid 1 = some grid1 := by decide +kernel

/-- Owner 1 with room for spills, in the 24-slot turn of its partition. -/
def ownS : Owner := { ownB with spillStride := 0x100000, spillBase := 0x200000 }

/-- A grid of four one-flight teams with two variants, the richer first, that meet at landing 7. -/
def key0 : LandKey := ⟨0, 0, 10, 0, 0⟩
def rich : Variant := { variant0 with mused := 0, landings := [⟨7, 0x1000, [key0]⟩], isMatrix := false }
def lean : Variant := { variant0 with mused := 0, num := 1, code := 0x1800, scratch := 2048, landings := [⟨7, 0x1840, [key0]⟩] }
def gridP : Grid := { grid1 with teams := 4, next := 1, variants := [rich, lean], levels := [(1, 1), (2, 4)], swap := [], frameSz := 0 }
def stP : State := { st with owners := [ownS], grids := [gridP], teams := [{ team1 with core := 1 }], flights := [{ lane1 with core := 1, quad := 4 }] }

def placed (s : State) (g : Grid) (wss : List (List Variant)) : Option (Nat × List Nat × Nat) :=
  (s.nextUnit g).bind fun u => (s.choosePlace g wss (s.unitCores g u.1)).bind fun x =>
    if x.2.2.2 = [] && x.2.2.1.length = 1 then some (u.1, u.2.map Team.key, x.1) else none

def swapped1 : Team := { team1 with state := .swapped }

/-- A grid whose macro image, body 2 at 0x9200, is read where its teams are placed: translated, and not. -/
def stImg : State :=
  { stL with grids := [{ grid1 with variants := [variant0] }], mem := Memory.puts [] (field 0x9200 8 3) }

theorem witness_TeamPlace_image :
    let g : Grid := { grid1 with variants := [variant0] }
    g.variants ≠ [] ∧ (stImg.withImages g).2.isSome = true ∧ stImg.grid 1 = some g
    ∧ (({ stImg with l3tlb := [] } : State).withImages g).2 = none := by decide +kernel

/-- TEAM_PLACE: team 1 of the grid, its first; a saved team; a grid not dispatched; an owner outside its slice. -/
theorem witness_TeamPlace :
    let old : State := { stP with teams := [swapped1], flights := [lane1] }
    (stP.withImages gridP).2 = some gridP ∧ (old.withImages gridP).2 = some gridP ∧ (old.frameBad swapped1) = none
    ∧ old.devHold (old.frameHeads [swapped1]) (.sys (.grid gridP.key)) = none ∧ stP.grid 1 = some gridP ∧
    (placed stP gridP [[rich], [lean]]).map (fun p => (p.1, p.2.1)) = some (1, []) ∧ max 1 gridP.group = 1 ∧ stP.ownerRuns 1 = true
    ∧ (stP.spiltTeams 1).all (fun u => u.grid ≠ 1) = true ∧ stP.earlierGrids gridP = [] ∧ (stP.freeHandle 1).isSome = true
    ∧ (placed old gridP [[rich]]).map (fun p => (p.1, p.2.1)) = some (0, [1]) ∧ old.team 1 = some swapped1 ∧ old.swapBad gridP 0 = none
    ∧ (old.variantOf swapped1).isSome = true ∧ (old.teamFrame swapped1).isSome = true ∧ (old.flights.map Flight.key).Nodup
    ∧ old.flight 1 = some lane1 ∧ ({ stP with parts := [{ part0 with turn := none }] } : State).ownerRuns 1 = false := by decide +kernel

def ended1 : Flight := { lane1 with ended := true, core := 1, quad := 4 }

/-- TEAM_RETIRE of a done team and of one that runs; WCET_OVERRUN above and at the worst case. -/
theorem witness_TeamRetire :
    let s : State := { stP with flights := [ended1] }
    s.team 1 = some { team1 with core := 1 } ∧ s.teamDone { team1 with core := 1 } = true ∧ stP.teamDone { team1 with core := 1 } = false
    ∧ (s.owner 1).state = 1 ∧ ({ gridP with cls := 1 } : Grid).cls = 1 ∧ rich.wcet = 0
    ∧ ({ team1 with issueTime := 1 } : Team).issueTime > rich.wcet ∧ team1.issueTime ≤ rich.wcet
    ∧ stP.variantOf { team1 with core := 1 } = some rich := by decide +kernel

def far1 : Team := { team1 with core := 1, blockedFor := 65536 }

/-- FORWARD_PROGRESS_SWAP: a unit stuck at a barrier above its core for 2^16 cycles, one blocked for less. -/
theorem witness_TeamsMove_swap :
    let b : Flight := { lane1 with core := 1, quad := 4, block := .barrier 2 0 }
    let s (n : Nat) : State := { stP with teams := [{ far1 with blockedFor := n }], flights := [b], barriers := [⟨1, 2, 0, 0, [(1, [])]⟩] }
    (s 65536).stuck far1 = true ∧ (s 65535).stuck { far1 with blockedFor := 65535 } = false ∧ (s 65536).team 1 = some far1
    ∧ ((s 65536).nextUnit gridP).isSome = true ∧ (s 65536).groupOf far1 = [far1] ∧ (s 65536).swapBad gridP 0 = none
    ∧ ((s 65536).variantOf far1).isSome = true ∧ (s 65536).teamFlights 1 = [b] ∧ (s 65536).barrierDone b 2 0 = false
    ∧ (((s 65536).withImages gridP).2 = some gridP) ∧ gridP.variants ≠ []
    ∧ (((s 65536).release 1).released 1 = true ∧ ((s 65536).release 1).teamAccesses 1 = []) ∧ ((s 65536).release 1).team 1 = some far1
    ∧ ((s 65536).release 1).teamFlights 1 = [b] ∧ ((s 65536).release 1).barrierDone b 2 0 = false
    ∧ ((s 65536).release 1).devHold ((Frame.pages gridP.swap (0 * gridP.frameSz)).heads gridP.frameSz) (.sys (.grid 1)) = none
    ∧ far1.key < st.nextKey + 2 ∧ 1 ≤ gridP.group := by decide +kernel

/-- MIGRATION to core 2; LANDING_REMAP from the richer variant to the other; requests up, down and neither. -/
theorem witness_TeamsMove_moves :
    let u : Team := { team1 with core := 1 }
    let q : Team := { u with request := some ⟨1, false, some 0⟩ }
    let f : Flight := { lane1 with core := 1, quad := 4, block := .land 7 }
    let s : State := { stP with teams := [q], flights := [f] }
    stP.teamRuns u = true ∧ stP.groupOf u = [u] ∧ 2 ∈ (stP.partOf 1).teamCores ∧ stP.instanceOk gridP 0 2 = true
    ∧ (stP.liveForwards 1).length + 1 ≤ 4 ∧ (stP.withImages gridP).2 = some gridP
    ∧ ((stP.release 1).released 1 = true ∧ (stP.release 1).teamAccesses 1 = [] ∧ (stP.release 1).team 1 = some u)
    ∧ ((stP.release 1).teams.map Team.key).Nodup ∧ ((stP.release 1).flights.map Flight.key).Nodup
    ∧ ((stP.release 1).fitOn 2 gridP ([u].filterMap stP.variantOf) false).map Prod.snd = some []
    ∧ s.gathered q = some [(f, 7)] ∧ s.teamRuns q = true ∧ s.remapReady q = true ∧ (s.targetPlace gridP q lean).isSome = true
    ∧ ({ s with owners := [ownB] } : State).targetPlace gridP q lean = none ∧ rich.landing 7 ≠ none ∧ lean.landing 7 ≠ none
    ∧ ({ s with flights := [{ f with flags := listSet f.flags 3 1 }] } : State).remapReady q = false
    ∧ keyPairs ⟨7, 0x1000, [key0]⟩ ⟨7, 0x1840, [key0]⟩ = [(key0, key0)] ∧ f.pend = [] ∧ f.chain.isOpen = false
    ∧ ((s.withImages gridP).2 = some gridP ∧ (s.release 1).released 1 = true ∧ (s.release 1).teamAccesses 1 = [])
    ∧ ((s.release 1).team 1 = some q ∧ (s.release 1).gathered q = some [(f, 7)] ∧ ((s.release 1).targetPlace gridP q lean).isSome = true)
    ∧ ((s.release 1).flights.map Flight.key).Nodup ∧ kget Variant.num lean.num gridP.variants = some lean ∧ s.liveForwards 1 = []
    := by decide +kernel

theorem witness_TeamsMove_requests :
    let u : Team := { team1 with core := 1, variant := 1 }
    let s : State := { stP with teams := [u] }
    s.mayUpgrade gridP u rich = true ∧ stP.mayUpgrade gridP { team1 with core := 1 } lean = false
    ∧ stP.mayDowngrade gridP { team1 with core := 1 } lean = false ∧ gridP.cls = 0 ∧ kget Variant.num 1 gridP.variants = some lean
    ∧ ({ stP with teams := [{ team1 with core := 1, request := some ⟨1, false, some 4096⟩ }] } : State).gathered
      { team1 with core := 1, request := some ⟨1, false, some 4096⟩ } = none := by decide +kernel

/-- The owner's progress count at and below 2^20; a slice that has run out and one that has not; the next turn. -/
theorem witness_TeamsMove_slices :
    let s (n : Nat) : State := { stP with parts := [{ part0 with left := n }] }
    let idle : State := { stP with parts := [{ part0 with turn := none }], flights := [{ lane1 with halted := true, core := 1, quad := 4 }] }
    let u := (idle.putOwner ownS.takeHost).putPart { (idle.part 0) with turn := some 0, left := ownS.hostSlice }
    ({ ownS with progress := 2 ^ 20 } : Owner).state = 1 ∧ ownS.progress < 2 ^ 20 ∧ ((s 0).part 0).turn = some 0 ∧ ((s 0).part 0).left = 0
    ∧ ((s 1).part 0).left = 1 ∧ (s 0).ownersOf 0 = [ownS] ∧ ownS.slot = 0 ∧ (idle.part 0).active = true ∧ (idle.part 0).dead = false
    ∧ (idle.part 0).turn = none ∧ idle.nextOwner 0 = some ownS ∧ idle.spiltTeams 1 = []
    ∧ u.mayRun { lane1 with halted := true, core := 1, quad := 4 } = true
    ∧ ({ idle with owners := [{ ownS with state := 2 }] } : State).nextOwner 0 = none := by decide +kernel

/-- Owner 1 with a 2 MiB exposure at address 0, one queue of 16 entries with its rings in the vestibule. -/
def hq : HostQueue := { HostQueue.reset with qbase := 0x110000, cqbase := 0x120000, logn := 4, en := true, ring := 0x110000, cring := 0x120000, elogn := 4 }
def region : XferEntry := ⟨0, 2 ^ 21, false, none, false, [], []⟩
def page4 (n : Nat) : XferEntry := ⟨4096 * n, 4096, false, none, false, [], []⟩
def ownX : Owner := { ownB with expose := [(0, 1), (0, 0), (0, 0), (0, 0)], queues := hq :: List.replicate 7 HostQueue.reset, entries := [region] }
def stH : State := { st with
  owners := [ownX], parts := [{ part0 with groups := [] }], l3tlb := [(0, ⟨1, 0, 0, 2 ^ 30, 0, true, true, true⟩), (0, ⟨1, 0, 2 ^ 30, 2 ^ 30, 0, false, false, false⟩)] }
def stH.of (o : Owner) : State := { stH with owners := [o] }

/-- WaysAndErrors: the access count at and below 2^20; moves with units to give and without; a full error log and one with room. -/
theorem witness_WaysAndErrors :
    let a : Owner := { own1 with slot := 0, maxw := 16, hostMaxw := 16, floor := 2, misscurve := [90, 80, 70, 50, 40] ++ List.replicate 12 40 }
    let b : Owner := { own1 with vd := 2, slot := 1, maxw := 16, hostMaxw := 16, floor := 2, misscurve := [90, 80, 79, 79] ++ List.replicate 13 79 }
    ({ part0 with llcAccesses := 2 ^ 20 - 1 } : Partition).llcAccesses < 2 ^ 20 ∧ (2 ^ 20 : Nat) ≤ ({ part0 with llcAccesses := 2 ^ 20 } : Partition).llcAccesses
    ∧ sumFloors [a, b] < 16 ∧ (moveWay [a, b]).isSome = true ∧ 16 ≤ sumFloors [a, { b with floor := 14 }]
    ∧ (moveWay [a, { b with floor := 14 }]).isSome = true ∧ ([a, b].map Owner.vd).Nodup ∧ a.hostMinw ≤ a.hostMaxw
    ∧ own1.errors.length < 16 ∧ 16 ≤ ({ own1 with errors := List.replicate 16 ⟨7, 1, 0, 0⟩ } : Owner).errors.length
    ∧ own1.balustrade 0 1 = none ∧ ownB.balustrade 0 1 = some false := by decide +kernel

/-- An LLC line, L2 and L1 lines and TLB entries that an error can strike. -/
theorem witness_Errors :
    let l : LlcLine := ⟨5, 1, 0, 4, List.replicate 128 0, 1, 0⟩
    let a : CacheLine := ⟨.l2 0, 6, .M, 1, 5, List.replicate 128 0, 3, 0, false⟩
    let b : CacheLine := ⟨.l1 0, 7, .E, 1, 5, List.replicate 128 0, 0, 0, false⟩
    let te : TlbEntry := ⟨1, 0, 0x4000, 4096, 0, true, true, true⟩
    let s : State := { stH with llc := [l], lines := [a, b], l1tlb := [(0, te)], l2tlb := [(0, te)] }
    kget LlcLine.line (640 / 128) s.llc = some l ∧ l.dirty.getLsbD 0 = true ∧ l.dirty.getLsbD 1 = false ∧ setOf 5 = (setOf l.line)
    ∧ (∀ x ∈ s.lines, x.cache = a.cache → x.line = a.line → x = a) ∧ (∀ x ∈ s.lines, x.cache = b.cache → x.line = b.line → x = b)
    ∧ 640 / 128 = 5 ∧ 768 / 128 = 6 ∧ 896 / 128 = 7 ∧ te.va ≤ 0x4FFF ∧ 0x4FFF < te.va + te.size
    ∧ (s.strike ⟨.llcData, 0, 640, 128⟩).2 = [1] ∧ (s.strike ⟨.l2Data, 0, 768, 128⟩).2 = [1] ∧ (s.strike ⟨.coreL1, 0, 896, 128⟩).2 = [1]
    ∧ (s.strike ⟨.l3Tlb, 0, 0, 0⟩).2 = [1, 1] ∧ s.ownersOf 0 = [ownX] := by decide +kernel

/-- HostQueues: a doorbell of a queue that is off, past the ring, at its end; a packet that can be read and one that is poisoned. -/
theorem witness_HostQueues :
    let o' : Owner := { ownX with queues := { hq with qhead := 3, entries := 15 } :: List.replicate 7 HostQueue.reset }
    (ownX.queue 0).en = true ∧ (ownX.queue 1).en = false ∧ ownX.state = 1 ∧ ownX.queues.length = 8 ∧ 2 ^ (ownX.queue 0).elogn = 16
    ∧ (ownX.queue 0).qhead = 0 ∧ (ownX.queue 0).entries + (ownX.queue 0).pending < 16 ∧ ownX.balustrade 0x110000 64 = some false
    ∧ (o'.queue 0).entries + (o'.queue 0).pending + 1 = 2 ^ (o'.queue 0).elogn ∧ (∀ b ∈ (List.range 64).map (0x110000 + ·), stH.badByte b = false)
    ∧ (∃ b ∈ [0x110000], ({ stH with poison := [0x110000] } : State).badByte b = true)
    ∧ (stH.putOwner { ownX with queues := listSet ownX.queues 0 { hq with qtail := 1 } }).devHold
      ((List.range 64).map fun i => 0x110000 + i) (.sys (.packet 0)) = none
    ∧ ({ hq with en := false } : HostQueue).pending = 0 ∧ (0x104 : BitVec 32).getLsbD 8 = true ∧ (0x104 : BitVec 32).toNat % 16 = 4
    ∧ (0x10C : BitVec 32).toNat % 16 = 12 ∧ (0x103 : BitVec 32).toNat % 16 < 4 ∧ 12 < (0x10D : BitVec 32).toNat % 16
    ∧ (4 : BitVec 32).getLsbD 8 = false := by decide +kernel

/-- A packet of op `op` to an address. -/
def pkt (op addr : Nat) : List Byte := leBytes 1 op ++ [1, 0, 0] ++ leBytes 4 0x77 ++ leBytes 8 addr ++ List.replicate 48 0
def withPkt (op addr : Nat) : State := stH.of { ownX with queues := { hq with packets := [pkt op addr], pending := 1 } :: List.replicate 7 HostQueue.reset }

theorem witness_HostPackets :
    ([(1, 0x4000), (2, 0x4040), (3, 0x4008), (1, 0x4020), (3, 0x4004), (1, 2 ^ 57), (1, 2 ^ 30), (0, 0), (4, 0)].all fun p =>
      (withPkt p.1 p.2).packet 1 0 = some ⟨p.1, true, 0x77, p.2⟩ && ((withPkt p.1 p.2).devHold ((withPkt p.1 p.2).ringBytes 1 0) (.sys (.packet 0))).isNone) = true
    ∧ ownX.balustrade (hq.cring + 16 * hq.cqwrite) 16 = some false ∧ region.owed = []
    ∧ (match stH.lookL3 1 0 0x4000 .store with | .hit e => e.phys 0x4000 = 0x4000 | _ => false) = true
    ∧ (match stH.lookL3 1 0 (2 ^ 30) .store with | .lacks => true | _ => false) = true
    ∧ (stH.of { ownX with entries := [] }).devHold ((List.range 4).map fun i => 0x4008 + i) (.sys (.packet 0)) = none := by decide +kernel

/-- ExposedMemory: an entry whole and split, owned by each side, in transfer, missing; a transfer that can end and one that waits; an
answer for a line. -/
theorem witness_ExposedMemory :
    let split : Owner := { ownX with entries := [page4 0, page4 1] }
    let moving (l : List Nat) : XferEntry := { region with isP := true, request := true, transfer := some (false, l) }
    ownX.xferBusy = false ∧ ({ ownX with xferBusy := true } : Owner).xferBusy = true ∧ ownX.entryAt 0x1000 = some region ∧ ownX.entryAt (2 ^ 21) = none
    ∧ split.entryAt 0x1000 = some (page4 1) ∧ region.transfer = none ∧ region.len = 2 ^ 21 ∧ (page4 1).len ≠ 2 ^ 21
    ∧ (split.entries.filter fun x => x.offset / 2 ^ 21 = 0).all (fun x => x.transfer = none && !x.isP) = true
    ∧ region.isP = false ∧ ({ region with isP := true } : XferEntry).isP = true ∧ region.owed = []
    ∧ (moving [64]).transfer ≠ none ∧ ({ region with owed := [(.op 1)] } : XferEntry).owed ≠ [] ∧ ownX.xferPend = none
    ∧ (split.entries.all fun x => x.transfer = none && x.owed = []) = true ∧ (∃ x ∈ [page4 0, { page4 1 with isP := true }], x.isP ≠ (page4 0).isP)
    ∧ stH.plain 1 = false ∧ ({ stH with pcie := [true, true] } : State).plain 1 = true ∧ ownX.entryLines region ≠ []
    ∧ kget XferEntry.offset 0 [moving []] = some (moving []) ∧ (moving []).transfer = some (false, []) ∧ (moving [64]).transfer = some (false, [64])
    ∧ ({ region with request := true, transfer := some (true, []) } : XferEntry).held = []
    ∧ (∀ h ∈ List.replicate 8 HostQueue.reset, h.en = false) ∧ rangesAt ownX.exposure 64 = some 64 ∧ stH.mapped 64 = true
    ∧ rangesAt ownX.exposure 63 ≠ some 64 ∧ stH.pinned 0 = false ∧ memoryWf stH = true := by decide +kernel

/-- Accesses from outside: a decoder without and with a target; an exposure of the host's and one of the device's; a BAR2 access held
and not; lines on both sides of 2^51; a peer that is paired and one that is not. -/
theorem witness_ExposedMemory_outside :
    let p : Owner := { ownX with entries := [{ region with isP := true }], pairs := 0x80002003 :: List.replicate 11 0 }
    let s : State := { stH.of p with hdmTgt := [0x80000001], links := [⟨0, true, 3, [(2, 0x80001000)], false⟩] }
    let b : PeerBlock := ⟨0, 1, 2, 0x4000, List.replicate 64 7⟩
    (s.hdmTgt.getD 0 0).getLsbD 31 = true ∧ (s.hdmTgt.getD 1 0).getLsbD 31 = false ∧ (s.hdmTgt.getD 0 0).toNat % 512 = 1 ∧ s.mgmt.minimal = false
    ∧ (s.owner 1).entriesOf (.read 0 4) = [{ region with isP := true }] ∧ ownX.entriesOf (.write 0 [1]) = region :: []
    ∧ rangesAt p.exposure 0 = some 0 ∧ rangesAt p.exposure 1 ≠ some 0 ∧ region.held = []
    ∧ s.barWaits 1 (.write 0 [1]) = false ∧ p.port = 0 ∧ s.pcie.getD p.port false = false ∧ (∃ b ∈ s.pcie, b = false)
    ∧ ({ s with pcie := [true, false] } : State).pcie.getD p.port false = true ∧ 384 ≤ 384 + 0 ∧ s.pinned (2 ^ 44) = false
    ∧ s.barWaits 1 (.read 0 4) = false ∧ (∀ e ∈ (s.owner 1).entriesOf (.read 0 4), e.isP = true ∧ e.transfer = none)
    ∧ ((stH.of ownX).devHold [0] (.bar2 (.write 0 [1]))).isNone = true
    ∧ ((stH.of p).devHold [0] (.bar2 (.write 0 [1]))).isSome = true ∧ rangesAt p.exposure (2 ^ 21) = none
    ∧ 128 * 5 < 2 ^ 51 ∧ 2 ^ 51 ≤ 128 * 2 ^ 44
    ∧ s.peerPaired b = true ∧ s.peerPaired { b with farVd := 3 } = false ∧ p.state ≠ 0 ∧ b.va.toNat % 4096 + b.bytes.length ≤ 4096
    ∧ (match s.lookL3 1 0 0x4000 .copyWrite with | .hit e => e.phys 0x4000 = 0x4000 | _ => false) = true
    ∧ (match s.lookL3 1 0 (2 ^ 30) .copyWrite with | .lacks => true | _ => false) = true ∧ s.pinned (0x4000 / 128) = false
    ∧ ((stH.of { p with entries := [] }).devHold [0x4000] (.sys (.peer b))).isNone = true := by decide +kernel

/-- OwnersStartAndStop: an owner that runs, stalled for each kind of reason, paused, busy, with a paused copy. -/
theorem witness_OwnersStartAndStop :
    let idle (st' r : Nat) : Owner := { ownX with state := st', reason := r, queues := List.replicate 8 HostQueue.reset }
    let s : State := stH.of (idle 3 0)
    ownX.opBusy = false ∧ ownX.balDropping = none ∧ ownX.state = 1 ∧ (idle 2 1).state = 2 ∧ (idle 2 1).reason < 0x80 ∧ (idle 2 5).reason = 5
    ∧ (idle 2 7).reason = 7 ∧ 0x80 ≤ (idle 2 0x80).reason ∧ (∀ h ∈ (idle 2 7).queues, h.en = false)
    ∧ stH.copyPaused 1 = false ∧ ({ stH with copies := [copyFor .cpy (.paused 1) (padSide 0) (padSide 0) 0 0] } : State).copyPaused 1 = true
    ∧ (s.putOwner { idle 3 0 with state := 1 }).mayRun lane1 = true ∧ (s.flights.map Flight.key).Nodup
    ∧ s.ownerDrained 1 = true ∧ ({ s with memOps := [⟨5, 1, .ld, 0, 1, 0, BufRec.zero, 4, 10, 1, [], some 3, 0x1000⟩] } : State).ownerDrained 1 = false
    ∧ 4 ≤ (idle 4 0).state ∧ (idle 3 0).balWaiting = []
    ∧ (let r : State := { stH.of (idle 4 0) with agenda := [.resetDone 1] }
      r.agenda = .resetDone 1 :: [] ∧ (r.owner 1).state = 4 ∧ (r.owner 1).balWaiting = [] ∧ (r.owner 1).vd = 1) := by decide +kernel

/-- A header that passes: SMAP of one general register, rings of 64 entries, a pool of one frame. -/
def vestMem : List (Nat × Byte) :=
  field 0x100000 4 0x01015643 ++ field 0x100008 8 0x8000 ++ field 0x100010 8 0x8000 ++ field 0x100018 8 0x8000 ++ field 0x100020 8 0x10006
    ++ field 0x100028 8 0x20006 ++ field 0x100030 8 0x3000C ++ field 0x100038 8 0x40000 ++ field 0x100050 1 3 ++ field 0x130000 4 1
def stV : State := { stH with
  mem := Memory.puts [] vestMem, owners := [{ ownX with state := 0, bal := 0x1001 :: List.replicate 63 0 }]
  parts := [{ part0 with groups := [] }] }

theorem witness_OwnersStart :
    stV.headerOk 1 = true ∧ ({ stV with mem := [] } : State).headerOk 1 = false ∧ (stV.owner 1).opBusy = false ∧ (stV.owner 1).balDropping = none
    ∧ (stV.owner 1).state = 0 ∧ (stV.owner 1).enable = true ∧ (stV.part 0).active = true ∧ memoryWf stV = true
    ∧ stV.lines = [] ∧ stV.llc = [] ∧ team1.windows = [] := by decide +kernel

/-- BalustradeInterruptsMigration: entries 63 and 64, memory inside and outside the partition's, a drop under way and done; an image
saved by a paused owner, one that may be loaded, and one that may not. -/
theorem witness_BalustradeInterruptsMigration :
    let s : State := { stH with parts := [part0] }
    let drop : Owner := { ownX with balDropping := some [4] }
    s.balMay 1 0x1001 = true ∧ s.balMay 1 (BitVec.ofNat 64 (2 ^ 63 + 0x1001)) = true ∧ s.balMay 1 0 = true
    ∧ s.balMay 1 (BitVec.ofNat 64 (2 ^ 47 + 0x1001)) = false
    ∧ ownX.balDropping = none ∧ drop.balDropping = some [4] ∧ s.allDone [4] = true
    ∧ ({ s with memOps := [⟨4, 1, .ld, 0, 1, 0, BufRec.zero, 4, 10, 1, [], some 3, 0x1000⟩] } : State).allDone [4] = false
    ∧ ({ ownX with pba := 2, msixMask := 0xFFFD } : Owner).pba.getLsbD 1 = true ∧ (0xFFFD : BitVec 16).getLsbD 1 = false
    ∧ (0x200000 + 0xFFF : Nat) < 2 ^ 24 ∧ (List.range 0x1000).all (fun i => s.mapped (0x200000 + i)) = true
    ∧ (let p : State := stH.of { ownX with state := 3, migAddr := 0x200000, bal := 0x1001 :: List.replicate 63 0 }
      (p.owner 1).opBusy = false ∧ (p.owner 1).balDropping = none ∧ (p.owner 1).state = 3 ∧ (p.liveTeams 1).map Team.key = [1]
      ∧ (∀ u ∈ p.liveTeams 1, p.teamAccesses u.key = []) ∧ memoryWf p = true ∧ (p.owner 1).bal.length = 64
      ∧ (p.owner 1).expose.length = 4 ∧ (p.owner 1).pairs.length = 12
      ∧ (List.range 0x1000).all (fun i => p.mapped ((p.owner 1).onPort 0x200000 + i)) = true) := by decide +kernel

def ownM : Owner := { ownX with state := 0, migAddr := 0x200000, bal := 0x1001 :: List.replicate 63 0 }

theorem witness_Migration :
    let image := bytesAt 0x200000 (leBytes 4 0x00014D56) ++ bytesAt 0x2000C8 (leBytes 8 0x100000 ++ leBytes 8 0x200000)
      ++ bytesAt 0x200140 (List.replicate 8 0 ++ leBytes 8 1) ++ bytesAt 0x2002C0 (leBytes 8 0x1001)
    let s : State := { stH.of ownM with mem := Memory.puts [] image }
    s.imageOk ownM 0x200000 = true ∧ (stH.of ownM).imageOk ownM 0x200000 = false ∧ ownM.opBusy = false ∧ ownM.balDropping = none
    ∧ ownM.bal.length = 64 ∧ ownM.expose.length = 4 ∧ ownM.pairs.length = 12 ∧ stH.saved = [] ∧ memoryWf s = true
    ∧ leNat (s.image 0x200000 0 2) = 0x4D56 ∧ leNat (s.image 0x200000 2 2) = 1
    ∧ s.image 0x200000 0xC8 16 = leBytes 8 ownM.vbase.toNat ++ leBytes 8 ownM.vlimit.toNat
    ∧ s.image 0x200000 0x140 64 = (ownM.expose.flatMap fun e => leBytes 8 e.1.toNat ++ leBytes 8 e.2.toNat)
    ∧ s.image 0x200000 0x2C0 512 = (ownM.bal.flatMap fun e => leBytes 8 e.toNat) ∧ ownM.onPort 0x200000 = 0x200000 := by decide +kernel

/-- A signature of the image below under the modulus 2^3071, computed outside Lean. -/
def sigBytes : List Byte :=
  beBytes 64 0x3abd81ca6350b619d9e4cc301f33b7ea0d9deaf7116a3601d9d8fed9770f2bacdf152253c92e3af070933f861f2e616f590e81fe1d5d76c21e7f1d86cc39de79
    ++ beBytes 64 0xc7efc1039daabedb197fc60e551799a8f04eb2293537787d430f5040ea3186cd09af4e829797687ba85e626f0c45882e161aa91aafef05d17b44983a89ef3736
    ++ beBytes 64 0x50ee8e6f6ba1ce545f2bcc8271bca932f5446c96be89cf9b3906bdde689531a18de31f3a085c2ab503887fd67a8ab007ed8c79c3e2e674f068222b366148b5aa
    ++ beBytes 64 0xdce0b1b77b7b8568a96d51ea773778f489d55627c32121b456785a85df34e930014eb5a93346f950b2393b13e9ebd387d5d5329c2319fb6a17cc7fbd248d5033
    ++ beBytes 64 0x3c125f8b311e890509aff4ad739109c738cc621f240a32b345f4c747de4c42df17e448205845306b58dc359c49b16dc36330ca349a231983dfe6579bafcd326a
    ++ beBytes 64 0xdff7f4b91be61b6474ae1a7f50f0e1de01c5b630dab09252a55ff4127c539d7490944288de4e8984b38b4b996f4889f3c2063435c8f3f633a64cce60a026164b

/-- An image of 8 bytes in slot A, its key and its signature, in flash; fuse key 0 is the digest of the key. -/
def signedM : Mgmt :=
  { Mgmt.reset with
    flash := bytesAt 0x10000 (leBytes 4 0x31465843 ++ leBytes 4 0 ++ leBytes 4 8) ++ (bytesAt 0x10100 [3] ++ (bytesAt 0x10108 [0x80]
      ++ bytesAt 0x10288 sigBytes))
    fuseKey := [beBytes 32 0x55fde15f5a7e4003e0897966c5df060c9af34d7a73d9f82d7391715d9a7356ec] }

theorem get_bytesAt (a : Nat) (bs : List Byte) (m : Memory) (x : Nat) :
    Memory.get (bytesAt a bs ++ m) x = if a ≤ x ∧ x < a + bs.length then bs.getD (x - a) 0 else Memory.get m x := by
  have key : ∀ n k, n + k = bs.length →
      Memory.get (((List.range' k n).map fun i => (a + i, bs.getD i 0)) ++ m) x
        = if a + k ≤ x ∧ x < a + bs.length then bs.getD (x - a) 0 else Memory.get m x := by
    intro n
    induction n with
    | zero => intro k hk; rw [if_neg (by omega)]; rfl
    | succ n ih =>
      intro k hk
      simp only [List.range'_succ, List.map_cons, List.cons_append, Memory.get]
      rcases Nat.lt_trichotomy (a + k) x with h | h | h
      · rw [if_neg (by omega), ih (k + 1) (by omega)]
        simp only [show (a + (k + 1) ≤ x) = (a + k ≤ x) by apply propext; omega]
      · subst h; rw [if_pos rfl, if_pos (by omega), Nat.add_sub_cancel_left]
      · rw [if_neg (by omega), ih (k + 1) (by omega), if_neg (by omega), if_neg (by omega)]
  have := key bs.length 0 (by omega)
  simpa [bytesAt, List.range_eq_range'] using this

theorem signed_get (x : Nat) : signedM.flash.get x =
    if 0x10000 ≤ x ∧ x < 0x10000 + 12 then (leBytes 4 0x31465843 ++ leBytes 4 0 ++ leBytes 4 8).getD (x - 0x10000) 0
    else if x = 0x10100 then 3 else if x = 0x10108 then 0x80
    else if 0x10288 ≤ x ∧ x < 0x10288 + 384 then sigBytes.getD (x - 0x10288) 0 else 0 := by
  have e : signedM.flash = bytesAt 0x10000 (leBytes 4 0x31465843 ++ leBytes 4 0 ++ leBytes 4 8)
      ++ (bytesAt 0x10100 [3] ++ (bytesAt 0x10108 [0x80] ++ (bytesAt 0x10288 sigBytes ++ []))) := by simp [signedM]
  have l1 : (leBytes 4 0x31465843 ++ leBytes 4 0 ++ leBytes 4 8).length = 12 := by decide +kernel
  have l2 : sigBytes.length = 384 := by decide +kernel
  rw [e, get_bytesAt, get_bytesAt, get_bytesAt, get_bytesAt, l1, l2]
  by_cases h1 : x = 0x10100
  · subst h1; simp
  · by_cases h2 : x = 0x10108
    · subst h2; simp
    · rw [if_neg (show ¬(0x10100 ≤ x ∧ x < 0x10100 + [(3 : Byte)].length) by simp; omega),
        if_neg (show ¬(0x10108 ≤ x ∧ x < 0x10108 + [(0x80 : Byte)].length) by simp; omega), if_neg h1, if_neg h2]
      rfl

theorem witness_SignedImage :
    signedM.flashWord 0x10000 = 0x31465843 ∧ signedM.flashWord 0x10008 = 8 ∧ signedM.minver.toNat ≤ signedM.flashWord 0x10004
    ∧ signedM.flashWord 0x1000C = 0 ∧ signedM.revoke.getLsbD 0 = false
    ∧ sha256 (signedM.flash.read 0x10108 384) = signedM.fuseKey.getD 0 []
    ∧ rsaVerify (signedM.flash.read 0x10108 384) (signedM.flash.read 0x10288 384) (sha256 (signedM.flash.read 0x10000 264)) = true
    ∧ signedM.sram.wf = true ∧ ({ signedM with revoke := 1 } : Mgmt).revoke.getLsbD 0 = true
    ∧ signedM.flashWord 0x100000 ≠ 0x31465843 ∧ ({ signedM with minver := 1 } : Mgmt).minver.toNat > signedM.flashWord 0x10004 := by
  simp only [Mgmt.flashWord, Memory.read, signed_get]
  decide +kernel

/-- PackageStarts: the watchdog running and not; a gallery too hot with every partition at 350 MHz, and one not; each request; two and
three failed starts. -/
theorem witness_PackageStarts :
    let hot (p : Partition) (c : Nat) : State := { st with parts := [p], mgmt := { st.mgmt with temp := [c, 0, 0, 0] } }
    let slow : Partition := { part0 with clock := 350 }
    let m (req : Word) (n : Nat) : Mgmt := { Mgmt.reset with rstreq := req, flash := Memory.puts [] (field 0 4 n) }
    ({ st.mgmt with wdog := 1 } : Mgmt).wdog ≠ 0 ∧ st.mgmt.wdog = 0
    ∧ (let r : State := { st with agenda := [.millisecond 900], mgmt := { st.mgmt with wdog := 1 } }
      r.agenda = .millisecond 900 :: [] ∧ r.mgmt.wdog = 1)
    ∧ 110 ≤ (hot slow 110).mgmt.temp.getD 0 0 ∧ (∀ p ∈ (hot slow 110).parts, p.inGallery 0 = true → p.mhz = 350)
    ∧ ¬110 ≤ (hot slow 109).mgmt.temp.getD 0 0 ∧ part0.inGallery 0 = true ∧ part0.mhz ≠ 350
    ∧ (m 2 0).started = false ∧ ({ m 0 0 with started := true } : Mgmt).started = true ∧ (m 2 0).rstreq = 2 ∧ (m 3 3).rstreq = 3
    ∧ (m 0 3).flashWord 0 = 3 ∧ (m 0 2).flashWord 0 < 3 ∧ (m 0 2).flash.wf = true := by decide +kernel

/-- The free choice of a flash write takes each value; without an image in flash both slots are refused. -/
theorem witness_PackageStarts_slots :
    (Mgmt.reset.trySlot 0x10000).1 = 3 ∧ (Mgmt.reset.trySlot 0x100000).1 = 3 := by decide +kernel

/-- 21 R415, R419, R423: a millisecond from 2,000 ms, and the last one. -/
theorem test_millisecond :
    let at' (n : Nat) : Mgmt := (State.millisecond { st with mgmt := { st.mgmt with wdog := n, rstreq := 3 } } 900).mgmt
    (at' 2000).wdog = 1999 ∧ (at' 2000).power = 900 ∧ (at' 1).wdog = 0 ∧ (at' 1).rstreq = 3 ∧ (at' 1).started = false
    ∧ (at' 2).started = st.mgmt.started := by decide +kernel

/-- ManagementBlocks: the accelerator idle and busy with each operation, an operand that can be read and one that cannot, key indices 3
and 4, measurements 7 and 8; the controller's writes, at the last word; requests of 0, 1,024 and 1,025 bytes, and with one pending. -/
theorem witness_ManagementBlocks :
    let m := Mgmt.reset
    let h (a : DWord) (op : HsaOp) (i : Word) : Mgmt := { m with hsaBusy := op, hsaSrc := a, hsaLen := 64, hsaKey := 0x40000000, hsaIdx := i }
    m.hsaBusy = .none ∧ (h 0x40000000 .hash 0).hsaBusy = .hash
    ∧ ((h 0x40000000 .hash 0).range (h 0x40000000 .hash 0).hsaSrc.toNat (h 0x40000000 .hash 0).hsaLen.toNat).isSome = true
    ∧ ((h 0x80000000 .hash 0).range (h 0x80000000 .hash 0).hsaSrc.toNat (h 0x80000000 .hash 0).hsaLen.toNat).isNone = true
    ∧ (h 0x40000000 .verify 3).hsaIdx.toNat ≤ 3 ∧ 3 < (h 0 .verify 4).hsaIdx.toNat ∧ (h 0 .extend 7).hsaIdx.toNat ≤ 7 ∧ 7 < (h 0 .extend 8).hsaIdx.toNat
    ∧ ((h 0x40000000 .verify 3).range 0x40000000 384).isSome = true
    ∧ ({ m with minimal := true } : Mgmt).minimal = true ∧ m.minimal = false ∧ m.flcBusy = false
    ∧ ({ m with flcBusy := true, flcAddr := 0x3FFFFFF } : Mgmt).flcAddr.toNat / 4 * 4 + 4 ≤ 0x4000000 ∧ m.flash.wf = true
    ∧ m.rxlen = 0 ∧ m.powered = true ∧ m.started = false ∧ m.halted = false ∧ (List.replicate 1024 (0 : Byte)).length ≤ 1024
    ∧ (m.meas.getD (8 - 1) []).length = 32 ∧ (0x00 : Byte).getLsbD 0 = false
    ∧ (65535 : BitVec 32).toNat ≤ 65535 ∧ 65535 < (65536 : BitVec 32).toNat ∧ m.mtvec = 0
    ∧ ({ m with mtvec := 0x100 } : Mgmt).mtvec ≠ 0 := by decide +kernel

/-- PartitionsLinksClocks: a block that APPLY takes, and one that fails each check alone. -/
def blockP : Partition := { Partition.reset 1 with phalls := 2, pchgrp := 2, psvc := 12, parc := 1, ppower := 47, patq := 1024 }

/-- The checks of 21 R424 that fail, of c1 to c6. -/
def failing (s : State) (n : Nat) : List Nat :=
  let p := s.part n
  let bitsOf (w : Word) (k : Nat) : List Nat := (List.range k).filter fun i => w.getLsbD i
  let halls := bitsOf p.phalls 24
  let groups := bitsOf p.pchgrp 32
  let arc := bitsOf p.parc 12
  let svc := p.psvc.toNat % 512 :: if p.psvc.getLsbD 31 then [p.psvc.toNat / 65536 % 512] else []
  let base := p.pt2.toNat % 65536
  let size := p.pt2.toNat / 65536
  let others := s.parts.filter fun x => x.active && decide (x.num ≠ n)
  let enabled := (s.owners.filter fun o => o.enable && o.part = n).length
  let meet (a b : List Nat) : Bool := a.any b.contains
  let c4 := (others.any fun x => meet x.halls halls || meet x.groups groups || meet x.arc arc
      || (size ≠ 0 && x.t2.2 ≠ 0 && base < x.t2.1 + x.t2.2 && x.t2.1 < base + size))
    || 1024 < (others.map Partition.atq).sum + p.patq.toNat || (size ≠ 0 && s.t2size < base + size)
  let c5 := (svc.any fun c => !halls.contains (c / Config.coresPerHall)) || (16 < enabled && !p.psvc.getLsbD 31) || 24 < enabled
  let c6 := p.ppower.toNat < 30 * halls.length + 17 * groups.length || 1450 < (others.map Partition.power).sum + p.ppower.toNat
  [s.mgmt.minimal, p.active, halls.isEmpty || groups.isEmpty, c4, c5, c6].zipIdx.filterMap fun c => if c.1 then some (c.2 + 1) else none

theorem witness_Partitions :
    let s (p : Partition) (qs : List Partition) : State := { State.reset with parts := p :: qs }
    let q : Partition := { part0 with atq := 0, power := 1403 }
    failing (s blockP []) 1 = [] ∧ failing (s blockP [q]) 1 = [] ∧ failing (s blockP [{ q with power := 1404 }]) 1 = [6]
    ∧ failing (s { blockP with ppower := 46 } []) 1 = [6] ∧ failing (s { blockP with psvc := 24 } []) 1 = [5]
    ∧ failing (s blockP [{ q with atq := 1 }]) 1 = [4] ∧ failing (s blockP [{ q with halls := [1] }]) 1 = [4]
    ∧ (failing (s { blockP with pchgrp := 0 } []) 1).head? = some 3 ∧ failing (s { blockP with active := true } []) 1 = [2]
    ∧ failing { s blockP [] with mgmt := { Mgmt.reset with minimal := true } } 1 = [1] ∧ (s blockP []).mgmt.halted = false
    ∧ (State.reset.owners.all fun o => o.part = 1 → o.state = 0) = true ∧ (st.owners.any fun o => o.part = 0 && o.state ≠ 0) = true := by
  decide +kernel

/-- A link's far end with this device's identity and with another; a CPYP that a failure ends and one that it does not; clocks and
temperatures at their bounds. -/
theorem witness_LinksClocks :
    let s : State := { st with mgmt := { Mgmt.reset with arcid := 5 } }
    let k : Copy := copyFor .cpyp .active ⟨2, mkRec 1 0 0x20000 0x1000 0 0 0 0, 0, 0, 0, false, 0, 3⟩ (padSide 0) 64 0
    s.mgmt.arcid.toNat % 4096 = 5 ∧ (⟨5, []⟩ : FarEnd).identity.toNat = 5 ∧ (⟨6, []⟩ : FarEnd).identity.toNat ≠ 5
    ∧ k.dst.link = 3 ∧ k.next < k.units ∧ ({ k with next := 1 } : Copy).units ≤ 1 ∧ ([k].map Copy.key).Nodup
    ∧ 350 ≤ part0.clock ∧ part0.clock ≤ 700 ∧ part0.active = true ∧ part0.power = 100 ∧ 100 * 94 < 95 * part0.power ∧ 95 * part0.power ≤ 100 * 95
    ∧ part0.below < 99 ∧ 99 ≤ ({ part0 with below := 99 } : Partition).below ∧ s.mgmt.temp.length = 4
    ∧ part0 ∈ st.parts ∧ (∃ x ∈ part0.halls, galleryOfHall x = 0) ∧ part0.clock ∈ [700, 630, 560, 490, 420, 350]
    ∧ s.mgmt.temp.getD 0 0 < 95 := by decide +kernel

/-- RegisterWrites: an owner that has not stopped, one that has, both modes, the last queue, partition and SRAM byte. -/
theorem witness_RegisterWrites :
    own1.state ≠ 0 ∧ (Owner.reset 383).state = 0 ∧ own1.queues.length = 8 ∧ st.mgmt.minimal = false
    ∧ ({ st.mgmt with minimal := true } : Mgmt).minimal = true ∧ st.mgmt.sram.wf = true ∧ 0x7FFFF < 0x80000 ∧ (1 : Nat) % 4 ≠ 0
    ∧ (2 : Nat) ≠ 4 ∧ (1 : Nat) < 384 ∧ own1.port ≠ 1 ∧ own1.port = 0
    ∧ (let sum (s : State) : Nat := ((s.owners.filter fun w => w.enable && w.part = 0 && w.vd ≠ 1).map Owner.hostMinw).sum
      let other (n : Nat) : State := { st with owners := [own1, { own1 with vd := 2, hostMinw := n }] }
      ((0x1010 : Word).toNat % 32 = 16 ∧ (0x1010 : Word).toNat / 256 % 32 = 16 ∧ sum st + 16 ≤ 16 ∧ 16 < sum (other 1) + 16)
      ∧ ((0x0F10 : Word).toNat / 256 % 32 < (0x0F10 : Word).toNat % 32) ∧ 16 < (0x1101 : Word).toNat / 256 % 32
      ∧ sum (other 16) + own1.hostMinw ≤ 16 ∧ sum st + own1.hostMinw ≤ 16) := by decide +kernel

/-- A state with nothing cached and a load of 4 bytes outstanding. -/
def stLd : State := { st with memOps := [opAt .ld [laneAt (128 * 0x401) 4]] }

theorem witness_CoherentState : Coherent State.reset ∧ Coherent stV ∧ Coherent stLd := by
  refine ⟨⟨by decide +kernel, ?_, List.nodup_nil, ?_, ?_, ?_, ?_⟩, ⟨by decide +kernel, ?_, List.nodup_nil, ?_, ?_, ?_, ?_⟩,
    ⟨by decide +kernel, ?_, List.nodup_nil, ?_, ?_, ?_, ?_⟩⟩ <;>
    first | (intro c h; cases h; done) | decide +kernel

/-- What MemoryCompletes asks beside coherence. -/
theorem witness_MemoryCompletes_coherent :
    let o := opAt .ld [laneAt (128 * 0x401) 4]
    stLd.memOp o.key = some o ∧ stLd.flight o.flight = some lane1 ∧ stLd.flightFrame lane1 = none ∧ lane1.role.isService = false
    ∧ lane1.cls o.dst = .general ∧ stLd.wc = [] ∧ stLd.poison = [] ∧ stLd.lines = [] ∧ stLd.llc = []
    ∧ (∀ w ∈ stLd.owners, ∀ e ∈ w.entries, e.owed = []) ∧ (stLd.devHold o.bytes (.op o.key)).isNone = true ∧ o.record.isDx = false
    ∧ o.mask ≠ 0 ∧ o.policy < 3 ∧ (∀ a ∈ o.lanes, a.uc = []) ∧ (∀ b ∈ o.bytes, stLd.mapped b = true)
    ∧ stLd.inOrder o = true ∧ stLd.pinHolds o = false := by decide +kernel

/-- The lines of 17 R393, with the codes and the sectors that it gives them; each is what its sectors read as (R367 to R370). -/
theorem test_attar :
    let line (ws : List Nat) : List Byte := ws.flatMap (leBytes 4)
    let after (w : Nat) : List Byte := line (0 :: List.replicate 31 w)
    let z : List Byte := List.replicate 128 0
    let zr := line ([0, 0, 0, 2] ++ List.replicate 28 0)
    [z, zr, after 1, after 1000, after 0x40000].map attarEncode = [(0, 0), (2, 1), (3, 2), (4, 3), (5, 4)]
    ∧ attarData zr = leBytes 4 8 ++ leBytes 4 2 ++ List.replicate 24 0
    ∧ [z, line (List.replicate 32 0xFFFFFFFF), zr, after 1, after 0xFFFFFFFF, after 1000, after 0xFFFF8000, after 0x40000].all
      (fun d => attarDecode (attarEncode d).1 (attarData d) = d) = true := by decide +kernel

/- The RISC-V architecture's own compressed words and what they stand for. -/
theorem test_compressed :
    rvExpand 0x0505 = some 0x00150513 ∧ rvExpand 0x651C = some 0x00853783 ∧ rvExpand 0x7139 = some 0xFC010113
    ∧ rvExpand 0xFC06 = some 0x02113C23 ∧ rvExpand 0x70E2 = some 0x03813083 ∧ rvExpand 0x8082 = some 0x00008067
    ∧ rvExpand 0x6785 = some 0x000017B7 ∧ rvExpand 0x853E = some 0x00F00533 ∧ rvExpand 0xC399 = some 0x00078363
    ∧ rvExpand 0xA001 = some 0x0000006F ∧ rvExpand 0x9002 = some 0x00100073 ∧ rvExpand 0 = none := by decide +kernel

theorem test_rv_divide :
    rvDiv 64 4 7 0 = -1 ∧ rvDiv 64 6 7 0 = 7 ∧ rvDiv 32 4 0x80000000 (-1) = 0x80000000 ∧ rvDiv 32 6 (-7) 2 = -1 := by decide +kernel

def mgmtCore (w : Nat) : Mgmt :=
  { Mgmt.reset with
    started := true, pc := 0x10000100, xregs := (List.range 32).map fun i => dw (0x10001000 + i)
    sram := Memory.puts [] (bytesAt 0x100 (leBytes 4 w)) }

/-- ManagementCoreRuns: a core that runs and one that has halted; the words of each clause, a misaligned and an aligned address;
addresses past the blocks and at the ends of the map. -/
theorem witness_ManagementCoreRuns :
    let s : State := { State.reset with agenda := [.mgmt], mgmt := mgmtCore 0x73 }
    let f (w : Nat) : Nat := (mgmtCore w).fetch (mgmtCore w).pc.toNat 4
    let ld := 0x0000B083
    let sd := 0x00103423
    s.agenda = .mgmt :: [] ∧ s.mgmt.runs = true ∧ (mgmtCore 0).runs = true ∧ ({ mgmtCore 0 with halted := true } : Mgmt).runs = false
    ∧ f 0 % 2 ^ 16 = 0 ∧ f 0x73 = 0x73 ∧ f 0x00100073 = 0x00100073 ∧ (mgmtCore 0).mtvec = 0 ∧ ({ mgmtCore 0 with mtvec := 4 } : Mgmt).mtvec ≠ 0
    ∧ (f 0x00010067 % 128 = 0x67 ∧ f 0x00010067 / 2 ^ 12 % 8 = 0
      ∧ ((mgmtCore 0).x 2 + (BitVec.ofNat 12 0).signExtend 64 &&& ~~~(1 : DWord)).getLsbD 1 = true)
    ∧ (f ld % 128 = 3 ∧ f ld / 2 ^ 12 % 8 = 3 ∧ f ld / 2 ^ 15 % 32 = 1 ∧ ((mgmtCore ld).x 1).toNat % 8 ≠ 0 ∧ ((mgmtCore ld).x 8).toNat % 8 = 0
      ∧ f 0x00043083 % 128 = 3 ∧ f 0x00043083 / 2 ^ 12 % 8 = 3 ∧ f 0x00043083 / 2 ^ 15 % 32 = 8 ∧ (mgmtCore ld).xregs.length = 32)
    ∧ (f sd % 128 = 0x23 ∧ f sd / 2 ^ 12 % 8 = 3 ∧ f sd / 2 ^ 15 % 32 = 0 ∧ (8 : Nat) % 8 = 0
      ∧ f 0x0010B023 % 128 = 0x23 ∧ f 0x0010B023 / 2 ^ 12 % 8 = 3 ∧ f 0x0010B023 / 2 ^ 15 % 32 = 1)
    ∧ ((mgmtCore 0).byteAt 0x20003000 = none ∧ inBlocks 0x20003000 = false ∧ 0x20003000 % 1 = 0)
    ∧ (inBlocks 0x20002000 = true ∧ (2 : Nat) ∈ [1, 2, 4, 8] ∧ 0x20002000 % 2 = 0)
    ∧ (0x10000 ≤ 0x10000 ∧ 0x43FFFFF8 + 8 ≤ 0x44000000 ∧ 0x43FFFFF8 % 8 = 0)
    ∧ (0x10000000 ≤ 0x1007FFF8 ∧ 0x1007FFF8 + 8 ≤ 0x10080000 ∧ 0x1007FFF8 % 8 = 0 ∧ (mgmtCore 0x73).sram.wf = true) := by decide +kernel

end Sys2Proof.Tests
end

section
/-!
A trap, taken: the flight that one in lane mode leaves, the owner that one in owner mode leaves, and TRAP (03 R95 to R99, R104).
-/

namespace Sys2Proof.Machine

/-! ### Landing every result of a flight -/

/-- The flight once every fixed-latency result on its way has landed (03 R95). -/
def Flight.landed (f : Flight) : Flight := f.pend.foldl Flight.landOne { f with pend := [] }

@[simp] theorem Flight.landed_key (f : Flight) : f.landed.key = f.key := foldl_keeps Flight.key _ (by simp) _ _
@[simp] theorem Flight.landed_vd (f : Flight) : f.landed.vd = f.vd := foldl_keeps Flight.vd _ (by simp) _ _
@[simp] theorem Flight.landed_pc (f : Flight) : f.landed.pc = f.pc := foldl_keeps Flight.pc _ (by simp) _ _
@[simp] theorem Flight.landed_em (f : Flight) : f.landed.em = f.em := foldl_keeps Flight.em _ (by simp) _ _

theorem State.land_flight_self {s : State} {k : Nat} {f : Flight} (h : s.flight k = some f) :
    (s.land k none).flight k = some f.landed := by
  have hland : s.land k none = (s.putFlight f.landed).putQuad (f.pend.foldl (·.landLatch f.latchTeam) (s.quad f.quad)) := by
    simp [State.land, h, Flight.landed]
  have hput := State.flight_putFlight_self s f.landed
  rw [Flight.landed_key, State.flight_key h] at hput
  rw [hland]
  exact hput

/-! ### A trap in lane mode -/

/-- The flight collapsed onto the reported lane, at its handler, with the trap saved (03 R97, R98). -/
def Flight.collapse (f : Flight) (code lane imm : Nat) (detail resume tvec : DWord) : Flight :=
  { f.rewind with
    role := .collapsed lane
    trap :=
      { cause := BitVec.ofNat 8 code, lane := BitVec.ofNat 5 lane, imm := BitVec.ofNat 8 imm, em := f.em,
        tepc := resume, tdpc := detail, tstep := stepCode f.rewind.macroStep }
    em := laneBit lane
    macroStep := none
    block := .none
    pc := tvec &&& pcMask }

@[simp] theorem Flight.collapse_key (f : Flight) (code lane imm : Nat) (detail resume tvec : DWord) :
    (f.collapse code lane imm detail resume tvec).key = f.key := Flight.rewind_key f

/-- In lane mode every result on its way lands and the flight collapses; a trap that skips its instruction resumes past it. -/
theorem State.takeTrap_flight_of_lane {s : State} {f : Flight} (h : s.flight f.key = some f) (hr : f.role.isOwner = false)
    (code lane imm : Nat) (detail : DWord) (skip : Nat) :
    (s.takeTrap f code lane imm detail skip).flight f.key = some (f.landed.collapse code lane imm detail
      (if skip = 0 then f.landed.rewind.pc else (f.pc + dw skip) &&& pcMask) (s.owner f.vd).tvec) := by
  have howner : (s.land f.key none).owner f.vd = s.owner f.vd := by unfold State.owner; rw [State.land_owners]
  have htrap : s.takeTrap f code lane imm detail skip = (s.land f.key none).putFlight (f.landed.collapse code lane imm detail
      (if skip = 0 then f.landed.rewind.pc else (f.pc + dw skip) &&& pcMask) (s.owner f.vd).tvec) := by
    simp [State.takeTrap, hr, State.land_flight_self h, howner, Flight.collapse]
  rw [htrap]
  simpa using State.flight_putFlight_self (s.land f.key none) (f.landed.collapse _ _ _ _ _ _)

/-! ### A trap in owner mode -/

/-- A signal to a vector changes an owner's pending bits and its count of dropped signals alone. -/
theorem State.signalVector_owner (s : State) (vd v n : Nat) :
    (s.signalVector vd v).owner n = { s.owner n with
      dropInt := ((s.signalVector vd v).owner n).dropInt, pba := ((s.signalVector vd v).owner n).pba } := by
  have hput : ∀ o : Owner, o = { s.owner vd with dropInt := o.dropInt, pba := o.pba } →
      (s.putOwner o).owner n = { s.owner n with
        dropInt := ((s.putOwner o).owner n).dropInt, pba := ((s.putOwner o).owner n).pba } := by
    intro o ho
    have hvd : o.vd = vd := by rw [ho]; exact State.owner_vd s vd
    by_cases hn : vd = n
    · subst hn
      have hself := State.owner_putOwner_self s o
      rw [hvd] at hself
      rw [hself]
      exact ho
    · rw [State.owner_putOwner_ne s (by rw [hvd]; exact hn)]
  unfold State.signalVector
  dsimp only
  split
  · exact hput _ rfl
  · split
    · exact hput _ rfl
    · rfl

/-- An event of a virtual device changes no owner's state and no stall reason. -/
theorem State.raiseEvent_owner (s : State) (vd bit n : Nat) :
    ((s.raiseEvent vd bit).owner n).state = (s.owner n).state ∧ ((s.raiseEvent vd bit).owner n).reason = (s.owner n).reason := by
  unfold State.raiseEvent
  rw [State.signalVector_owner]
  by_cases hn : vd = n
  · subst hn
    rw [State.owner_modOwner_self s (State.owner_vd s vd)]
    exact ⟨rfl, rfl⟩
  · rw [State.owner_modOwner_ne s (State.owner_vd s vd) hn]
    exact ⟨rfl, rfl⟩

/-- A stalled owner holds STATE 2 and the reason it stalled for (15 R351). -/
theorem State.stallOwner_owner (s : State) (vd reason cause role lane : Nat) (pc : DWord) (addr : Nat) :
    ((s.stallOwner vd reason cause role lane pc addr).owner vd).state = 2
      ∧ ((s.stallOwner vd reason cause role lane pc addr).owner vd).reason = reason := by
  have htell : ∀ (t : State) (e : HostEvent), (t.tell e).owner vd = t.owner vd := fun _ _ => rfl
  unfold State.stallOwner
  dsimp only
  rw [htell]
  generalize State.devWrite _ _ = t
  have hset : (t.modOwner vd fun o => { o with state := 2, reason := reason }).owner vd
      = { t.owner vd with state := 2, reason := reason } := State.owner_modOwner_self t (State.owner_vd t vd)
  obtain ⟨hstate, hreason⟩ := State.raiseEvent_owner (t.modOwner vd fun o => { o with state := 2, reason := reason }) vd 0 vd
  rw [hstate, hreason, hset]
  exact ⟨rfl, rfl⟩

theorem State.takeTrap_of_owner {f : Flight} (hr : f.role.isOwner = true) (s : State) (code lane imm : Nat) (detail : DWord)
    (skip : Nat) : s.takeTrap f code lane imm detail skip = s.stallOwner f.vd 1 code f.role.code f.role.ownerLane detail 0 := by
  simp [State.takeTrap, hr]

/-! ### TRAP -/

/-- TRAP that passes its checks takes SOFTWARE at the lowest active lane and skips its own 8 bytes (03 R104). -/
theorem exec_trap {x y : XF} {s : State} {f : Flight} (h : AtIssue (viewX 0x011 x) s f y) :
    exec (.trap x) s = .next (s.takeTrap f Trap.software (lowestLane f.em) y.c.toNat f.pc 8) :=
  calc exec (.trap x) s = opTrap (viewX 0x011 x) s := rfl
    _ = .next (s.stopped f 8 (.software y.c.toNat)) := ctlOp_stop h rfl
    _ = .next (s.takeTrap f Trap.software (lowestLane f.em) y.c.toNat f.pc 8) := rfl

/-- Settles O10: TRAP stops with SOFTWARE, which collapses a flight in lane mode and stalls the owner in owner mode. -/
theorem trapInstruction : Obligations.TrapInstruction := by
  unfold Obligations.TrapInstruction
  intro x y s f h
  refine ⟨exec_trap h, fun hlane => ?_, fun howner => ?_⟩
  · refine ⟨_, _, exec_trap h, State.takeTrap_flight_of_lane h.flight hlane .., rfl, rfl, ?_, ?_, rfl, rfl⟩
    · exact (BitVec.ofNat_toNat 8 y.c).trans (BitVec.setWidth_eq y.c)
    · exact Flight.landed_em f
  · refine ⟨_, exec_trap h, ?_⟩
    rw [State.takeTrap_of_owner howner]
    exact State.stallOwner_owner ..

end Sys2Proof.Machine
end

section
/-!
Fixed-latency results at issue: an instruction whose result is formed issues with it on its way (03 R79, R86, R90).
-/

namespace Sys2Proof.Machine

/-- The flight with one more result on its way (03 R79). -/
def Flight.post (f : Flight) (p : Pending) : Flight := { f with pend := f.pend ++ [p] }

/-- An instruction that posts a result and nothing else: its flight has issued, and elsewhere nothing has changed. -/
theorem finish_post {v : View} {s : State} {f : Flight} {x : XF} (hflag : (Ctx.atIssue v s f x).flag = none) (p : Pending)
    (latched : Option Writer) :
    let c := Ctx.atIssue v s f x
    ∃ g, (c.finish (c.s.putFlight (f.post p)) .seq latched).flight f.key = some g ∧ c.SeqIssued [p] f.flags g
      ∧ c.Elsewhere s (c.finish (c.s.putFlight (f.post p)) .seq latched) :=
  ⟨_, Ctx.finish_flight (f := f.post p) (State.flight_putFlight_self _ _) rfl .seq latched, issued_seq _ _ _ [p] hflag,
    Ctx.finish_elsewhere v s f x (g := f.post p) rfl .seq latched⟩

/-- An instruction with a register result issues in every state in which it passes its checks and its destination takes any
lanes. -/
theorem fixedResult_lands {c : Ctx} {i : Instr} {lat : Nat} {out : Ctx → Chk FixedOut} {o : FixedOut}
    (hf : fixedResult i = some (lat, out)) (ho : out c = .ok o) : c.Lands i lat o := by
  intro v s f x hv hat hc hfits
  subst hc
  obtain ⟨puts, hput, hwrites⟩ := putDst_anyFits (t := (Ctx.atIssue v s f x).now + lat) hfits
  have hexec := (fixed_exec i v lat out hv hf s).trans (fixedOp_ok hat ho hput)
  obtain ⟨g, hg, hseq, helse⟩ := finish_post (hat.noFlag hv (fixed_kind i v lat out hv hf))
    ⟨s.now f.vd + lat, puts, [], (Ctx.atIssue v s f x).latchPut o.mask o.lo, if o.mask = 0 then 0 else o.flags⟩
    ((Ctx.atIssue v s f x).writer lat o)
  exact ⟨_, g, _, hexec, hg, hseq, helse, rfl, hwrites, rfl, rfl, rfl⟩

/-- The same for a predicate result. -/
theorem predResult_lands {c : Ctx} {i : Instr} {lat : Nat} {out : Ctx → Chk (Word × Flags)} {o : Word × Flags}
    (hf : predResult i = some (lat, out)) (ho : out c = .ok o) : c.LandsP i lat o.1 o.2 := by
  intro v s f x hv hat hc
  subst hc
  have hexec := (pred_exec i v lat out hv hf s).trans (predOp_ok hat ho)
  obtain ⟨g, hg, hseq, helse⟩ := finish_post (hat.noFlag hv (pred_kind i v lat out hv hf))
    ⟨s.now f.vd + lat, [], [⟨x.d.toNat, f.em, o.1⟩], none, if f.em = 0 then 0 else o.2⟩ none
  exact ⟨_, g, hexec, hg, helse, hseq⟩

/-- A result of one word in each active lane. -/
theorem result32_of_out32 {i : Instr} {c : Ctx} {lat : Nat} {out : Ctx → Chk FixedOut} {f g : Nat → Word}
    (hf : fixedResult i = some (lat, out)) (ho : out c = .ok (c.out32 f)) (hg : ∀ l, l < 32 → f l = g l) :
    Result32 i c lat g := result32_out hf ho (fixedResult_lands hf ho) hg

/-- A result of a pair in each active lane. -/
theorem result64_of_out64 {i : Instr} {c : Ctx} {lat : Nat} {out : Ctx → Chk FixedOut} {f g : Nat → DWord}
    (hf : fixedResult i = some (lat, out)) (ho : out c = .ok (c.out64 f)) (hg : ∀ l, l < 32 → f l = g l) :
    Result64 i c lat g := result64_out hf ho (fixedResult_lands hf ho) hg

/-- A result of one bit in each active lane. -/
theorem resultP_of_maskOf {i : Instr} {c : Ctx} {lat : Nat} {out : Ctx → Chk (Word × Flags)} {p : Nat → Bool} {fl : Flags}
    (hf : predResult i = some (lat, out)) (ho : out c = .ok (maskOf p, fl)) : ResultP i c lat p fl :=
  resultP_out hf ho (predResult_lands hf ho) fun _ _ => rfl

/-- What is the same for every form of an instruction, for the form at hand. -/
theorem eq_of_mem_forms {α : Type} {r : Instr → α} {a : α} {forms : List Instr} {i : Instr}
    (hi : i ∈ forms) (h : forms.Forall fun j => r j = a) : r i = a := List.forall_iff_forall_mem.1 h i hi

end Sys2Proof.Machine
end

section
/-!
Integer types: what a source stands for, and what is stored for an exact result (04 R115).
-/

namespace Sys2Proof.Machine

/-- The exact integer that the bits `r` of a source or of a result hold. -/
def storedInt {n : Nat} (t : Nat) (r : BitVec n) : Int := if typeSigned t then r.toInt else r.toNat

/-! ### Sources -/

/-- A source is read from its low bits, with the sign of its type. -/
theorem asInt_eq_storedInt_setWidth {n k : Nat} (t : Nat) (w : BitVec n) (h : typeBits t = k) :
    asInt t w = storedInt t (w.setWidth k) := by
  subst h
  unfold asInt storedInt
  split
  · exact (BitVec.toInt_setWidth w).symm
  · simp [BitVec.toNat_setWidth]

theorem asInt_eq_storedInt {n : Nat} (t : Nat) (w : BitVec n) (h : typeBits t = n) : asInt t w = storedInt t w := by
  rw [asInt_eq_storedInt_setWidth t w h, BitVec.setWidth_eq]

theorem readT_eq_asInt {t : Nat} (ht : t < 6) (w : Word) : readT t w = asInt t w := by
  interval_cases t
  · exact (asInt_eq_storedInt 0 w rfl).symm
  · exact (asInt_eq_storedInt 1 w rfl).symm
  · exact (asInt_eq_storedInt_setWidth 2 w rfl).symm
  · exact (asInt_eq_storedInt_setWidth 3 w rfl).symm
  · exact (asInt_eq_storedInt_setWidth 4 w rfl).symm
  · exact (asInt_eq_storedInt_setWidth 5 w rfl).symm

theorem read64_eq_asInt {t : Nat} (ht : t = 6 ∨ t = 7) (d : DWord) : read64 t d = asInt t d := by
  rcases ht with rfl | rfl
  · exact (asInt_eq_storedInt 6 d rfl).symm
  · exact (asInt_eq_storedInt 7 d rfl).symm

theorem halfI_eq_toInt (w : Word) (h : Nat) : halfI w h = (half w h).toInt := by
  unfold halfI half
  congr 1

theorem halfI_eq_asInt (w : Word) (h : Nat) : halfI w h = asInt 8 (half w h) :=
  (halfI_eq_toInt w h).trans (asInt_eq_storedInt 8 (half w h) rfl).symm

/-! ### Stored results -/

/-- An exact result wrapped to the type. -/
def wrapInt (t : Nat) (x : Int) : Int := if typeSigned t then x.bmod (2 ^ typeBits t) else x % 2 ^ typeBits t

theorem stores_iff {n : Nat} {t : Nat} {sat : Bool} {x : Int} {r : BitVec n} :
    Stores t sat x r ↔ storedInt t r = if sat then satT t x else wrapInt t x := Iff.rfl

/-- The range of a type is what its bits hold. -/
theorem rangeT_eq {t : Nat} (ht : t ≤ 8) :
    rangeT t = if typeSigned t then (-2 ^ (typeBits t - 1), 2 ^ (typeBits t - 1) - 1) else (0, 2 ^ typeBits t - 1) := by
  interval_cases t <;> rfl

theorem satT_mem_rangeT {t : Nat} (ht : t ≤ 8) (x : Int) : (rangeT t).1 ≤ satT t x ∧ satT t x ≤ (rangeT t).2 := by
  have hle : (rangeT t).1 ≤ (rangeT t).2 := by interval_cases t <;> decide
  unfold satT
  omega

/-- A saturated result is in the range of its type, which wrapping leaves alone. -/
theorem wrapInt_satT {t : Nat} (ht : t ≤ 8) (x : Int) : wrapInt t (satT t x) = satT t x := by
  have hmem := satT_mem_rangeT ht x
  have hbits : 0 < typeBits t := by interval_cases t <;> decide
  rw [rangeT_eq ht] at hmem
  generalize satT t x = y at hmem
  unfold wrapInt
  by_cases hs : typeSigned t = true
  · obtain ⟨k, hk⟩ : ∃ k, typeBits t = k + 1 := ⟨typeBits t - 1, by omega⟩
    simp only [hs, ↓reduceIte, hk, Nat.add_sub_cancel] at hmem ⊢
    exact Int.bmod_eq_of_le (by push_cast; omega) (by push_cast; omega)
  · simp only [hs, Bool.false_eq_true, ↓reduceIte] at hmem ⊢
    exact Int.emod_eq_of_lt (by omega) (by omega)

/-- A writer that wraps to the type stores every exact result: clamped before it under .SAT, as it stands without. -/
theorem stores_of_wraps {n t : Nat} (ht : t ≤ 8) {write : Int → BitVec n} (hw : ∀ y, storedInt t (write y) = wrapInt t y)
    (sat : Bool) (x : Int) : Stores t sat x (write (if sat then satT t x else x)) := by
  rw [stores_iff, hw]
  cases sat with
  | false => rfl
  | true => exact wrapInt_satT ht x

/-- The bits of an exact result that fill their register. -/
theorem storedInt_ofInt {n t : Nat} (h : typeBits t = n) (y : Int) : storedInt t (BitVec.ofInt n y) = wrapInt t y := by
  subst h
  have hpos : (0 : Int) < 2 ^ typeBits t := by positivity
  have hmod := Int.emod_nonneg y hpos.ne'
  unfold storedInt wrapInt
  split
  · exact BitVec.toInt_ofInt y
  · rw [BitVec.toNat_ofInt]
    push_cast
    omega

theorem storedInt_signExtend {k n t : Nat} (hs : typeSigned t = true) (hk : k ≤ n) (r : BitVec k) :
    storedInt t (r.signExtend n) = storedInt t r := by
  simp only [storedInt, hs, ↓reduceIte]
  exact BitVec.toInt_signExtend_of_le hk

theorem storedInt_setWidth {k n t : Nat} (hs : typeSigned t = false) (hk : k ≤ n) (r : BitVec k) :
    storedInt t (r.setWidth n) = storedInt t r := by
  simp only [storedInt, hs, Bool.false_eq_true, ↓reduceIte]
  exact congrArg Int.ofNat (BitVec.toNat_setWidth_of_le hk)

/-- A narrower result is extended by its sign or by zeros, which hold the same integer. -/
theorem storedInt_wrapT {t : Nat} (ht : t < 6) (y : Int) : storedInt t (wrapT t y) = wrapInt t y := by
  interval_cases t
  · exact storedInt_ofInt rfl y
  · exact storedInt_ofInt rfl y
  · exact (storedInt_signExtend rfl (by decide) _).trans (storedInt_ofInt rfl y)
  · exact (storedInt_setWidth rfl (by decide) _).trans (storedInt_ofInt rfl y)
  · exact (storedInt_signExtend rfl (by decide) _).trans (storedInt_ofInt rfl y)
  · exact (storedInt_setWidth rfl (by decide) _).trans (storedInt_ofInt rfl y)

/-- The halves of a packed word. -/
theorem half_packHalves (f : Nat → BitVec 16) {h : Nat} (hh : h < 2) : half (packHalves (f 0) (f 1)) h = f h := by
  apply BitVec.eq_of_getLsbD_eq
  intro i hi
  unfold half packHalves
  rw [BitVec.getLsbD_extractLsb', BitVec.getLsbD_append]
  interval_cases h
  · simp [hi]
  · simp [hi]

end Sys2Proof.Machine
end

section
/-!
Integer arithmetic: sums, products, order and sign of the exact sources (04 R118 to R121).
-/

namespace Sys2Proof.Machine

/-! ### An operation by the type of its modifier byte -/

theorem is64_of_narrow {t : Nat} (ht : t < 6 ∨ t = 8) : is64 t = false := by
  simp only [is64, Bool.or_eq_false_iff, decide_eq_false_iff_not]
  omega

theorem is64_of_wide {t : Nat} (ht : t = 6 ∨ t = 7) : is64 t = true := by
  simp only [is64, Bool.or_eq_true, decide_eq_true_eq]
  omega

theorem intOp_narrow {c : Ctx} (ht : c.itype < 6) (op : Int → Int → Int) :
    c.intOp op = c.out32 fun l =>
      writeT c.itype c.isat (op (readT c.itype (c.srcA.at l)) (readT c.itype (c.srcB.at l))) := by
  simp [Ctx.intOp, is64_of_narrow (.inl ht), show c.itype ≠ 8 by omega]

theorem intOp_wide {c : Ctx} (ht : c.itype = 6 ∨ c.itype = 7) (op : Int → Int → Int) :
    c.intOp op = c.out64 fun l =>
      let x := op (read64 c.itype ((c.pairs 1 c.x.a).getD l 0)) (read64 c.itype ((c.pairs 2 c.x.b).getD l 0))
      BitVec.ofInt 64 (if c.isat then satT c.itype x else x) := by
  simp [Ctx.intOp, is64_of_wide ht]

/-- One half of a result under .I16X2. -/
def Ctx.halfOp (c : Ctx) (op : Int → Int → Int) (l h : Nat) : BitVec 16 :=
  let x := op (halfI (c.srcA.at l) h) (halfI (c.srcB.at l) h)
  BitVec.ofInt 16 (if c.isat then satT 8 x else x)

theorem intOp_halves {c : Ctx} (ht : c.itype = 8) (op : Int → Int → Int) :
    c.intOp op = c.out32 fun l => packHalves (c.halfOp op l 0) (c.halfOp op l 1) := by
  simp [Ctx.intOp, ht, is64_of_narrow, Ctx.halfOp]

/-- An instruction whose result is an operation of the exact sources stores it under its type (04 R115). -/
theorem intResult_of_intOp {i : Instr} {c : Ctx} {lat : Nat} {out : Ctx → Chk FixedOut} {op : Int → Int → Int}
    (hf : fixedResult i = some (lat, out)) (ho : ∀ c : Ctx, out c = .ok (c.intOp op)) : IntResult i c lat op := by
  refine ⟨fun ht => ⟨_, result32_of_out32 hf ((ho c).trans (by rw [intOp_narrow ht])) fun _ _ => rfl, fun l _ => ?_⟩,
    fun ht => ⟨_, result64_of_out64 hf ((ho c).trans (by rw [intOp_wide ht])) fun _ _ => rfl, fun l hl => ?_⟩,
    fun ht => ⟨_, result32_of_out32 hf ((ho c).trans (by rw [intOp_halves ht])) fun _ _ => rfl, fun l h _ hh => ?_⟩⟩
  · rw [← readT_eq_asInt ht, ← readT_eq_asInt ht]
    exact stores_of_wraps (by omega) (storedInt_wrapT ht) _ _
  · dsimp only
    rw [pairs_getD _ _ _ hl, pairs_getD _ _ _ hl, ← read64_eq_asInt ht, ← read64_eq_asInt ht]
    exact stores_of_wraps (by omega) (storedInt_ofInt (by rcases ht with ht | ht <;> rw [ht] <;> rfl)) _ _
  · rw [half_packHalves _ hh, ← halfI_eq_asInt, ← halfI_eq_asInt]
    exact stores_of_wraps (le_refl 8) (storedInt_ofInt rfl) _ _

/-! ### IADDMIN (04 R121) -/

/-- The minimum of a sum clamped to the range of `n` bits and a value of that range is in it too. -/
theorem toInt_ofInt_min_sat {n : Nat} {t : Nat} (hn : 0 < n) (hrange : rangeT t = (-2 ^ (n - 1), 2 ^ (n - 1) - 1)) (x : Int)
    (d : BitVec n) : (BitVec.ofInt n (min (satT t x) d.toInt)).toInt = min (satT t x) d.toInt := by
  have hlo := d.le_toInt
  have hhi := d.toInt_lt
  have hpos : (0 : Int) < 2 ^ (n - 1) := by positivity
  have hsat : -2 ^ (n - 1) ≤ satT t x ∧ satT t x ≤ 2 ^ (n - 1) - 1 := by
    simp only [satT, hrange]
    omega
  apply BitVec.toInt_ofInt_eq_self hn
  · omega
  · omega

/-- IADDMIN of the halves `h` of three words. -/
def iaddminHalf (a b d : Word) (h : Nat) : BitVec 16 := BitVec.ofInt 16 (min (satT 2 (halfI a h + halfI b h)) (halfI d h))

theorem iaddminI32_result (x : XF) (c : Ctx) :
    ∃ g, Result32 (.iaddminI32 x) c 4 g ∧ ∀ l, l < 32 → (g l).toInt =
      min (max (-2147483648) (min 2147483647 ((c.srcA.at l).toInt + (c.srcB.at l).toInt))) (c.srcC.at l).toInt :=
  ⟨_, result32_of_out32 (out := outIaddminI32) rfl rfl fun _ _ => rfl,
    fun l _ => toInt_ofInt_min_sat (t := 0) (by decide) rfl _ (c.srcC.at l)⟩

theorem iaddminI16x2_result (x : XF) (c : Ctx) :
    ∃ g, Result32 (.iaddminI16x2 x) c 4 g ∧ ∀ l h, l < 32 → h < 2 → (half (g l) h).toInt =
      min (max (-32768) (min 32767 ((half (c.srcA.at l) h).toInt + (half (c.srcB.at l) h).toInt)))
        (half (c.srcC.at l) h).toInt := by
  refine ⟨fun l => packHalves (iaddminHalf (c.srcA.at l) (c.srcB.at l) (c.srcC.at l) 0)
      (iaddminHalf (c.srcA.at l) (c.srcB.at l) (c.srcC.at l) 1),
    result32_of_out32 (out := outIaddminI16x2) rfl rfl fun _ _ => rfl, fun l h _ hh => ?_⟩
  rw [half_packHalves _ hh, iaddminHalf, halfI_eq_toInt, halfI_eq_toInt, halfI_eq_toInt]
  exact toInt_ofInt_min_sat (t := 2) (by decide) rfl _ _

/-! ### Products (04 R119) -/

theorem ofInt_toInt_mul {n : Nat} (m : Nat) (a b : BitVec n) :
    BitVec.ofInt m (a.toInt * b.toInt) = a.signExtend m * b.signExtend m := BitVec.ofInt_mul _ _

theorem ofInt_toNat_mul {n : Nat} (m : Nat) (a b : BitVec n) :
    BitVec.ofInt m (a.toNat * b.toNat) = a.setWidth m * b.setWidth m := by
  rw [BitVec.ofInt_mul, BitVec.ofInt_natCast, BitVec.ofInt_natCast, BitVec.ofNat_toNat, BitVec.ofNat_toNat]

/-- IMULH takes the high word of the product, signed under .I32. -/
theorem imulh_result_signed {i : Instr} {c : Ctx} (hf : fixedResult i = some (6, outImulh)) (ht : c.itype = 0) :
    Result32 i c 6 fun l => (((c.srcA.at l).signExtend 64 * (c.srcB.at l).signExtend 64) >>> 32).setWidth 32 :=
  result32_of_out32 hf rfl fun l _ => by
    rw [ht, ← ofInt_toInt_mul]
    rfl

/-- The same, unsigned under .N32. -/
theorem imulh_result_unsigned {i : Instr} {c : Ctx} (hf : fixedResult i = some (6, outImulh)) (ht : c.itype = 1) :
    Result32 i c 6 fun l => (((c.srcA.at l).setWidth 64 * (c.srcB.at l).setWidth 64) >>> 32).setWidth 32 :=
  result32_of_out32 hf rfl fun l _ => by
    rw [ht, ← ofInt_toNat_mul]
    rfl

/-- IMLAL adds the pair of c to the 64-bit product. -/
theorem imlal_result {i : Instr} {c : Ctx} {out : Ctx → Chk FixedOut} {signed : Bool}
    (hf : fixedResult i = some (6, out)) (ho : out c = .ok (imlal signed c)) :
    Result64 i c 6 fun l =>
      (if signed then (c.srcA.at l).signExtend 64 else (c.srcA.at l).setWidth 64)
        * (if signed then (c.srcB.at l).signExtend 64 else (c.srcB.at l).setWidth 64) + c.pairAt 3 c.x.c l :=
  result64_of_out64 hf ho fun l hl => by rw [pairs_getD _ _ _ hl]

/-! ### The obligations -/

/-- Settles O13: sums and products store their exact results, and IADDMIN clamps its sum before the minimum. -/
theorem sumsAndProducts : Obligations.SumsAndProducts := by
  unfold Obligations.SumsAndProducts
  refine ⟨fun x w h c i => ⟨fun hi => ?iadd, fun hi => ?isub⟩,
    fun x c => ⟨iaddminI32_result x c, iaddminI16x2_result x c⟩,
    fun x w c i => ⟨fun hi => ?imul, fun hi => ?imulh, ?imla, ?imlalI32, ?imlalN32⟩⟩
  case iadd => exact intResult_of_intOp (eq_of_mem_forms (a := some (4, outIadd)) hi ⟨rfl, rfl, rfl, rfl⟩) fun _ => rfl
  case isub => exact intResult_of_intOp (eq_of_mem_forms (a := some (4, outIsub)) hi ⟨rfl, rfl, rfl, rfl⟩) fun _ => rfl
  case imul => exact intResult_of_intOp (eq_of_mem_forms (a := some (6, outImul)) hi ⟨rfl, rfl⟩) fun _ => rfl
  case imulh =>
    have hf : fixedResult i = some (6, outImulh) := eq_of_mem_forms hi ⟨rfl, rfl, rfl⟩
    exact ⟨imulh_result_signed hf, imulh_result_unsigned hf⟩
  case imla =>
    rintro rfl
    exact result32_of_out32 (out := outImla) rfl rfl fun _ _ => rfl
  case imlalI32 =>
    rintro rfl
    exact imlal_result (out := outImlalI32) (signed := true) rfl rfl
  case imlalN32 =>
    rintro rfl
    exact imlal_result (out := outImlalN32) (signed := false) rfl rfl

/-- The absolute value as the model computes it. -/
theorem outIabs_eq (c : Ctx) : outIabs c = .ok (c.intOp fun a _ => |a|) := by
  have habs : (fun a _ : Int => if a < 0 then -a else a) = fun a _ => |a| := by
    funext a _
    split
    · exact (abs_of_neg ‹_›).symm
    · exact (abs_of_nonneg (not_lt.1 ‹_›)).symm
  rw [outIabs, habs]

/-- Settles O14: minimum, maximum, absolute value and negation are operations of the exact sources. -/
theorem orderAndSign : Obligations.OrderAndSign := by
  unfold Obligations.OrderAndSign
  refine fun x w h c i => ⟨fun hi => ?imin, fun hi => ?imax, fun hi => ?iabs, fun hi => ?ineg⟩
  case imin => exact intResult_of_intOp (eq_of_mem_forms (a := some (4, outImin)) hi ⟨rfl, rfl, rfl, rfl⟩) fun _ => rfl
  case imax => exact intResult_of_intOp (eq_of_mem_forms (a := some (4, outImax)) hi ⟨rfl, rfl, rfl, rfl⟩) fun _ => rfl
  case iabs => exact intResult_of_intOp (eq_of_mem_forms (a := some (4, outIabs)) hi ⟨rfl, rfl⟩) outIabs_eq
  case ineg => exact intResult_of_intOp (eq_of_mem_forms (a := some (4, outIneg)) hi ⟨rfl, rfl⟩) fun _ => rfl

end Sys2Proof.Machine
end

section
/-!
Bitwise operations, shifts, counts and bit fields: the model's numbers against words of any width (04 R122 to R125).
-/

namespace Sys2Proof.Machine

theorem ofNat_eq_of_toNat {w n : Nat} {x : BitVec w} (h : x.toNat = n) : BitVec.ofNat w n = x := by
  rw [← h, BitVec.ofNat_toNat, BitVec.setWidth_eq]

/-! ### Bitwise -/

theorem ofNat_and {w : Nat} (a b : BitVec w) : BitVec.ofNat w (a.toNat &&& b.toNat) = a &&& b :=
  ofNat_eq_of_toNat (BitVec.toNat_and a b)

theorem ofNat_or {w : Nat} (a b : BitVec w) : BitVec.ofNat w (a.toNat ||| b.toNat) = a ||| b :=
  ofNat_eq_of_toNat (BitVec.toNat_or a b)

theorem ofNat_xor {w : Nat} (a b : BitVec w) : BitVec.ofNat w (a.toNat ^^^ b.toNat) = a ^^^ b :=
  ofNat_eq_of_toNat (BitVec.toNat_xor a b)

theorem ofNat_not {w : Nat} (a : BitVec w) : BitVec.ofNat w (2 ^ w - 1 - a.toNat) = ~~~a :=
  ofNat_eq_of_toNat BitVec.toNat_not

theorem ofNat_andn {w : Nat} (a b : BitVec w) : BitVec.ofNat w (a.toNat &&& (2 ^ w - 1 - b.toNat)) = a &&& ~~~b := by
  rw [← BitVec.toNat_not, ofNat_and]

/-! ### Shifts -/

theorem ofNat_shlN {w : Nat} (a : BitVec w) (n : Nat) : BitVec.ofNat w (shlN w a.toNat n) = if n ≥ w then 0 else a <<< n := by
  apply ofNat_eq_of_toNat
  unfold shlN
  split
  · simp
  · rw [BitVec.toNat_shiftLeft, Nat.shiftLeft_eq]

theorem ofNat_shrN {w : Nat} (a : BitVec w) (n : Nat) : BitVec.ofNat w (shrN w a.toNat n) = if n ≥ w then 0 else a >>> n := by
  apply ofNat_eq_of_toNat
  unfold shrN
  split
  · simp
  · rw [BitVec.toNat_ushiftRight, Nat.shiftRight_eq_div_pow]

/-- A negative word shifted right fills with ones: its complement is shifted. -/
theorem complement_div_complement {w a n : Nat} (hn : n ≤ w) (ha : a < 2 ^ w) :
    2 ^ w - 1 - (2 ^ w - 1 - a) / 2 ^ n = a / 2 ^ n + (2 ^ w - 2 ^ (w - n)) := by
  have hw : 2 ^ w = 2 ^ n * 2 ^ (w - n) := by rw [← Nat.pow_add]; congr 1; omega
  have hdiv : (2 ^ w - 1 - a) / 2 ^ n = 2 ^ (w - n) - (a / 2 ^ n + 1) := by
    rw [show 2 ^ w - 1 - a = 2 ^ w - (a + 1) by omega, hw]
    exact Nat.mul_sub_div a _ _ (hw ▸ ha)
  have hlt : a / 2 ^ n < 2 ^ (w - n) := Nat.div_lt_of_lt_mul (hw ▸ ha)
  have hle : 2 ^ (w - n) ≤ 2 ^ w := Nat.pow_le_pow_right (by decide) (Nat.sub_le w n)
  have harith : ∀ q r t : Nat, q < r → r ≤ t → t - 1 - (r - (q + 1)) = q + (t - r) := by omega
  rw [hdiv]
  exact harith _ _ _ hlt hle

theorem ofNat_sarN {w : Nat} (a : BitVec w) (n : Nat) :
    BitVec.ofNat w (sarN w a.toNat n) = if n ≥ w then (if a.msb then BitVec.allOnes w else 0) else a.sshiftRight n := by
  apply ofNat_eq_of_toNat
  have hmsb : (a.toNat ≥ 2 ^ (w - 1)) = (a.msb = true) := by rw [BitVec.msb_eq_decide, decide_eq_true_eq]
  simp only [sarN, hmsb]
  by_cases hn : n ≥ w
  · cases a.msb <;> simp [hn]
  · cases hm : a.msb with
    | false => simp [hn, BitVec.toNat_sshiftRight_of_msb_false hm, Nat.shiftRight_eq_div_pow]
    | true =>
      simp only [hn, ↓reduceIte]
      rw [BitVec.toNat_sshiftRight_of_msb_true hm, Nat.shiftRight_eq_div_pow]
      exact complement_div_complement (by omega) a.isLt

/-- A turn reduces its count by the width itself. -/
theorem ofNat_rotlN {w : Nat} (a : BitVec w) (n : Nat) : BitVec.ofNat w (rotlN w a.toNat n) = a.rotateLeft (n % w) := by
  apply ofNat_eq_of_toNat
  rw [BitVec.toNat_rotateLeft, Nat.mod_mod, Nat.shiftLeft_eq, Nat.shiftRight_eq_div_pow]
  rfl

/-! ### Counts -/

theorem toNat_ofNat_clzN {w : Nat} (a : Nat) : (BitVec.ofNat w (clzN w a)).toNat = clzN w a := by
  have hle : clzN w a ≤ w := by
    unfold clzN
    split <;> omega
  exact Nat.mod_eq_of_lt (hle.trans_lt Nat.lt_two_pow_self)

/-- CLZ counts the leading zero bits: those it counts are 0, and the bit below them is 1 (04 R124). -/
theorem clz_spec {w : Nat} (a : BitVec w) :
    let n := (BitVec.ofNat w (clzN w a.toNat)).toNat
    n ≤ w ∧ (∀ b, w - n ≤ b → a.getLsbD b = false) ∧ (a ≠ 0 → a.getLsbD (w - 1 - n) = true) := by
  dsimp only
  rw [toNat_ofNat_clzN]
  unfold clzN
  by_cases h0 : a.toNat = 0
  · have ha : a = 0 := BitVec.eq_of_toNat_eq h0
    simp [ha]
  · have hlog := (Nat.log2_lt h0).2 a.isLt
    rw [if_neg h0]
    refine ⟨by omega, fun b hb => Nat.testBit_lt_two_pow ((Nat.log2_lt h0).1 (by omega)), fun _ => ?_⟩
    rw [show w - 1 - (w - 1 - a.toNat.log2) = a.toNat.log2 by omega]
    exact Nat.testBit_log2 h0

theorem div_pow_mod_two (a i : Nat) : a / 2 ^ i % 2 = (a.testBit i).toNat := by
  rw [Nat.testBit_eq_decide_div_mod_eq]
  rcases Nat.mod_two_eq_zero_or_one (a / 2 ^ i) with h | h <;> simp [h]

theorem popcN_eq_countP (w a : Nat) : popcN w a = (List.range w).countP fun b => a.testBit b := by
  unfold popcN
  induction w with
  | zero => rfl
  | succ w ih =>
    rw [List.range_succ, List.foldl_append, List.countP_append, ih]
    simp only [List.foldl_cons, List.foldl_nil, div_pow_mod_two]
    cases ht : a.testBit w <;> simp [ht]

/-- The low `k` bits of `a` in reverse order. -/
def revBits (a : Nat) : Nat → Nat
  | 0 => 0
  | k + 1 => 2 * revBits a k + (a.testBit k).toNat

theorem testBit_revBits (a k j : Nat) : (revBits a k).testBit j = (decide (j < k) && a.testBit (k - 1 - j)) := by
  induction k generalizing j with
  | zero => simp [revBits]
  | succ k ih =>
    cases j with
    | zero => cases h : a.testBit k <;> simp [revBits, h, Nat.testBit_zero]
    | succ j =>
      have hdiv : (2 * revBits a k + (a.testBit k).toNat) / 2 = revBits a k := by
        have := Bool.toNat_lt (a.testBit k)
        omega
      rw [revBits, Nat.testBit_succ, hdiv, ih]
      simp [Nat.sub_sub, Nat.add_comm]

/-- After `k` bits BREV's sum holds them reversed at the top of the word. -/
theorem foldl_brev {w k : Nat} (hk : k ≤ w) (a : Nat) :
    (List.range k).foldl (fun n i => n + a / 2 ^ i % 2 * 2 ^ (w - 1 - i)) 0 = revBits a k * 2 ^ (w - k) := by
  induction k with
  | zero => simp [revBits]
  | succ k ih =>
    have hpow : 2 ^ (w - k) = 2 * 2 ^ (w - (k + 1)) := by rw [← Nat.pow_succ']; congr 1; omega
    rw [List.range_succ, List.foldl_append, ih (by omega)]
    simp only [List.foldl_cons, List.foldl_nil, div_pow_mod_two, revBits, hpow, show w - 1 - k = w - (k + 1) by omega]
    ring

theorem brevN_eq_revBits (w a : Nat) : brevN w a = revBits a w := by
  unfold brevN
  rw [foldl_brev (le_refl w)]
  simp

theorem ofNat_brevN {w : Nat} (a : BitVec w) : BitVec.ofNat w (brevN w a.toNat) = a.reverse := by
  apply BitVec.eq_of_getLsbD_eq
  intro j hj
  rw [BitVec.getLsbD_ofNat, brevN_eq_revBits, testBit_revBits, BitVec.getLsbD_reverse, BitVec.getMsbD]
  simp [hj, BitVec.getLsbD]

/-! ### Bit fields -/

theorem getLsbD_bfx {signed : Bool} {a : Word} {p n b : Nat} (hn : 0 < min n 32) (hb : b < 32) :
    let field (i : Nat) : Bool := if p + i < 32 then a.getLsbD (p + i) else signed && a.msb
    (bfx signed a p n).getLsbD b = if b < min n 32 then field b else signed && field (min n 32 - 1) := by
  have hmsb : a.msb = a.getLsbD 31 := BitVec.msb_eq_getLsbD_last a
  simp only [bfx, if_neg hn.ne', maskOf_getLsbD, hb, decide_true, Bool.true_and, hmsb]

theorem bfx_zero (signed : Bool) (a : Word) {p n : Nat} (hn : min n 32 = 0) : bfx signed a p n = 0 := by
  rw [bfx]
  exact if_pos hn

theorem bits_low (n : Nat) : bits n 7 0 = n % 256 := by simp [bits]

theorem bits_second (n : Nat) : bits n 15 8 = n / 256 % 256 := by simp [bits]

theorem bfi_base {a b c : Word} (h : c.toNat % 256 ≥ 32 ∨ c.toNat / 256 % 256 = 0) : bfi a b c = a := by
  simp only [bfi, bits_low, bits_second]
  exact if_pos (by simpa using h)

theorem getLsbD_bfi {a b c : Word} {k : Nat} (hp : c.toNat % 256 < 32) (hn : 0 < c.toNat / 256 % 256) (hk : k < 32) :
    (bfi a b c).getLsbD k = if c.toNat % 256 ≤ k ∧ k < c.toNat % 256 + min (c.toNat / 256 % 256) (32 - c.toNat % 256)
      then b.getLsbD (k - c.toNat % 256) else a.getLsbD k := by
  simp only [bfi, bits_low, bits_second]
  rw [if_neg (by simp; omega), maskOf_getLsbD]
  simp [hk]

end Sys2Proof.Machine
end

section
/-!
Bitwise instructions, shifts, counts and bit fields, compare, select and moves: their results (04 R122 to R127).
-/

namespace Sys2Proof.Machine

/-! ### An operation by the width of its type -/

/-- An operation on numbers of 32 or 64 bits is `G` on words and pairs. -/
theorem bitResult_of_natOp {i : Instr} {c : Ctx} {lat : Nat} {out : Ctx → Chk FixedOut} {g : Nat → Nat → Nat → Nat}
    (G : {w : Nat} → BitVec w → BitVec w → BitVec w) (hf : fixedResult i = some (lat, out)) (ho : out c = .ok (c.natOp g))
    (hG : ∀ {w : Nat} (a b : BitVec w), BitVec.ofNat w (g w a.toNat b.toNat) = G a b) : BitResult i c lat G G := by
  refine ⟨fun ht => ?_, fun ht => ?_⟩
  · simp only [Ctx.natOp, is64_of_narrow (.inl ht), Bool.false_eq_true, ↓reduceIte] at ho
    exact result32_of_out32 hf ho fun l _ => hG _ _
  · simp only [Ctx.natOp, is64_of_wide ht, ↓reduceIte] at ho
    exact result64_of_out64 hf ho fun l hl => by
      rw [pairs_getD _ _ _ hl, pairs_getD _ _ _ hl]
      exact hG _ _

/-- The same for a shift by a register: the count is the whole value of the low register of Vb (04 R123). -/
theorem shiftResult_of_shiftOp {i : Instr} {c : Ctx} {out : Ctx → Chk FixedOut} {g : Nat → Nat → Nat → Nat}
    (G : {w : Nat} → BitVec w → Nat → BitVec w) (hf : fixedResult i = some (4, out)) (ho : out c = .ok (c.shiftOp g))
    (hG : ∀ {w : Nat} (a : BitVec w) (n : Nat), BitVec.ofNat w (g w a.toNat n) = G a n) : ShiftResult i c G G := by
  refine ⟨fun ht => ?_, fun ht => ?_⟩
  · simp only [Ctx.shiftOp, is64_of_narrow (.inl ht), Bool.false_eq_true, ↓reduceIte] at ho
    exact result32_of_out32 hf ho fun l _ => hG _ _
  · simp only [Ctx.shiftOp, is64_of_wide ht, ↓reduceIte] at ho
    exact result64_of_out64 hf ho fun l hl => by
      rw [pairs_getD _ _ _ hl]
      exact hG _ _

/-- The same for a shift by the immediate, which is below the width. -/
theorem result32_of_shiftImm {i : Instr} {c : Ctx} {out : Ctx → Chk FixedOut} {g : Nat → Nat → Nat → Nat}
    {G : Word → Nat → Word} (hf : fixedResult i = some (4, out)) (ho : out c = .ok (c.shiftImm g))
    (hG : ∀ a : Word, BitVec.ofNat 32 (g 32 a.toNat c.x.c.toNat) = G a c.x.c.toNat) :
    Result32 i c 4 fun l => G (c.srcA.at l) c.x.c.toNat :=
  result32_of_out32 hf ho fun _ _ => hG _

/-- Settles O15: each bitwise operation and shift on numbers is the one on words of its width. -/
theorem bitwiseAndShifts : Obligations.BitwiseAndShifts := by
  unfold Obligations.BitwiseAndShifts
  refine ⟨fun x w h c i => ⟨fun hi => ?and, fun hi => ?or, fun hi => ?xor, fun hi => ?andn, fun hi => ?not⟩,
    fun x w h c i => ⟨fun hi => ?shl, fun hi => ?shr, fun hi => ?sar, fun hi => ?rotl,
      fun hk => ⟨fun hi => ?shlImm, fun hi => ?shrImm, fun hi => ?sarImm, fun hi => ?rotlImm⟩⟩⟩
  case and => exact bitResult_of_natOp _ (eq_of_mem_forms (a := some (4, outAnd)) hi ⟨rfl, rfl, rfl⟩) rfl ofNat_and
  case or => exact bitResult_of_natOp _ (eq_of_mem_forms (a := some (4, outOr)) hi ⟨rfl, rfl, rfl⟩) rfl ofNat_or
  case xor => exact bitResult_of_natOp _ (eq_of_mem_forms (a := some (4, outXor)) hi ⟨rfl, rfl, rfl⟩) rfl ofNat_xor
  case andn => exact bitResult_of_natOp _ (eq_of_mem_forms (a := some (4, outAndn)) hi ⟨rfl, rfl⟩) rfl ofNat_andn
  case not => exact bitResult_of_natOp _ (eq_of_mem_forms (a := some (4, outNot)) hi ⟨rfl, rfl⟩) rfl fun a _ => ofNat_not a
  case shl => exact shiftResult_of_shiftOp _ (eq_of_mem_forms (a := some (4, outShl)) hi ⟨rfl, rfl, rfl⟩) rfl ofNat_shlN
  case shr => exact shiftResult_of_shiftOp _ (eq_of_mem_forms (a := some (4, outShr)) hi ⟨rfl, rfl, rfl⟩) rfl ofNat_shrN
  case sar => exact shiftResult_of_shiftOp _ (eq_of_mem_forms (a := some (4, outSar)) hi ⟨rfl, rfl, rfl⟩) rfl ofNat_sarN
  case rotl => exact shiftResult_of_shiftOp _ (eq_of_mem_forms (a := some (4, outRotl)) hi ⟨rfl, rfl⟩) rfl ofNat_rotlN
  case shlImm =>
    exact result32_of_shiftImm (eq_of_mem_forms (a := some (4, outShlImm)) hi ⟨rfl, rfl⟩) rfl
      fun a => (ofNat_shlN a _).trans (if_neg hk.not_ge)
  case shrImm =>
    exact result32_of_shiftImm (eq_of_mem_forms (a := some (4, outShrImm)) hi ⟨rfl, rfl⟩) rfl
      fun a => (ofNat_shrN a _).trans (if_neg hk.not_ge)
  case sarImm =>
    exact result32_of_shiftImm (eq_of_mem_forms (a := some (4, outSarImm)) hi ⟨rfl, rfl⟩) rfl
      fun a => (ofNat_sarN a _).trans (if_neg hk.not_ge)
  case rotlImm =>
    exact result32_of_shiftImm (eq_of_mem_forms (a := some (4, outRotlImm)) hi ⟨rfl, rfl⟩) rfl
      fun a => (ofNat_rotlN a _).trans (congrArg a.rotateLeft (Nat.mod_eq_of_lt hk))

/-! ### Counts and bit fields -/

/-- Settles O16: the counts, the reversal and the fields are those of the bits of their sources. -/
theorem countsAndBitFields : Obligations.CountsAndBitFields := by
  unfold Obligations.CountsAndBitFields
  refine ⟨fun x w c i => ⟨fun hi => ?clz, fun hi => ?popc, fun hi => ?brev⟩, fun x c => ⟨fun i isI32 hi => ?bfx, ?bfi⟩⟩
  case clz =>
    exact ⟨_, _, bitResult_of_natOp (fun {w} a _ => BitVec.ofNat w (clzN w a.toNat))
      (eq_of_mem_forms (a := some (4, outClz)) hi ⟨rfl, rfl⟩) rfl fun _ _ => rfl, clz_spec, clz_spec⟩
  case popc =>
    exact bitResult_of_natOp (fun {w} a _ => BitVec.ofNat w ((List.range w).countP fun b => a.getLsbD b))
      (eq_of_mem_forms (a := some (4, outPopc)) hi ⟨rfl, rfl⟩) rfl fun a _ => congrArg _ (popcN_eq_countP _ a.toNat)
  case brev =>
    exact bitResult_of_natOp _ (eq_of_mem_forms (a := some (4, outBrev)) hi ⟨rfl, rfl⟩) rfl fun a _ => ofNat_brevN a
  case bfx =>
    refine ⟨fun l => bfx isI32 (c.srcA.at l) (c.srcB.at l).toNat (c.srcC.at l).toNat, ?_,
      fun l _ => ⟨bfx_zero _ _, fun hn b hb => getLsbD_bfx hn hb⟩⟩
    rcases hi with ⟨rfl, rfl⟩ | ⟨rfl, rfl⟩
    · exact result32_of_out32 (out := outBfxN32) rfl rfl fun _ _ => rfl
    · exact result32_of_out32 (out := outBfxI32) rfl rfl fun _ _ => rfl
  case bfi =>
    exact ⟨_, result32_of_out32 (out := outBfi) rfl rfl fun _ _ => rfl,
      fun l _ => ⟨bfi_base, fun hp hn b hb => getLsbD_bfi hp hn hb⟩⟩

/-! ### Compare -/

/-- The conditions of ICMP by their number (02 R50). -/
def icmpConds : List (Nat × (Int → Int → Prop)) :=
  [(0, (· = ·)), (1, (· ≠ ·)), (2, (· < ·)), (3, (· ≤ ·)), (4, (· > ·)), (5, (· ≥ ·))]

theorem condI_iff {k : Nat} {rel : Int → Int → Prop} (h : icmpConds.lookup k = some rel) (a b : Int) :
    condI k a b = true ↔ rel a b := by
  match k, h with
  | 0, rfl => exact decide_eq_true_iff
  | 1, rfl => exact decide_eq_true_iff
  | 2, rfl => exact decide_eq_true_iff
  | 3, rfl => exact decide_eq_true_iff
  | 4, rfl => exact decide_eq_true_iff
  | 5, rfl => exact decide_eq_true_iff
  | n + 6, h => simp [icmpConds, List.lookup] at h

/-- The bit of ICMP in lane `l`: its condition on the sources as its type reads them. -/
def Ctx.icmpBit (c : Ctx) (l : Nat) : Bool :=
  if is64 c.itype then
    condI (c.x.c.toNat / 32) (read64 c.itype ((c.pairs 1 c.x.a).getD l 0)) (read64 c.itype ((c.pairs 2 c.x.b).getD l 0))
  else condI (c.x.c.toNat / 32) (readT c.itype (c.srcA.at l)) (readT c.itype (c.srcB.at l))

theorem outIcmp_eq (c : Ctx) : outIcmp c = .ok (maskOf c.icmpBit, Fl.none) := by
  unfold outIcmp Ctx.icmpBit
  dsimp only
  cases is64 c.itype with
  | false => rfl
  | true => rfl

theorem icmpBit_narrow {c : Ctx} (ht : c.itype < 6) (l : Nat) :
    c.icmpBit l = condI (c.x.c.toNat / 32) (asInt c.itype (c.srcA.at l)) (asInt c.itype (c.srcB.at l)) := by
  simp [Ctx.icmpBit, is64_of_narrow (.inl ht), readT_eq_asInt ht]

theorem icmpBit_wide {c : Ctx} (ht : c.itype = 6 ∨ c.itype = 7) {l : Nat} (hl : l < 32) :
    c.icmpBit l = condI (c.x.c.toNat / 32) (asInt c.itype (c.pairAt 1 c.x.a l)) (asInt c.itype (c.pairAt 2 c.x.b l)) := by
  rw [Ctx.icmpBit, if_pos (is64_of_wide ht), pairs_getD _ _ _ hl, pairs_getD _ _ _ hl, read64_eq_asInt ht, read64_eq_asInt ht]

/-- Settles O17: ICMP's condition is that of its number over the exact sources; select and moves give their sources. -/
theorem compareSelectAndMoves : Obligations.CompareSelectAndMoves := by
  unfold Obligations.CompareSelectAndMoves
  refine ⟨fun x w c i => ⟨?sel, fun hi rel hrel => ?icmp⟩, fun x w h c i => ⟨fun hi => ?mov, fun hi => ?movi, ?movhi⟩⟩
  case sel =>
    rintro rfl
    exact result32_of_out32 (out := outSel) rfl rfl fun _ _ => rfl
  case icmp =>
    have hf : predResult i = some (4, outIcmp) := eq_of_mem_forms hi ⟨rfl, rfl, rfl, rfl, rfl, rfl, rfl⟩
    refine ⟨c.icmpBit, resultP_of_maskOf hf (outIcmp_eq c), fun ht l _ => ?_, fun ht l hl => ?_⟩
    · rw [icmpBit_narrow ht]
      exact condI_iff hrel _ _
    · rw [icmpBit_wide ht hl]
      exact condI_iff hrel _ _
  case mov =>
    exact bitResult_of_natOp (fun a _ => a) (eq_of_mem_forms (a := some (4, outMov)) hi ⟨rfl, rfl, rfl⟩) rfl
      fun a _ => ofNat_eq_of_toNat rfl
  case movi => exact result32_of_out32 (eq_of_mem_forms (a := some (4, outMovi)) hi ⟨rfl, rfl⟩) rfl fun _ _ => rfl
  case movhi =>
    rintro rfl
    exact result32_of_out32 (out := outMovhi) rfl rfl fun _ _ => rfl

end Sys2Proof.Machine
end

section
/-!
Results with flags (05 R147): the FSTAT bits gathered over the active lanes, and a one-register result that carries them.
-/

namespace Sys2Proof.Machine

theorem getLsbD_foldl_or (g : Nat → Flags) (b : Nat) (ls : List Nat) (a : Flags) :
    (ls.foldl (fun a l => a ||| g l) a).getLsbD b = true ↔ a.getLsbD b = true ∨ ∃ l ∈ ls, (g l).getLsbD b = true := by
  induction ls generalizing a with
  | nil => simp
  | cons l ls ih => simp [ih, or_assoc]

/-- A bit is gathered if an active lane has it. -/
theorem getLsbD_gather (mask : Word) (g : Nat → Flags) (b : Nat) :
    (Flags.gather mask g).getLsbD b = true ↔ ∃ l, l < 32 ∧ mask.getLsbD l = true ∧ (g l).getLsbD b = true := by
  have hnone : Fl.none.getLsbD b = false := BitVec.getLsbD_zero
  unfold Flags.gather
  simp only [getLsbD_foldl_or, hnone, Bool.false_eq_true, false_or, mem_lanesOf, ← and_assoc]
  exact exists_congr fun l => and_congr_left' ⟨fun h => ⟨BitVec.lt_of_getLsbD h, h⟩, And.right⟩

/-- Flags with no bit but NV. -/
def Flags.NvOnly (fl : Flags) : Prop := fl = Fl.none ∨ fl = Fl.nv

theorem Flags.NvOnly.or {a b : Flags} (ha : a.NvOnly) (hb : b.NvOnly) : (a ||| b).NvOnly := by
  rcases ha with rfl | rfl
  · simpa [Fl.none] using hb
  · rcases hb with rfl | rfl
    · exact .inr rfl
    · exact .inr rfl

theorem Flags.NvOnly.eq_nv_iff {fl : Flags} (h : fl.NvOnly) : fl = Fl.nv ↔ fl.getLsbD 0 = true := by
  rcases h with rfl | rfl
  · decide
  · decide

theorem nvOnly_gather {g : Nat → Flags} (hg : ∀ l, (g l).NvOnly) (mask : Word) : (Flags.gather mask g).NvOnly :=
  List.foldlRecOn (lanesOf mask) _ (motive := Flags.NvOnly) (.inl rfl) fun _ ha l _ => ha.or (hg l)

/-- NV is gathered if an active lane raises it. -/
theorem gather_eq_nv_iff {g : Nat → Flags} (hg : ∀ l, (g l).NvOnly) (mask : Word) :
    Flags.gather mask g = Fl.nv ↔ ∃ l, l < 32 ∧ mask.getLsbD l = true ∧ g l = Fl.nv := by
  rw [(nvOnly_gather hg mask).eq_nv_iff, getLsbD_gather]
  simp only [(hg _).eq_nv_iff]

/-- A result of one word in each active lane, with the flags of each lane. -/
theorem resultF_of_gather {i : Instr} {c : Ctx} {lat : Nat} {out : Ctx → Chk FixedOut} {g : Nat → Word × Flags}
    (hf : fixedResult i = some (lat, out))
    (ho : out c = .ok ⟨Lanes.tab fun l => (g l).1, none, c.f.em, Flags.gather c.f.em fun l => (g l).2⟩) :
    ResultF i c lat g :=
  ⟨out, _, hf, ho, fixedResult_lands hf ho, rfl, rfl, fun _ hl => lanes_at_tab (fun l => (g l).1) hl,
    fun b _ => getLsbD_gather _ _ b⟩

end Sys2Proof.Machine
end

section
/-!
The values of F32 words (05 R130, R131) and their order (06 R154, R155): what a code decodes to, and the model's comparison of
dyadic numbers against that of rationals.
-/

namespace Sys2Proof.Machine

/-! ### Decoded values -/

/-- The rational that stands for a decoded value: an infinity lies beyond every finite value of F32. -/
def FVal.val : FVal → ℚ
  | .nan _ => 0
  | .inf n => if n then -2 ^ 200 else 2 ^ 200
  | .fin n m e _ => (signed n m : ℚ) * 2 ^ e

/-- A decoded F32 value that is not a NaN: exact, and below the infinities when it is finite. -/
def FVal.Plain : FVal → Prop
  | .nan _ => False
  | .inf _ => True
  | .fin n m e s => s = false ∧ |(FVal.fin n m e s).val| < 2 ^ 200

/-- The value of a word that is not a NaN. -/
def ext32 (w : Word) : ℚ := if isInf32 w then (if w.msb then -2 ^ 200 else 2 ^ 200) else val32 w

/-- Sign, exponent field and fraction field choose the decoded value (05 R130, R131). -/
theorem decode_f32 (w : Word) : f32.decode w.toNat =
    if w.toNat / 2 ^ 23 % 256 = 0 then .fin w.msb (w.toNat % 2 ^ 23) (-149) false
    else if w.toNat / 2 ^ 23 % 256 < 255 then
      .fin w.msb (2 ^ 23 + w.toNat % 2 ^ 23) ((w.toNat / 2 ^ 23 % 256 : Nat) - 150) false
    else if w.toNat % 2 ^ 23 = 0 then .inf w.msb else .nan (w.toNat % 2 ^ 23 < 2 ^ 22) := by
  have hw : w.toNat % 2 ^ (8 + 23 + 1) = w.toNat := Nat.mod_eq_of_lt w.isLt
  have hneg : decide (w.toNat / 2 ^ (8 + 23) = 1) = w.msb := by
    rw [BitVec.msb_eq_decide]
    exact decide_eq_decide.2 (by have := w.isLt; omega)
  have hexp (n : Nat) : (n : Int) - (127 : Nat) - (23 : Nat) = n - 150 := by omega
  unfold Fmt.decode
  dsimp only [f32, Fmt.emin]
  simp only [hw, hneg, hexp, ↓reduceIte]
  rfl

theorem decode_nan {w : Word} (h : isNaN32 w) : f32.decode w.toNat = .nan (w.toNat % 2 ^ 23 < 2 ^ 22) := by
  rw [decode_f32, if_neg (by omega), if_neg (by omega), if_neg (by omega)]

theorem decode_inf {w : Word} (h : isInf32 w) : f32.decode w.toNat = .inf w.msb := by
  rw [decode_f32, if_neg (by omega), if_neg (by omega), if_pos (by omega)]

theorem signed_eq (n : Bool) (m : Nat) : (signed n m : ℚ) = (if n then -1 else 1) * m := by
  cases n
  · simp [signed]
  · simp [signed]

/-- A finite word decodes to its value, exactly. -/
theorem decode_finite {w : Word} (h : finite32 w) :
    ∃ m e, f32.decode w.toNat = .fin w.msb m e false ∧ (FVal.fin w.msb m e false).val = val32 w := by
  rw [decode_f32]
  unfold val32
  by_cases he : w.toNat / 2 ^ 23 % 256 = 0
  · refine ⟨_, _, if_pos he, ?_⟩
    rw [if_pos he, FVal.val, signed_eq, zpow_neg, mul_assoc]
    rfl
  · refine ⟨_, _, (if_neg he).trans (if_pos (by omega)), ?_⟩
    rw [if_neg he, FVal.val, signed_eq, zpow_sub₀ two_ne_zero, zpow_natCast, mul_assoc, mul_div_assoc]
    rfl

theorem abs_val32_lt (w : Word) : |val32 w| < 2 ^ 200 := by
  have hsign : |(if w.msb then -1 else 1 : ℚ)| = 1 := by split <;> simp
  have hpow : (2 : ℚ) ^ (w.toNat / 2 ^ 23 % 256) ≤ 2 ^ 255 := pow_le_pow_right₀ one_le_two (by omega)
  have hfr : ((w.toNat % 2 ^ 23 : Nat) : ℚ) < 2 ^ 23 := by exact_mod_cast Nat.mod_lt _ (by positivity)
  unfold val32
  rw [abs_mul, hsign, one_mul]
  split
  · rw [abs_of_nonneg (by positivity), div_lt_iff₀ (by positivity)]
    linarith
  · rw [abs_of_nonneg (by positivity), div_lt_iff₀ (by positivity)]
    push_cast at hfr ⊢
    calc _ < (2 ^ 24 : ℚ) * 2 ^ 255 := mul_lt_mul (by linarith) hpow (by positivity) (by positivity)
      _ < 2 ^ 200 * 2 ^ 150 := by norm_num

theorem not_nan_iff {w : Word} : ¬isNaN32 w ↔ isInf32 w ∨ finite32 w := by
  omega

theorem plain_decode {w : Word} (h : ¬isNaN32 w) : (f32.decode w.toNat).Plain := by
  rcases not_nan_iff.1 h with hi | hf
  · rw [decode_inf hi]
    trivial
  · obtain ⟨m, e, hd, hv⟩ := decode_finite hf
    rw [hd]
    exact ⟨rfl, hv ▸ abs_val32_lt _⟩

theorem val_decode {w : Word} (h : ¬isNaN32 w) : (f32.decode w.toNat).val = ext32 w := by
  unfold ext32
  rcases not_nan_iff.1 h with hi | hf
  · rw [decode_inf hi, if_pos hi]
    rfl
  · obtain ⟨m, e, hd, hv⟩ := decode_finite hf
    rw [hd, hv, if_neg hf.2]

theorem isNeg_decode {w : Word} (h : ¬isNaN32 w) : (f32.decode w.toNat).isNeg = w.msb := by
  rcases not_nan_iff.1 h with hi | hf
  · rw [decode_inf hi]
    rfl
  · obtain ⟨m, e, hd, -⟩ := decode_finite hf
    rw [hd]
    rfl

theorem FVal.Plain.isNan {x : FVal} (h : x.Plain) : x.isNan = false := by
  cases x with
  | nan _ => exact h.elim
  | inf _ => rfl
  | fin _ _ _ _ => rfl

theorem isNan_decode (w : Word) : (f32.decode w.toNat).isNan = decide (isNaN32 w) := by
  by_cases h : isNaN32 w
  · rw [decode_nan h, decide_eq_true h]
    rfl
  · rw [(plain_decode h).isNan, decide_eq_false h]

theorem isNan_decode_nan {w : Word} (h : isNaN32 w) : (f32.decode w.toNat).isNan = true := by
  rw [isNan_decode, decide_eq_true h]

theorem isNan_decode_num {w : Word} (h : ¬isNaN32 w) : (f32.decode w.toNat).isNan = false := by
  rw [isNan_decode, decide_eq_false h]

theorem FVal.Plain.isSnan {x : FVal} (h : x.Plain) : x.isSnan = false := by
  cases x with
  | nan _ => exact h.elim
  | inf _ => rfl
  | fin _ _ _ _ => rfl

/-- The first fraction bit as a bound on the fraction. -/
theorem getLsbD_22_eq_false_iff (w : Word) : w.getLsbD 22 = false ↔ w.toNat % 2 ^ 23 < 2 ^ 22 := by
  rw [BitVec.getLsbD, Nat.testBit_eq_decide_div_mod_eq]
  simp only [decide_eq_false_iff_not]
  omega

theorem isSnan_decode (w : Word) : (f32.decode w.toNat).isSnan = decide (isSNaN32 w) := by
  by_cases h : isNaN32 w
  · rw [decode_nan h]
    exact decide_eq_decide.2 ((getLsbD_22_eq_false_iff w).symm.trans (and_iff_right h).symm)
  · rw [(plain_decode h).isSnan, decide_eq_false fun hs => h hs.1]

/-! ### Comparison -/

theorem scaled_mul (n : Bool) (m : Nat) {e q : Int} (h : q ≤ e) :
    ((signed n (m * 2 ^ (e - q).toNat) : Int) : ℚ) * 2 ^ q = signed n m * 2 ^ e := by
  obtain ⟨k, rfl⟩ : ∃ k : Nat, e = q + k := ⟨(e - q).toNat, by omega⟩
  rw [signed_eq, signed_eq, zpow_add₀ two_ne_zero, zpow_natCast, add_sub_cancel_left, Int.toNat_natCast]
  push_cast
  ring

/-- The model's comparison of two finite values is their difference over a common exponent. -/
theorem cmp_fin_mul (n k : Bool) (m p : Nat) (e g : Int) (s u : Bool) :
    ((FVal.cmp (.fin n m e s) (.fin k p g u) : Int) : ℚ) * 2 ^ min e g = (FVal.fin n m e s).val - (FVal.fin k p g u).val := by
  simp only [FVal.cmp, FVal.val]
  rw [Int.cast_sub, sub_mul, scaled_mul n m (min_le_left e g), scaled_mul k p (min_le_right e g)]

/-- The model's comparison has the sign of the difference of the values. -/
theorem sign_cmp {x y : FVal} (hx : x.Plain) (hy : y.Plain) : SignType.sign (x.cmp y) = SignType.sign (x.val - y.val) := by
  match x, y, hx, hy with
  | .inf n, .inf k, _, _ =>
    cases n with
    | true => cases k <;> norm_num [FVal.cmp, FVal.val]
    | false => cases k <;> norm_num [FVal.cmp, FVal.val]
  | .inf n, .fin k p g u, _, ⟨_, hy⟩ =>
    obtain ⟨hlo, hhi⟩ := abs_lt.1 hy
    cases n with
    | true => exact (sign_neg (sub_neg.2 hlo)).symm
    | false => exact (sign_pos (sub_pos.2 hhi)).symm
  | .fin n m e s, .inf k, ⟨_, hx⟩, _ =>
    obtain ⟨hlo, hhi⟩ := abs_lt.1 hx
    cases k with
    | true => exact (sign_pos (sub_pos.2 hlo)).symm
    | false => exact (sign_neg (sub_neg.2 hhi)).symm
  | .fin n m e s, .fin k p g u, _, _ =>
    rw [← cmp_fin_mul, sign_mul, sign_pos (by positivity : (0 : ℚ) < 2 ^ min e g), mul_one, sign_intCast]

theorem cmp_neg_iff {x y : FVal} (hx : x.Plain) (hy : y.Plain) : x.cmp y < 0 ↔ x.val < y.val := by
  rw [← sign_eq_neg_one_iff, sign_cmp hx hy, sign_eq_neg_one_iff, sub_neg]

theorem cmp_pos_iff {x y : FVal} (hx : x.Plain) (hy : y.Plain) : 0 < x.cmp y ↔ y.val < x.val := by
  rw [← sign_eq_one_iff, sign_cmp hx hy, sign_eq_one_iff, sub_pos]

theorem cmp_eq_zero_iff {x y : FVal} (hx : x.Plain) (hy : y.Plain) : x.cmp y = 0 ↔ x.val = y.val := by
  rw [← sign_eq_zero_iff, sign_cmp hx hy, sign_eq_zero_iff, sub_eq_zero]

/-! ### The order of FMIN and FMAX -/

/-- One value orders below another: it is less, or it is −0 beside +0 (06 R154). -/
def FVal.Below (x y : FVal) : Prop := x.val < y.val ∨ (x.val = y.val ∧ x.isNeg = true ∧ y.isNeg = false)

theorem FVal.val_nonpos {x : FVal} (h : x.isNeg = true) : x.val ≤ 0 := by
  cases x with
  | nan _ => exact le_rfl
  | inf n => simp_all [FVal.isNeg, FVal.val]
  | fin n m e s =>
    obtain rfl : n = true := h
    rw [FVal.val, signed_eq, if_pos rfl, neg_one_mul, neg_mul, neg_nonpos]
    positivity

theorem FVal.val_nonneg {x : FVal} (h : x.isNeg = false) : 0 ≤ x.val := by
  cases x with
  | nan _ => exact le_rfl
  | inf n => simp_all [FVal.isNeg, FVal.val]
  | fin n m e s =>
    obtain rfl : n = false := h
    rw [FVal.val, signed_eq, if_neg Bool.false_ne_true, one_mul]
    positivity

theorem FVal.isZero_of_val {x : FVal} (hx : x.Plain) (h : x.val = 0) : x.isZero = true := by
  match x, hx with
  | .inf n, _ => cases n <;> norm_num [FVal.val] at h
  | .fin n m e s, ⟨hs, _⟩ =>
    have hm : (m : ℚ) = 0 := by
      rw [FVal.val, signed_eq, mul_eq_zero, mul_eq_zero] at h
      rcases h with (h | h) | h
      · split at h <;> norm_num at h
      · exact h
      · exact absurd h (by positivity)
    simp [FVal.isZero, hs, Nat.cast_eq_zero.1 hm]

/-- Values that differ in sign alone are zeros. -/
theorem FVal.zeros_of_signs {x y : FVal} (hx : x.Plain) (hy : y.Plain) (h : x.val = y.val) (hn : x.isNeg = true)
    (hp : y.isNeg = false) : x.isZero = true ∧ y.isZero = true := by
  have hx0 : x.val = 0 := le_antisymm (FVal.val_nonpos hn) (h ▸ FVal.val_nonneg hp)
  exact ⟨FVal.isZero_of_val hx hx0, FVal.isZero_of_val hy (h ▸ hx0)⟩

theorem order_of_cmp_ne {x y : FVal} (h : x.cmp y ≠ 0) : x.order y = x.cmp y := by
  simp [FVal.order, h]

theorem order_neg {x y : FVal} (hx : x.Plain) (hy : y.Plain) (h : x.Below y) : x.order y < 0 := by
  rcases h with hlt | ⟨heq, hn, hp⟩
  · have hc := (cmp_neg_iff hx hy).2 hlt
    rwa [order_of_cmp_ne hc.ne]
  · obtain ⟨hx0, hy0⟩ := FVal.zeros_of_signs hx hy heq hn hp
    simp [FVal.order, (cmp_eq_zero_iff hx hy).2 heq, hx0, hy0, hn, hp]

theorem order_pos {x y : FVal} (hx : x.Plain) (hy : y.Plain) (h : y.Below x) : 0 < x.order y := by
  rcases h with hlt | ⟨heq, hn, hp⟩
  · have hc := (cmp_pos_iff hx hy).2 hlt
    rwa [order_of_cmp_ne hc.ne']
  · obtain ⟨hy0, hx0⟩ := FVal.zeros_of_signs hy hx heq hn hp
    simp [FVal.order, (cmp_eq_zero_iff hx hy).2 heq.symm, hx0, hy0, hn, hp]

/-- A word that is not a NaN is the infinity of the given sign, or orders beyond it on the inner side. -/
theorem eq_or_below_of_inf {a b : Word} (ha : isInf32 a) (hb : ¬isNaN32 b) :
    a = b ∨ if a.msb then (f32.decode a.toNat).Below (f32.decode b.toNat)
      else (f32.decode b.toNat).Below (f32.decode a.toNat) := by
  rw [decode_inf ha]
  rcases not_nan_iff.1 hb with hi | hf
  · rw [decode_inf hi]
    by_cases hs : a.msb = b.msb
    · left
      rw [BitVec.msb_eq_decide, BitVec.msb_eq_decide, decide_eq_decide] at hs
      exact BitVec.eq_of_toNat_eq (by omega)
    · right
      obtain hb : b.msb = !a.msb := Bool.eq_not.2 (Ne.symm hs)
      rw [hb]
      cases a.msb with
      | true => exact .inl (by norm_num [FVal.val])
      | false => exact .inl (by norm_num [FVal.val])
  · right
    obtain ⟨hlo, hhi⟩ := abs_lt.1 (abs_val32_lt _)
    have hv : (f32.decode b.toNat).val = val32 b := (val_decode hb).trans (if_neg hf.2)
    cases a.msb with
    | true => exact .inl (hv ▸ hlo)
    | false => exact .inl (hv ▸ hhi)

end Sys2Proof.Machine
end

section
/-!
FMIN, FMAX and FCMP: what each computes from two F32 words (06 R154, R155).
-/

namespace Sys2Proof.Machine

/-! ### FMIN and FMAX -/

theorem snanFlag_decode (a b : Word) :
    snanFlag [f32.decode a.toNat, f32.decode b.toNat] = if isSNaN32 a ∨ isSNaN32 b then Fl.nv else Fl.none := by
  unfold snanFlag
  rw [List.any_cons, List.any_cons, List.any_nil, Bool.or_false, isSnan_decode, isSnan_decode, ← Bool.decide_or]
  simp only [decide_eq_true_eq]

/-- The result and the flags of FMIN, or FMAX, in one lane. -/
def minMax32 (isMax : Bool) (a b : Word) : Word × Flags :=
  (wd (fminmax isMax a.toNat b.toNat).1, (fminmax isMax a.toNat b.toNat).2)

theorem minMax32_nan_nan {isMax : Bool} {a b : Word} (ha : isNaN32 a) (hb : isNaN32 b) :
    (minMax32 isMax a b).1 = 0x7FC00000 := by
  simp only [minMax32, fminmax, isNan_decode_nan ha, isNan_decode_nan hb, Bool.and_self, ↓reduceIte]
  rfl

theorem minMax32_nan_left {isMax : Bool} {a b : Word} (ha : isNaN32 a) (hb : ¬isNaN32 b) : (minMax32 isMax a b).1 = b := by
  simp [minMax32, fminmax, isNan_decode_nan ha, isNan_decode_num hb, wd]

theorem minMax32_nan_right {isMax : Bool} {a b : Word} (ha : ¬isNaN32 a) (hb : isNaN32 b) : (minMax32 isMax a b).1 = a := by
  simp [minMax32, fminmax, isNan_decode_num ha, isNan_decode_nan hb, wd]

theorem minMax32_num {isMax : Bool} {a b : Word} (ha : ¬isNaN32 a) (hb : ¬isNaN32 b) :
    (minMax32 isMax a b).1 =
      if isMax then (if (f32.decode a.toNat).order (f32.decode b.toNat) < 0 then b else a)
      else (if 0 < (f32.decode a.toNat).order (f32.decode b.toNat) then b else a) := by
  simp [minMax32, fminmax, isNan_decode_num ha, isNan_decode_num hb, wd, apply_ite (BitVec.ofNat 32)]

/-- Of two numbers in order FMIN returns the first and FMAX the second. -/
theorem minMax32_below {isMax : Bool} {a b : Word} (ha : ¬isNaN32 a) (hb : ¬isNaN32 b)
    (h : (f32.decode a.toNat).Below (f32.decode b.toNat)) : (minMax32 isMax a b).1 = if isMax then b else a := by
  have hneg := order_neg (plain_decode ha) (plain_decode hb) h
  rw [minMax32_num ha hb, if_pos hneg, if_neg hneg.not_gt]

theorem minMax32_above {isMax : Bool} {a b : Word} (ha : ¬isNaN32 a) (hb : ¬isNaN32 b)
    (h : (f32.decode b.toNat).Below (f32.decode a.toNat)) : (minMax32 isMax a b).1 = if isMax then a else b := by
  have hpos := order_pos (plain_decode ha) (plain_decode hb) h
  rw [minMax32_num ha hb, if_pos hpos, if_neg hpos.not_gt]

theorem minMax32_self {isMax : Bool} {a : Word} (ha : ¬isNaN32 a) : (minMax32 isMax a a).1 = a := by
  simp [minMax32_num ha ha]

/-- FMIN returns −∞ if its first source is that, and the other source if it is +∞; FMAX the other way round. -/
theorem minMax32_inf_left {isMax : Bool} {a b : Word} (ha : isInf32 a) (hb : ¬isNaN32 b) :
    (minMax32 isMax a b).1 = if a.msb = !isMax then a else b := by
  have han : ¬isNaN32 a := not_nan_iff.2 (.inl ha)
  rcases eq_or_below_of_inf ha hb with rfl | h
  · rw [minMax32_self han, ite_self]
  · cases hs : a.msb with
    | true =>
      rw [hs] at h
      rw [minMax32_below han hb h]
      cases isMax <;> rfl
    | false =>
      rw [hs] at h
      rw [minMax32_above han hb h]
      cases isMax <;> rfl

theorem minMax32_inf_right {isMax : Bool} {a b : Word} (hb : isInf32 b) (ha : ¬isNaN32 a) :
    (minMax32 isMax a b).1 = if b.msb = !isMax then b else a := by
  have hbn : ¬isNaN32 b := not_nan_iff.2 (.inl hb)
  rcases eq_or_below_of_inf hb ha with rfl | h
  · rw [minMax32_self hbn, ite_self]
  · cases hs : b.msb with
    | true =>
      rw [hs] at h
      rw [minMax32_above ha hbn h]
      cases isMax <;> rfl
    | false =>
      rw [hs] at h
      rw [minMax32_below ha hbn h]
      cases isMax <;> rfl

theorem minMax32_flags (isMax : Bool) (a b : Word) :
    (minMax32 isMax a b).2 = if isSNaN32 a ∨ isSNaN32 b then Fl.nv else Fl.none := snanFlag_decode a b

/-- One finite word orders below another: it is less, or it is −0 beside +0. -/
def Below32 (a b : Word) : Prop := val32 a < val32 b ∨ (val32 a = val32 b ∧ a.msb = true ∧ b.msb = false)

theorem below_decode {a b : Word} (ha : finite32 a) (hb : finite32 b) (h : Below32 a b) :
    (f32.decode a.toNat).Below (f32.decode b.toNat) := by
  unfold FVal.Below
  rw [val_decode ha.1, val_decode hb.1, isNeg_decode ha.1, isNeg_decode hb.1, ext32, ext32, if_neg ha.2, if_neg hb.2]
  exact h

/-- What 06 R154 says of FMIN (`small`) or FMAX in one lane. -/
def MinMaxRule (small : Bool) (a b : Word) (r : Word × Flags) : Prop :=
  (isNaN32 a → isNaN32 b → r.1 = 0x7FC00000) ∧ (isNaN32 a → ¬isNaN32 b → r.1 = b) ∧ (¬isNaN32 a → isNaN32 b → r.1 = a)
  ∧ (finite32 a → finite32 b →
    (Below32 a b → r.1 = if small then a else b) ∧ (Below32 b a → r.1 = if small then b else a))
  ∧ (isInf32 a → ¬isNaN32 b → r.1 = if a.msb = small then a else b)
  ∧ (isInf32 b → ¬isNaN32 a → r.1 = if b.msb = small then b else a)
  ∧ (a = b → ¬isNaN32 a → r.1 = a)
  ∧ (isSNaN32 a ∨ isSNaN32 b → r.2 = Fl.nv) ∧ (¬isSNaN32 a → ¬isSNaN32 b → r.2 = Fl.none)

theorem minMaxRule (isMax : Bool) (a b : Word) : MinMaxRule (!isMax) a b (minMax32 isMax a b) := by
  have hswap (x y : Word) : (if (!isMax) = true then x else y) = if isMax = true then y else x := by cases isMax <;> rfl
  refine ⟨minMax32_nan_nan, minMax32_nan_left, minMax32_nan_right, fun ha hb => ⟨fun h => ?below, fun h => ?above⟩,
    minMax32_inf_left, minMax32_inf_right, ?self, fun h => ?nv, fun ha hb => ?quiet⟩
  case below => rw [hswap, minMax32_below ha.1 hb.1 (below_decode ha hb h)]
  case above => rw [hswap, minMax32_above ha.1 hb.1 (below_decode hb ha h)]
  case self =>
    rintro rfl ha
    exact minMax32_self ha
  case nv => rw [minMax32_flags, if_pos h]
  case quiet => rw [minMax32_flags, if_neg (not_or.2 ⟨ha, hb⟩)]

/-- FMIN and FMAX in every form. -/
theorem minMax_result {i : Instr} {c : Ctx} {out : Ctx → Chk FixedOut} {isMax : Bool} (hf : fixedResult i = some (6, out))
    (ho : out c = .ok (c.f32Op (fminmax isMax))) :
    ∃ g, ResultF i c 6 g ∧ ∀ l, l < 32 → MinMaxRule (!isMax) (c.srcA.at l) (c.srcB.at l) (g l) :=
  ⟨fun l => minMax32 isMax (c.srcA.at l) (c.srcB.at l), resultF_of_gather hf ho, fun _ _ => minMaxRule isMax _ _⟩

/-! ### FCMP -/

/-- The conditions of FCMP by their number, as relations of two numbers (06 R155). -/
def fcmpConds : List (Nat × (ℚ → ℚ → Prop)) :=
  [(0, (· = ·)), (1, (· ≠ ·)), (2, (· < ·)), (3, (· ≤ ·)), (4, (· > ·)), (5, (· ≥ ·)), (6, fun _ _ => True), (7, fun _ _ => False)]

/-- A condition of two numbers is its relation of their values. -/
theorem fcond_num_iff {k : Nat} {rel : ℚ → ℚ → Prop} (h : fcmpConds.lookup k = some rel) {a b : Word} (ha : ¬isNaN32 a)
    (hb : ¬isNaN32 b) : (fcond k a.toNat b.toNat).1 = true ↔ rel (ext32 a) (ext32 b) := by
  have hneg := cmp_neg_iff (plain_decode ha) (plain_decode hb)
  have hpos := cmp_pos_iff (plain_decode ha) (plain_decode hb)
  have hzero := cmp_eq_zero_iff (plain_decode ha) (plain_decode hb)
  rw [val_decode ha, val_decode hb] at hneg hpos hzero
  have hna := isNan_decode_num ha
  have hnb := isNan_decode_num hb
  match k, h with
  | 0, rfl => simp [fcond, hna, hnb, hzero]
  | 1, rfl => simp [fcond, hna, hnb, hzero]
  | 2, rfl => simp [fcond, hna, hnb, hneg]
  | 3, rfl => simpa [fcond, hna, hnb] using not_congr hpos
  | 4, rfl => simp [fcond, hna, hnb, hpos]
  | 5, rfl => simpa [fcond, hna, hnb] using not_congr hneg
  | 6, rfl => simp [fcond, hna, hnb]
  | 7, rfl => simp [fcond, hna, hnb]
  | n + 8, h => simp [fcmpConds, List.lookup] at h

theorem unordered_decode (a b : Word) :
    ((f32.decode a.toNat).isNan || (f32.decode b.toNat).isNan) = decide (isNaN32 a ∨ isNaN32 b) := by
  rw [isNan_decode, isNan_decode, Bool.decide_or]

/-- A NaN is unordered, which NE and NAN alone count as true. -/
theorem fcond_nan_iff {k : Nat} (hk : k < 8) {a b : Word} (h : isNaN32 a ∨ isNaN32 b) :
    (fcond k a.toNat b.toNat).1 = true ↔ k = 1 ∨ k = 7 := by
  have hun := (unordered_decode a b).trans (decide_eq_true h)
  simp only [fcond, hun, Bool.not_true, Bool.false_and, Bool.true_or]
  interval_cases k <;> decide

/-- NV: for a signalling NaN, and under LT, LE, GT and GE for any. -/
theorem fcond_flags (k : Nat) (a b : Word) : (fcond k a.toNat b.toNat).2 =
    if isSNaN32 a ∨ isSNaN32 b ∨ (2 ≤ k ∧ k ≤ 5 ∧ (isNaN32 a ∨ isNaN32 b)) then Fl.nv else Fl.none := by
  unfold fcond
  dsimp only
  rw [unordered_decode, snanFlag_decode]
  by_cases hk : 2 ≤ k ∧ k ≤ 5
  · rw [if_pos (by simpa using hk)]
    simp only [decide_eq_true_eq]
    exact if_congr (by tauto) rfl rfl
  · rw [if_neg (by simpa using hk)]
    exact if_congr (by tauto) rfl rfl

/-- What 06 R155 says of FCMP's bits `g` and flags `fl` under condition `k` with relation `rel`. -/
def FcmpRule (c : Ctx) (k : Nat) (rel : ℚ → ℚ → Prop) (g : Nat → Bool) (fl : Flags) (l : Nat) : Prop :=
  let a := c.srcA.at l
  let b := c.srcB.at l
  (¬isNaN32 a → ¬isNaN32 b → (g l = true ↔ rel (ext32 a) (ext32 b)))
  ∧ (isNaN32 a ∨ isNaN32 b → (g l = true ↔ k = 1 ∨ k = 7))
  ∧ (fl = Fl.none ∨ fl = Fl.nv)
  ∧ (fl = Fl.nv ↔ ∃ j, j < 32 ∧ c.f.em.getLsbD j = true ∧ (isSNaN32 (c.srcA.at j) ∨ isSNaN32 (c.srcB.at j)
    ∨ (2 ≤ k ∧ k ≤ 5 ∧ (isNaN32 (c.srcA.at j) ∨ isNaN32 (c.srcB.at j)))))

theorem nvOnly_ite (p : Prop) [Decidable p] : Flags.NvOnly (if p then Fl.nv else Fl.none) := by
  split
  · exact .inr rfl
  · exact .inl rfl

theorem ite_eq_nv_iff (p : Prop) [Decidable p] : (if p then Fl.nv else Fl.none) = Fl.nv ↔ p := by
  simp [Fl.nv, Fl.none]

theorem fcmp_result (x : XF) {c : Ctx} {rel : ℚ → ℚ → Prop} (h : fcmpConds.lookup c.rnd = some rel) :
    ∃ g fl, ResultP (.fcmp x) c 6 g fl ∧ ∀ l, l < 32 → FcmpRule c c.rnd rel g fl l := by
  have hk : c.rnd < 8 := Nat.mod_lt _ (by decide)
  have hnv : ∀ l, (fcond c.rnd (c.srcA.at l).toNat (c.srcB.at l).toNat).2.NvOnly := fun l => by
    rw [fcond_flags]
    exact nvOnly_ite _
  refine ⟨_, _, resultP_of_maskOf (out := outFcmp) rfl rfl,
    fun l _ => ⟨fcond_num_iff h, fcond_nan_iff hk, nvOnly_gather hnv _, ?_⟩⟩
  rw [gather_eq_nv_iff hnv]
  simp only [fcond_flags, ite_eq_nv_iff]

end Sys2Proof.Machine
end

section
/-!
CVT.I from F32 (06 R163): the model's rounding of a dyadic magnitude against the five modes on rationals (02 R51, 05 R137), and
the range of the integer type.
-/

namespace Sys2Proof.Machine

/-! ### Rounding modes -/

/-- `n` is `v` rounded to an integer in a mode: 0 RN, ties to even; 1 RZ; 2 RU; 3 RD; else RO, odd when inexact. -/
def RoundsTo (mode : Nat) (v : ℚ) (n : Int) : Prop :=
  match mode with
  | 0 => |v - n| < 1 / 2 ∨ (|v - n| = 1 / 2 ∧ n % 2 = 0)
  | 1 => n = if v < 0 then ⌈v⌉ else ⌊v⌋
  | 2 => n = ⌈v⌉
  | 3 => n = ⌊v⌋
  | _ => (n : ℚ) = v ∨ ((n = ⌊v⌋ ∨ n = ⌈v⌉) ∧ n % 2 = 1 ∧ ⌊v⌋ ≠ ⌈v⌉)

/-- The mode that does to `-v` what `mode` does to `v`: RU and RD change places. -/
def mirrorMode (mode : Nat) : Nat :=
  match mode with
  | 2 => 3
  | 3 => 2
  | k => k

theorem RoundsTo.neg {mode : Nat} {v : ℚ} {n : Int} (h : RoundsTo mode v n) : RoundsTo (mirrorMode mode) (-v) (-n) := by
  match mode, h with
  | 0, h =>
    have habs : |-v - (-n : Int)| = |v - n| := by
      rw [← abs_neg]
      congr 1
      push_cast
      ring
    simpa only [RoundsTo, mirrorMode, habs, Int.neg_emod_two] using h
  | 1, h =>
    change -n = if -v < 0 then ⌈-v⌉ else ⌊-v⌋
    have hn : n = if v < 0 then ⌈v⌉ else ⌊v⌋ := h
    obtain hv | rfl | hv := lt_trichotomy v 0
    · rw [hn, if_pos hv, if_neg (by linarith), Int.floor_neg]
    · simpa using hn
    · rw [hn, if_neg hv.not_gt, if_pos (by linarith), Int.ceil_neg]
  | 2, h => exact (congrArg Neg.neg h).trans Int.floor_neg.symm
  | 3, h => exact (congrArg Neg.neg h).trans Int.ceil_neg.symm
  | k + 4, h =>
    rcases h with h | ⟨hn, hodd, hne⟩
    · exact .inl (by rw [Int.cast_neg, h])
    · refine .inr ⟨?_, by rwa [Int.neg_emod_two], ?_⟩
      · rw [Int.floor_neg, Int.ceil_neg, neg_inj, neg_inj]
        exact hn.symm
      · rw [Int.floor_neg, Int.ceil_neg]
        exact fun h => hne (neg_injective h).symm

/-- The magnitude `q + t`, with `t` its fraction, is rounded away from zero. -/
def RoundsAway (mode : Nat) (q : Nat) (t : ℚ) : Prop :=
  match mode with
  | 0 => 1 / 2 < t ∨ (t = 1 / 2 ∧ q % 2 = 1)
  | 2 => t ≠ 0
  | 4 => t ≠ 0 ∧ q % 2 = 0
  | _ => False

theorem floor_add_frac (q : Nat) {t : ℚ} (h0 : 0 ≤ t) (h1 : t < 1) : ⌊(q : ℚ) + t⌋ = q := by
  rw [Int.floor_natCast_add, Int.floor_eq_zero_iff.2 ⟨h0, h1⟩, add_zero]

theorem ceil_add_frac (q : Nat) {t : ℚ} (h0 : 0 ≤ t) (h1 : t < 1) : ⌈(q : ℚ) + t⌉ = if t = 0 then (q : Int) else q + 1 := by
  rw [Int.ceil_natCast_add]
  split
  · simp [*]
  · rename_i ht
    have hpos : 0 < t := lt_of_le_of_ne h0 (Ne.symm ht)
    have hone : ⌈t⌉ = 1 := Int.ceil_eq_iff.2 ⟨by norm_num [hpos], by norm_num [h1.le]⟩
    rw [hone]

/-- Within a half of `q + t` lie `q` and the integer above it alone. -/
theorem eq_or_eq_succ_of_abs_le {q : Nat} {t : ℚ} {n : Int} (h0 : 0 ≤ t) (h1 : t < 1) (h : |q + t - n| ≤ 1 / 2) :
    n = q ∨ n = q + 1 := by
  obtain ⟨hlo, hhi⟩ := abs_le.1 h
  have hge : (q : ℚ) - 1 < n := by linarith
  have hle : (n : ℚ) < q + 2 := by linarith
  have hge' : (q : Int) - 1 < n := by exact_mod_cast hge
  have hle' : n < (q : Int) + 2 := by exact_mod_cast hle
  omega

/-- To nearest: away from zero past the half, and at the half from an odd integer part. -/
theorem roundsAway_of_nearest {q : Nat} {t : ℚ} {n : Int} (h0 : 0 ≤ t) (h1 : t < 1) (h : RoundsTo 0 (q + t) n) :
    (RoundsAway 0 q t ∧ n = q + 1) ∨ (¬RoundsAway 0 q t ∧ n = q) := by
  rcases eq_or_eq_succ_of_abs_le h0 h1 (h.elim le_of_lt fun h => h.1.le) with rfl | rfl
  · right
    have habs : |(q : ℚ) + t - ((q : Int) : ℚ)| = t := by
      rw [Int.cast_natCast, add_sub_cancel_left, abs_of_nonneg h0]
    refine ⟨?_, rfl⟩
    simp only [RoundsTo, habs] at h
    rintro (hgt | ⟨heq, hodd⟩)
    · rcases h with hlt | ⟨heq, -⟩
      · exact hlt.not_gt hgt
      · exact hgt.ne' heq
    · rcases h with hlt | ⟨-, heven⟩
      · exact hlt.ne heq
      · omega
  · left
    have habs : |(q : ℚ) + t - ((q + 1 : Int) : ℚ)| = 1 - t := by
      rw [abs_sub_comm, abs_of_nonneg (by push_cast; linarith)]
      push_cast
      ring
    refine ⟨?_, rfl⟩
    simp only [RoundsTo, habs] at h
    rcases h with hlt | ⟨heq, heven⟩
    · exact .inl (by linarith)
    · exact .inr ⟨by linarith, by omega⟩

/-- To odd: away from zero from an even integer part, unless exact. -/
theorem roundsAway_of_odd {q : Nat} {t : ℚ} {n : Int} (h0 : 0 ≤ t) (h1 : t < 1) (h : RoundsTo 4 (q + t) n) :
    (RoundsAway 4 q t ∧ n = q + 1) ∨ (¬RoundsAway 4 q t ∧ n = q) := by
  have hfloor := floor_add_frac q h0 h1
  have hceil := ceil_add_frac q h0 h1
  by_cases ht : t = 0
  · right
    refine ⟨fun haway => haway.1 ht, ?_⟩
    rcases h with heq | ⟨-, -, hne⟩
    · rwa [ht, add_zero, ← Int.cast_natCast, Int.cast_inj] at heq
    · exact absurd (hfloor.trans (hceil.trans (if_pos ht)).symm) hne
  · rw [if_neg ht] at hceil
    rcases h with heq | ⟨hn, hodd, -⟩
    · rw [← heq, Int.floor_intCast] at hfloor
      rw [hfloor, Int.cast_natCast] at heq
      exact absurd (by linarith) ht
    · rw [hfloor, hceil] at hn
      rcases hn with rfl | rfl
      · exact .inr ⟨fun haway => by have := haway.2; omega, rfl⟩
      · exact .inl ⟨⟨ht, by omega⟩, rfl⟩

/-- What a magnitude rounds to is its integer part, or one more where its mode takes it away from zero. -/
theorem RoundsTo.eq_of_nonneg {mode q : Nat} {t : ℚ} {n : Int} (hm : mode < 5) (h0 : 0 ≤ t) (h1 : t < 1)
    (h : RoundsTo mode (q + t) n) : (RoundsAway mode q t ∧ n = q + 1) ∨ (¬RoundsAway mode q t ∧ n = q) := by
  have hfloor := floor_add_frac q h0 h1
  match mode, hm, h with
  | 0, _, h => exact roundsAway_of_nearest h0 h1 h
  | 1, _, h =>
    have hn : n = if (q : ℚ) + t < 0 then ⌈(q : ℚ) + t⌉ else ⌊(q : ℚ) + t⌋ := h
    rw [if_neg (by positivity : (0 : ℚ) ≤ q + t).not_gt, hfloor] at hn
    exact .inr ⟨not_false, hn⟩
  | 2, _, h =>
    have hn := Eq.trans h (ceil_add_frac q h0 h1)
    by_cases ht : t = 0
    · exact .inr ⟨not_not.2 ht, hn.trans (if_pos ht)⟩
    · exact .inl ⟨ht, hn.trans (if_neg ht)⟩
  | 3, _, h => exact .inr ⟨not_false, Eq.trans h hfloor⟩
  | 4, _, h => exact roundsAway_of_odd h0 h1 h

theorem not_roundsAway_zero (mode q : Nat) : ¬RoundsAway mode q 0 := by
  unfold RoundsAway
  split
  · norm_num
  · exact fun h => h rfl
  · exact fun h => h.1 rfl
  · exact not_false

/-- A magnitude is rounded to itself only when it has no fraction. -/
theorem RoundsTo.exact_iff {mode q : Nat} {t : ℚ} {n : Int} (hm : mode < 5) (h0 : 0 ≤ t) (h1 : t < 1)
    (h : RoundsTo mode (q + t) n) : (n : ℚ) = q + t ↔ t = 0 := by
  rcases h.eq_of_nonneg hm h0 h1 with ⟨haway, rfl⟩ | ⟨-, rfl⟩
  · have ht : t ≠ 0 := fun ht => not_roundsAway_zero mode q (ht ▸ haway)
    push_cast
    exact iff_of_false (by linarith) ht
  · rw [Int.cast_natCast, left_eq_add]

/-! ### The model's rounding of a dyadic value -/

/-- The model's choice, from the remainder over an even divisor. -/
theorem roundUp_iff {mode : Nat} (hm : mode < 5) (q r : Nat) {k : Nat} (hk : 0 < k) :
    roundUp mode false q r k = true ↔ RoundsAway mode q ((r : ℚ) / (2 * k : Nat)) := by
  have hpos : (0 : ℚ) < (2 * k : Nat) := by positivity
  have hhalf : (1 / 2 : ℚ) * (2 * k : Nat) = k := by push_cast; ring
  have hgt : 1 / 2 < (r : ℚ) / (2 * k : Nat) ↔ k < r := by rw [lt_div_iff₀ hpos, hhalf, Nat.cast_lt]
  have heq : (r : ℚ) / (2 * k : Nat) = 1 / 2 ↔ r = k := by rw [div_eq_iff hpos.ne', hhalf, Nat.cast_inj]
  have hzero : (r : ℚ) / (2 * k : Nat) = 0 ↔ r = 0 := by rw [div_eq_zero_iff, or_iff_left hpos.ne', Nat.cast_eq_zero]
  match mode, hm with
  | 0, _ => simp only [roundUp, RoundsAway, hgt, heq, Bool.or_eq_true, Bool.and_eq_true, decide_eq_true_eq, gt_iff_lt]
  | 1, _ => simp only [roundUp, RoundsAway, Bool.false_eq_true]
  | 2, _ => simp only [roundUp, RoundsAway, ne_eq, hzero, Bool.not_false, Bool.true_and, decide_eq_true_eq]
  | 3, _ => simp only [roundUp, RoundsAway, Bool.false_and, Bool.false_eq_true]
  | 4, _ => simp only [roundUp, RoundsAway, ne_eq, hzero, Bool.and_eq_true, decide_eq_true_eq]

theorem roundUp_neg (mode q r half : Nat) : roundUp mode true q r half = roundUp (mirrorMode mode) false q r half := by
  match mode with
  | 0 => rfl
  | 1 => rfl
  | 2 => rfl
  | 3 => rfl
  | 4 => rfl
  | n + 5 => rfl

/-- A magnitude with a fraction, as integer part and remainder. -/
theorem dyadic_eq (m s : Nat) : (m : ℚ) * 2 ^ (-s : Int) = (m / 2 ^ s : Nat) + ((m % 2 ^ s : Nat) : ℚ) / (2 ^ s : Nat) := by
  have hpos : ((2 ^ s : Nat) : ℚ) ≠ 0 := by positivity
  have hm : (m : ℚ) = (2 ^ s : Nat) * (m / 2 ^ s : Nat) + (m % 2 ^ s : Nat) := by exact_mod_cast (Nat.div_add_mod m (2 ^ s)).symm
  have hpow : (2 : ℚ) ^ (-s : Int) = ((2 ^ s : Nat) : ℚ)⁻¹ := by rw [zpow_neg, zpow_natCast, Nat.cast_pow, Nat.cast_ofNat]
  rw [hpow, ← div_eq_mul_inv, div_eq_iff hpos, add_mul, div_mul_cancel₀ _ hpos, mul_comm ((m / 2 ^ s : Nat) : ℚ)]
  exact hm

theorem roundInt_fraction (neg : Bool) (m s mode : Nat) : roundInt neg m (-(s + 1 : Nat)) mode =
    (if roundUp mode neg (m / 2 ^ (s + 1)) (m % 2 ^ (s + 1)) (2 ^ s) then m / 2 ^ (s + 1) + 1 else m / 2 ^ (s + 1),
      decide (m % 2 ^ (s + 1) ≠ 0)) := by
  have hhalf : 2 ^ (s + 1) / 2 = 2 ^ s := by rw [pow_succ, Nat.mul_div_cancel _ two_pos]
  simp only [roundInt, if_neg (by omega : ¬(-((s + 1 : Nat) : Int) ≥ 0)), neg_neg, Int.toNat_natCast, hhalf]

/-- What a dyadic magnitude rounds to in a mode is what the model computes, and the model says whether it is exact. -/
theorem roundInt_of_nonneg {mode m : Nat} {e : Int} {n : Int} (hm : mode < 5) (h : RoundsTo mode (m * 2 ^ e) n) :
    ((roundInt false m e mode).1 : Int) = n ∧ ((roundInt false m e mode).2 = false ↔ (n : ℚ) = m * 2 ^ e) := by
  by_cases he : e ≥ 0
  · obtain ⟨k, rfl⟩ := Int.eq_ofNat_of_zero_le he
    have hv : (m : ℚ) * 2 ^ (k : Int) = (m * 2 ^ k : Nat) + 0 := by push_cast; rw [zpow_natCast, add_zero]
    rw [hv] at h ⊢
    rw [h.exact_iff hm le_rfl one_pos]
    simp only [roundInt, if_pos he, Int.toNat_natCast, iff_self, and_true]
    exact ((h.eq_of_nonneg hm le_rfl one_pos).resolve_left fun hr => not_roundsAway_zero _ _ hr.1).2.symm
  · obtain ⟨s, rfl⟩ : ∃ s : Nat, e = -(s + 1 : Nat) := ⟨(-e - 1).toNat, by omega⟩
    have h0 : (0 : ℚ) ≤ ((m % 2 ^ (s + 1) : Nat) : ℚ) / (2 ^ (s + 1) : Nat) := by positivity
    have h1 : ((m % 2 ^ (s + 1) : Nat) : ℚ) / (2 ^ (s + 1) : Nat) < 1 := by
      rw [div_lt_one (by positivity), Nat.cast_lt]
      exact Nat.mod_lt _ (by positivity)
    have hup := roundUp_iff hm (m / 2 ^ (s + 1)) (m % 2 ^ (s + 1)) (k := 2 ^ s) (by positivity)
    rw [← pow_succ'] at hup
    rw [dyadic_eq] at h ⊢
    rw [h.exact_iff hm h0 h1, roundInt_fraction, div_eq_zero_iff, or_iff_left (by positivity), Nat.cast_eq_zero]
    refine ⟨?_, by simp⟩
    rcases h.eq_of_nonneg hm h0 h1 with ⟨haway, rfl⟩ | ⟨hstay, rfl⟩
    · rw [if_pos (hup.2 haway), Nat.cast_succ]
    · rw [if_neg (mt hup.1 hstay)]

theorem roundInt_neg (m : Nat) (e : Int) (mode : Nat) : roundInt true m e mode = roundInt false m e (mirrorMode mode) := by
  unfold roundInt
  simp only [roundUp_neg]

theorem mirrorMode_lt {mode : Nat} (hm : mode < 5) : mirrorMode mode < 5 := by
  unfold mirrorMode
  split <;> omega

/-- What a finite value rounds to in a mode is what the model computes. -/
theorem roundInt_eq {neg : Bool} {mode m : Nat} {e : Int} {n : Int} (hm : mode < 5)
    (h : RoundsTo mode (FVal.fin neg m e false).val n) : signed neg (roundInt neg m e mode).1 = n
      ∧ ((roundInt neg m e mode).2 = false ↔ (n : ℚ) = (FVal.fin neg m e false).val) := by
  cases neg with
  | false => exact roundInt_of_nonneg hm h
  | true =>
    have hval : (FVal.fin true m e false).val = -(m * 2 ^ e) := by simp [FVal.val, signed]
    rw [hval] at h ⊢
    have hneg := h.neg
    rw [neg_neg] at hneg
    obtain ⟨hr, hex⟩ := roundInt_of_nonneg (mirrorMode_lt hm) hneg
    rw [roundInt_neg, hex, signed, if_pos rfl, hr, neg_neg, Int.cast_neg, neg_eq_iff_eq_neg]
    exact ⟨rfl, Iff.rfl⟩

/-! ### CVT.I -/

/-- A value in the range of its type is stored as it is. -/
theorem wrapInt_of_mem {t : Nat} (ht : t ≤ 8) {x : Int} (hlo : (rangeT t).1 ≤ x) (hhi : x ≤ (rangeT t).2) : wrapInt t x = x := by
  have hsat : satT t x = x := by
    unfold satT
    omega
  rw [← hsat, wrapInt_satT ht]

/-- What a source of a type stands for, from all of its register. -/
theorem asInt_eq_wrapInt {t : Nat} (ht : t < 6) (w : Word) : asInt t w = wrapInt t (storedInt t w) := by
  unfold asInt wrapInt storedInt
  split
  · rw [BitVec.toInt_eq_toNat_bmod]
    refine (Int.bmod_bmod_of_dvd ?_).symm
    exact pow_dvd_pow 2 (by interval_cases t <;> decide)
  · rfl

theorem asInt_wrapT {t : Nat} (ht : t < 6) {x : Int} (hlo : (rangeT t).1 ≤ x) (hhi : x ≤ (rangeT t).2) :
    asInt t (wrapT t x) = x := by
  rw [asInt_eq_wrapInt ht, storedInt_wrapT ht, wrapInt_of_mem (by omega) hlo hhi, wrapInt_of_mem (by omega) hlo hhi]

theorem rangeT_ordered {t : Nat} (ht : t < 6) : (rangeT t).1 ≤ (rangeT t).2 := by
  interval_cases t <;> decide

/-- The result and the flags of CVT.I from F32 in one lane. -/
def cvtI32 (t mode : Nat) (a : Word) : Word × Flags :=
  (wrapT t (cvtFI f32 t a.toNat mode).1, (cvtFI f32 t a.toNat mode).2)

theorem cvtI32_nan {a : Word} (h : isNaN32 a) {t : Nat} (ht : t < 6) (mode : Nat) : cvtI32 t mode a = (0, Fl.nv) := by
  simp only [cvtI32, cvtFI, decode_nan h, cvtVI, Prod.mk.injEq, and_true]
  interval_cases t <;> rfl

theorem cvtI32_inf {a : Word} (h : isInf32 a) {t : Nat} (ht : t < 6) (mode : Nat) :
    asInt t (cvtI32 t mode a).1 = (if a.msb then (rangeT t).1 else (rangeT t).2) ∧ (cvtI32 t mode a).2 = Fl.nv := by
  simp only [cvtI32, cvtFI, decode_inf h, cvtVI, and_true]
  have hle := rangeT_ordered ht
  split
  · exact asInt_wrapT ht le_rfl hle
  · exact asInt_wrapT ht hle le_rfl

/-- CVT.I of a finite word that rounds to `n`: clamped with NV outside the range, else `n`, with NX unless exact. -/
theorem cvtFI_finite {a : Word} (h : finite32 a) {t mode : Nat} (hm : mode < 5) {n : Int} (hn : RoundsTo mode (val32 a) n) :
    cvtFI f32 t a.toNat mode =
      if n < (rangeT t).1 then ((rangeT t).1, Fl.nv) else if (rangeT t).2 < n then ((rangeT t).2, Fl.nv)
      else (n, if (n : ℚ) = val32 a then Fl.none else Fl.nx) := by
  obtain ⟨m, e, hd, hv⟩ := decode_finite h
  rw [← hv] at hn ⊢
  obtain ⟨hr, hex⟩ := roundInt_eq hm hn
  simp only [cvtFI, hd, cvtVI, hr, ← hex, gt_iff_lt, ← Bool.not_eq_true, ite_not]

/-- What 06 R163 says of CVT.I from F32 in one lane, its result asked through the type's integers. -/
def CvtIRule (t mode : Nat) (a : Word) (r : Word × Flags) : Prop :=
  (isNaN32 a → r.1 = 0 ∧ r.2 = Fl.nv)
  ∧ (isInf32 a → asInt t r.1 = (if a.msb then (rangeT t).1 else (rangeT t).2) ∧ r.2 = Fl.nv)
  ∧ (finite32 a → ∀ n, RoundsTo mode (val32 a) n →
    ((rangeT t).1 ≤ n → n ≤ (rangeT t).2 → asInt t r.1 = n ∧ r.2 = if (n : ℚ) = val32 a then Fl.none else Fl.nx)
    ∧ (n < (rangeT t).1 → asInt t r.1 = (rangeT t).1 ∧ r.2 = Fl.nv)
    ∧ ((rangeT t).2 < n → asInt t r.1 = (rangeT t).2 ∧ r.2 = Fl.nv))

theorem cvtIRule {t mode : Nat} (ht : t < 6) (hm : mode < 5) (a : Word) : CvtIRule t mode a (cvtI32 t mode a) := by
  have hle := rangeT_ordered ht
  refine ⟨fun h => by rw [cvtI32_nan h ht]; exact ⟨rfl, rfl⟩, fun h => cvtI32_inf h ht mode,
    fun h n hn => ⟨fun hlo hhi => ?inside, fun hlt => ?below, fun hgt => ?above⟩⟩
  case inside =>
    rw [cvtI32, cvtFI_finite h hm hn, if_neg hlo.not_gt, if_neg hhi.not_gt]
    exact ⟨asInt_wrapT ht hlo hhi, rfl⟩
  case below =>
    rw [cvtI32, cvtFI_finite h hm hn, if_pos hlt]
    exact ⟨asInt_wrapT ht le_rfl hle, rfl⟩
  case above =>
    rw [cvtI32, cvtFI_finite h hm hn, if_neg (hle.trans_lt hgt).not_gt, if_pos hgt]
    exact ⟨asInt_wrapT ht hle le_rfl, rfl⟩

theorem cvtI_result (x : XF) {c : Ctx} (hsrc : c.x.b = 0x10) (ht : c.itype < 6) (hm : c.rnd < 5) :
    ∃ g, ResultF (.cvtI x) c 6 g ∧ ∀ l, l < 32 → CvtIRule c.itype c.rnd (c.srcA.at l) (g l) := by
  refine ⟨fun l => cvtI32 c.itype c.rnd (c.srcA.at l), resultF_of_gather (out := outCvtI) rfl ?_, fun l _ => cvtIRule ht hm _⟩
  simp [outCvtI, hsrc, is64_of_narrow (.inl ht), cvtI32, Ctx.out32, fmtOf]

end Sys2Proof.Machine
end

section
/-!
FMIN, FMAX, FCMP and CVT.I together (06 R154, R155, R163).
-/

namespace Sys2Proof.Machine

/-- Settles O23: order, comparison and conversion of F32 words agree with their values as rationals. -/
theorem floatOrderAndConversion : Obligations.FloatOrderAndConversion := by
  unfold Obligations.FloatOrderAndConversion
  refine ⟨fun x w h c i => ⟨fun hi => ?fmin, fun hi => ?fmax⟩, fun x c rel k hk hrel => ?fcmp,
    fun x c hsrc ht hm => cvtI_result x hsrc ht hm⟩
  case fmin => exact minMax_result (isMax := false) (eq_of_mem_forms (a := some (6, outFmin)) hi ⟨rfl, rfl, rfl⟩) rfl
  case fmax => exact minMax_result (isMax := true) (eq_of_mem_forms (a := some (6, outFmax)) hi ⟨rfl, rfl, rfl⟩) rfl
  case fcmp =>
    subst hk
    exact fcmp_result x hrel

end Sys2Proof.Machine
end

section
/-!
Moves between lanes, polls and equality masks (07 R168, R172 to R174).
-/

namespace Sys2Proof.Machine

/-! ### Moves (07 R172) -/

/-- A lane of the source as LPERM, the shifts and LROT read it (07 R168). -/
def Ctx.exchanged (c : Ctx) (m : Nat) : Word :=
  if c.f.role.isOwner = true ∧ m ≠ c.f.role.ownerLane then 0 else c.srcA.at m

theorem exchange_at (c : Ctx) {m : Nat} (hm : m < 32) : c.exchange.at m = c.exchanged m := by
  unfold Ctx.exchange Ctx.exchanged Ctx.owner
  dsimp only
  cases c.f.role.isOwner with
  | false => simp
  | true =>
    rw [if_pos rfl, lanes_at_tab _ hm]
    by_cases h : m = c.f.role.ownerLane <;> simp [h]

/-- A move whose source lanes lie in the flight gives each lane what the network reads there. -/
theorem result32_of_moved {i : Instr} {c : Ctx} {out : Ctx → Chk FixedOut} {m : Nat → Option Nat} {g : Nat → Word}
    (hf : fixedResult i = some (8, out)) (ho : out c = .ok (c.moved m))
    (hg : ∀ l, l < 32 → (m l).getD l < 32 ∧ c.exchanged ((m l).getD l) = g l) : Result32 i c 8 g :=
  result32_of_out32 hf ho fun l hl => (exchange_at c (hg l hl).1).trans (hg l hl).2

/-! ### Polls (07 R173) -/

theorem getLsbD_allOrNone (p : Prop) [Decidable p] {l : Nat} (hl : l < 32) :
    (if p then (0xFFFFFFFF : Word) else 0).getLsbD l = decide p := by
  by_cases h : p
  · have hones : (0xFFFFFFFF : Word) = BitVec.allOnes 32 := rfl
    rw [if_pos h, decide_eq_true h, hones, BitVec.getLsbD_allOnes, decide_eq_true hl]
  · rw [if_neg h, decide_eq_false h]
    exact BitVec.getLsbD_zero

/-- A predicate result that is one condition in every lane. -/
theorem resultP_of_condition {i : Instr} {c : Ctx} {lat : Nat} {out : Ctx → Chk (Word × Flags)} {p : Prop} [Decidable p]
    {fl : Flags} (hf : predResult i = some (lat, out)) (ho : out c = .ok (if p then 0xFFFFFFFF else 0, fl)) :
    ResultP i c lat (fun _ => p) fl :=
  ⟨out, _, hf, ho, predResult_lands hf ho, fun _ hl => getLsbD_allOrNone p hl⟩

/-! ### Equality (07 R174) -/

/-- The lanes that hold the word of lane `l`, of the active ones. -/
theorem getLsbD_equalLanes (em : Word) (a : Lanes) (l j : Nat) :
    ((maskOf fun m => a.at m = a.at l) &&& em).getLsbD j = true ↔ em.getLsbD j = true ∧ a.at j = a.at l := by
  rw [BitVec.getLsbD_and, maskOf_getLsbD, Bool.and_eq_true, Bool.and_eq_true, decide_eq_true_iff, decide_eq_true_iff, and_comm]
  exact ⟨fun ⟨he, _, ha⟩ => ⟨he, ha⟩, fun ⟨he, ha⟩ => ⟨he, BitVec.lt_of_getLsbD he, ha⟩⟩

/-- The active lanes hold one word. -/
def Ctx.AllEqual (c : Ctx) : Prop :=
  ∀ j k, c.f.em.getLsbD j = true → c.f.em.getLsbD k = true → c.srcA.at j = c.srcA.at k

theorem lowestLane_active {em : Word} {j : Nat} (h : em.getLsbD j = true) : em.getLsbD (lowestLane em) = true := by
  have hj : j ∈ lanesOf em := mem_lanesOf.2 h
  rw [← mem_lanesOf]
  unfold lowestLane
  cases hls : lanesOf em with
  | nil => simp [hls] at hj
  | cons l ls => simp

/-- Against the lowest active lane alone, every pair of active lanes is compared. -/
theorem allEqual_iff (c : Ctx) :
    ((lanesOf c.f.em).all fun m => c.srcA.at m = c.srcA.at (lowestLane c.f.em)) = true ↔ c.AllEqual := by
  simp only [List.all_eq_true, mem_lanesOf, decide_eq_true_eq]
  exact ⟨fun h j k hj hk => (h j hj).trans (h k hk).symm, fun h j hj => h j _ hj (lowestLane_active hj)⟩

/-- Settles O24: every form's source lane lies in the flight, and each vote and comparison is over the active lanes. -/
theorem lanesMoveAndCompare : Obligations.LanesMoveAndCompare := by
  unfold Obligations.LanesMoveAndCompare
  refine ⟨fun x w c i => ⟨fun hi => ?lperm, fun hk => ⟨fun hi => ?lshu, fun hi => ?lshd, fun hi => ?lxor, ?lrot⟩⟩,
    fun x w c i => ⟨?any, ?all, fun hi => ?mask, ?leqMask, ?leqAll⟩⟩
  case lperm =>
    exact result32_of_moved (eq_of_mem_forms (a := some (8, outLperm)) hi ⟨rfl, rfl⟩) rfl
      fun l _ => ⟨Nat.mod_lt _ (by decide), rfl⟩
  case lshu =>
    refine result32_of_moved (eq_of_mem_forms (a := some (8, outLshu)) hi ⟨rfl, rfl⟩) rfl fun l hl => ?_
    by_cases h : c.x.c.toNat ≤ l
    · rw [if_pos h, if_pos h]
      exact ⟨(Nat.sub_le l _).trans_lt hl, rfl⟩
    · rw [if_neg h, if_neg h]
      exact ⟨hl, rfl⟩
  case lshd =>
    refine result32_of_moved (eq_of_mem_forms (a := some (8, outLshd)) hi ⟨rfl, rfl⟩) rfl fun l hl => ?_
    by_cases h : l + c.x.c.toNat < 32
    · rw [if_pos h, if_pos h]
      exact ⟨h, rfl⟩
    · rw [if_neg h, if_neg h]
      exact ⟨hl, rfl⟩
  case lxor =>
    exact result32_of_moved (eq_of_mem_forms (a := some (8, outLxor)) hi ⟨rfl, rfl⟩) rfl fun l hl =>
      have hlt : l ^^^ c.x.c.toNat < 32 := Nat.xor_lt_two_pow (n := 5) hl hk
      ⟨Nat.mod_lt _ (by decide), congrArg c.exchanged (Nat.mod_eq_of_lt hlt)⟩
  case lrot =>
    rintro rfl
    exact result32_of_moved (out := outLrot) rfl rfl fun l _ =>
      ⟨Nat.mod_lt _ (by decide), congrArg (fun n => c.exchanged (n % 32)) (Nat.add_sub_assoc hk.le l)⟩
  case any =>
    rintro rfl
    exact resultP_of_condition (out := outPollAny) rfl rfl
  case all =>
    rintro rfl
    exact resultP_of_condition (out := outPollAll) rfl rfl
  case mask =>
    exact result32_of_out32 (eq_of_mem_forms (a := some (8, outPollMask)) hi ⟨rfl, rfl⟩) rfl fun _ _ => rfl
  case leqMask =>
    rintro rfl
    exact ⟨_, result32_of_out32 (out := outLeqMask) rfl rfl fun _ _ => rfl, fun l j _ _ => getLsbD_equalLanes _ _ l j⟩
  case leqAll =>
    rintro rfl
    refine ⟨_, result32_of_out32 (out := outLeqAll) rfl rfl fun _ _ => rfl, fun h => ?equal,
      fun ⟨j, k, hj, hk, hne⟩ => ?unequal⟩
    case equal => exact if_pos ((allEqual_iff c).2 h)
    case unequal => exact if_neg fun h => hne ((allEqual_iff c).1 h j k hj hk)

end Sys2Proof.Machine
end

section
/-!
The combining tree and the running sum (07 R169, R170, R175 to R177).
-/

namespace Sys2Proof.Machine

/-! ### The tree: the model's levels, and the nodes of 07 R169 -/

/-- The leaves below node `i` of level `n`, in lane order. -/
def leavesBelow (leaf : Nat → Word) : Nat → Nat → Lanes
  | 0, i => [leaf i]
  | n + 1, i => leavesBelow leaf n (2 * i) ++ leavesBelow leaf n (2 * i + 1)

theorem leavesBelow_root (leaf : Nat → Word) : leavesBelow leaf 5 0 = Lanes.tab leaf := rfl

theorem length_leavesBelow (leaf : Nat → Word) (n i : Nat) : (leavesBelow leaf n i).length = 2 ^ n := by
  induction n generalizing i with
  | zero => rfl
  | succ n ih => rw [leavesBelow, List.length_append, ih, ih, Nat.pow_succ, Nat.mul_two]

/-- No pair straddles the end of an even number of nodes. -/
theorem treeLevel_append (op : Word → Word → Word × Flags) : ∀ us vs : Lanes, Even us.length →
    treeLevel op (us ++ vs) =
      ((treeLevel op us).1 ++ (treeLevel op vs).1, (treeLevel op us).2 ||| (treeLevel op vs).2)
  | [], vs, _ => by simp [treeLevel, Fl.none]
  | [_], _, h => absurd h (by simp)
  | x :: y :: us, vs, h => by
    have hus : Even us.length := by simpa [Nat.even_add_one] using h
    simp [treeLevel, treeLevel_append op us vs hus, BitVec.or_assoc]

section
variable (op : Word → Word → Word) (fl : Word → Word → Flags)

/-- What a node computes: its word and its flags. -/
def treeNode (x y : Word) : Word × Flags := (op x y, fl x y)

theorem treeLevel_leavesBelow_succ (leaf : Nat → Word) (n i : Nat) :
    treeLevel (treeNode op fl) (leavesBelow leaf (n + 2) i) =
      ((treeLevel (treeNode op fl) (leavesBelow leaf (n + 1) (2 * i))).1
          ++ (treeLevel (treeNode op fl) (leavesBelow leaf (n + 1) (2 * i + 1))).1,
        (treeLevel (treeNode op fl) (leavesBelow leaf (n + 1) (2 * i))).2
          ||| (treeLevel (treeNode op fl) (leavesBelow leaf (n + 1) (2 * i + 1))).2) :=
  treeLevel_append _ _ _ (by rw [length_leavesBelow]; exact Nat.even_pow.2 ⟨even_two, n.succ_ne_zero⟩)

/-- The nodes of level 1, as the leaves of a tree of one level less. -/
theorem treeAt_of_level (leaf : Nat → Word) (n i : Nat) :
    treeAt op (treeAt op leaf 1) n i = treeAt op leaf (n + 1) i := by
  induction n generalizing i with
  | zero => rfl
  | succ n ih =>
    rw [treeAt, ih, ih]
    rfl

theorem treeLevel_leaves (leaf : Nat → Word) (n i : Nat) :
    (treeLevel (treeNode op fl) (leavesBelow leaf (n + 1) i)).1 = leavesBelow (treeAt op leaf 1) n i := by
  induction n generalizing i with
  | zero => rfl
  | succ n ih =>
    rw [treeLevel_leavesBelow_succ]
    dsimp only
    rw [ih, ih, leavesBelow]

theorem treeLevel_flags (leaf : Nat → Word) (n i : Nat) :
    (treeLevel (treeNode op fl) (leavesBelow leaf (n + 1) i)).2 ||| treeFlags op fl (treeAt op leaf 1) n i
      = treeFlags op fl leaf (n + 1) i := by
  induction n generalizing i with
  | zero => simp [leavesBelow, treeLevel, treeNode, treeFlags, treeAt, Fl.none]
  | succ n ih =>
    rw [treeLevel_leavesBelow_succ, treeFlags, treeFlags, treeAt_of_level, treeAt_of_level, ← ih, ← ih]
    dsimp only
    ac_rfl

/-- The model's `n` levels end in node `i` of level `n`, with the flags of all nodes below it. -/
theorem treeUp_leavesBelow (leaf : Nat → Word) (n i : Nat) :
    treeUp (treeNode op fl) n (leavesBelow leaf n i) = ([treeAt op leaf n i], treeFlags op fl leaf n i) := by
  induction n generalizing leaf with
  | zero => rfl
  | succ n ih =>
    rw [treeUp, treeLevel_leaves, ih, treeAt_of_level, treeLevel_flags]

variable {op fl}

/-- A reduction over the 32 lanes is the root of the tree whose nodes compute `op` and raise `fl`. -/
theorem treeResult_of_reduce {i : Instr} {c : Ctx} {out : Ctx → Chk FixedOut} {identity : Word}
    (hf : fixedResult i = some (8, out)) (ho : out c = .ok (c.reduce identity (treeNode op fl))) :
    TreeResult i c identity op fl := by
  have htree := treeUp_leavesBelow op fl (fun l => if c.f.em.getLsbD l then c.srcA.at l else identity) 5 0
  rw [leavesBelow_root] at htree
  refine ⟨out, _, hf, ho, fixedResult_lands hf ho, rfl, rfl, fun l hl => ?root, ?flags⟩
  case root =>
    rw [Ctx.reduce]
    dsimp only
    rw [lanes_at_tab _ hl, htree, List.headD_cons]
  case flags => exact congrArg Prod.snd htree

end

/-! ### Minimum and maximum by type (07 R170) -/

theorem minW_signed : minW true = fun a b => if a.toInt ≤ b.toInt then a else b := by
  funext a b
  simp only [minW, ↓reduceIte, BitVec.sle_iff_toInt_le]

theorem maxW_signed : maxW true = fun a b => if a.toInt ≤ b.toInt then b else a := by
  funext a b
  simp only [maxW, ↓reduceIte, BitVec.sle_iff_toInt_le]

theorem minW_unsigned : minW false = fun a b => if a.toNat ≤ b.toNat then a else b := by
  funext a b
  simp only [minW, Bool.false_eq_true, ↓reduceIte, BitVec.le_def, decide_eq_true_eq]

theorem maxW_unsigned : maxW false = fun a b => if a.toNat ≤ b.toNat then b else a := by
  funext a b
  simp only [maxW, Bool.false_eq_true, ↓reduceIte, BitVec.le_def, decide_eq_true_eq]

/-! ### The running sum (07 R177) -/

/-- The active lanes at or below lane `l`. -/
theorem lanesOf_filter_le (em : Word) {l : Nat} (hl : l < 32) :
    (lanesOf em).filter (· ≤ l) = (List.range (l + 1)).filter fun m => em.getLsbD m := by
  have hsplit : laneIds = List.range (l + 1) ++ (List.range (31 - l)).map (l + 1 + ·) := by
    rw [← List.range_add, laneIds]
    congr 1
    omega
  have habove : ((List.range (31 - l)).map (l + 1 + ·)).filter (fun m => decide (m ≤ l) && em.getLsbD m) = [] := by
    simp only [List.filter_eq_nil_iff, List.mem_map, Bool.and_eq_true, decide_eq_true_eq]
    rintro _ ⟨k, _, rfl⟩ ⟨hle, _⟩
    omega
  rw [lanesOf, List.filter_filter, hsplit, List.filter_append, habove, List.append_nil]
  refine List.filter_congr fun m hm => ?_
  rw [decide_eq_true (Nat.le_of_lt_succ (List.mem_range.1 hm)), Bool.true_and]

theorem scanAdd_eq_sum (em : Word) (a : Lanes) {l : Nat} (hl : l < 32) :
    ((lanesOf em).filter (· ≤ l)).foldl (fun t m => t + a.at m) 0 =
      (((List.range (l + 1)).filter fun m => em.getLsbD m).map a.at).sum := by
  rw [lanesOf_filter_le em hl, List.sum_eq_foldl, List.foldl_map]

/-! ### The obligation -/

theorem isI32_of_i32 {c : Ctx} (ht : c.itype = 0) : c.isI32 = true := decide_eq_true ht

theorem isI32_of_n32 {c : Ctx} (ht : c.itype = 1) : c.isI32 = false := decide_eq_false (by rw [ht]; decide)

/-- Settles O25: each reduction is the tree of its node operation, and the running sum runs over the active lanes. -/
theorem reductionsAndScan : Obligations.ReductionsAndScan := by
  unfold Obligations.ReductionsAndScan
  intro x c
  have hmin : TreeResult (.redMin x) c (if c.isI32 then 0x7FFFFFFF else 0xFFFFFFFF) (minW c.isI32) fun _ _ => Fl.none :=
    treeResult_of_reduce (out := outRedMin) rfl rfl
  have hmax : TreeResult (.redMax x) c (if c.isI32 then 0x80000000 else 0) (maxW c.isI32) fun _ _ => Fl.none :=
    treeResult_of_reduce (out := outRedMax) rfl rfl
  refine ⟨?add, fun ht => ?signed, fun ht => ?unsigned, ?and, ?or, ?xor, ⟨?fadd, ?fmin, ?fmax⟩, ?scan⟩
  case add => exact treeResult_of_reduce (out := outRedAdd) rfl rfl
  case signed =>
    rw [isI32_of_i32 ht, minW_signed] at hmin
    rw [isI32_of_i32 ht, maxW_signed] at hmax
    exact ⟨hmin, hmax⟩
  case unsigned =>
    rw [isI32_of_n32 ht, minW_unsigned] at hmin
    rw [isI32_of_n32 ht, maxW_unsigned] at hmax
    exact ⟨hmin, hmax⟩
  case and => exact treeResult_of_reduce (out := outRedAnd) rfl rfl
  case or => exact treeResult_of_reduce (out := outRedOr) rfl rfl
  case xor => exact treeResult_of_reduce (out := outRedXor) rfl rfl
  case fadd => exact treeResult_of_reduce (out := outRedFadd) rfl rfl
  case fmin => exact treeResult_of_reduce (out := outRedFmin) rfl rfl
  case fmax => exact treeResult_of_reduce (out := outRedFmax) rfl rfl
  case scan => exact result32_of_out32 (out := outScanAdd) rfl rfl fun l hl => scanAdd_eq_sum c.f.em c.srcA hl

end Sys2Proof.Machine
end

section
/-!
XRET: the target that it accepts, the flight that it returns to lane mode, and its trap (15 R329, R357).
-/

namespace Sys2Proof.Machine

/-! ### An instruction that closes the chain and leads nowhere -/

theorem Ctx.chainAfter_of_closesChain {c : Ctx} (h : closesChain c.op9 = true) (l : Option Writer) :
    c.chainAfter l = Chain.closed := by
  unfold Ctx.chainAfter
  split
  · rfl
  · rw [if_pos (by simp [h])]

/-- What issues without a set flag and stays where its own effect put the flight adds the issue bookkeeping alone. -/
theorem Ctx.issued_stay {c : Ctx} (hc : closesChain c.op9 = true) (hf : c.flag = none) (s : State) (l : Option Writer)
    (g : Flight) : c.issued s .stay l g = { g with
      chain := Chain.closed, lastIssue := some c.now, waitCount := 0, block := .none, yielding := none } := by
  unfold Ctx.issued
  simp only [hf, Ctx.chainAfter_of_closesChain hc]
  rfl

/-! ### Roles and targets -/

theorem Ctx.roleIn_collapsed (c : Ctx) : c.roleIn [.collapsed] = !c.f.role.isService := by
  unfold Ctx.roleIn
  cases c.f.role <;> rfl

/-- A bit of the mask is set from bit 1 to bit 56 (03 R75). -/
theorem pcMask_getLsbD {i : Nat} (hi : i < 64) : pcMask.getLsbD i = decide (1 ≤ i ∧ i < 57) := by
  revert i
  decide

/-- The PC holds an even address below 2^57 as it is. -/
theorem and_pcMask_of_legal {t : DWord} (hlow : t.getLsbD 0 = false) (hhigh : t >>> 57 = 0) : t &&& pcMask = t := by
  refine BitVec.eq_of_getLsbD_eq fun i hi => ?_
  rw [BitVec.getLsbD_and, pcMask_getLsbD hi]
  by_cases hin : 1 ≤ i ∧ i < 57
  · rw [decide_eq_true hin, Bool.and_true]
  · have hbit : t.getLsbD i = false := by
      rcases Nat.eq_zero_or_pos i with rfl | hpos
      · exact hlow
      · have habove : (t >>> 57).getLsbD (i - 57) = false := by rw [hhigh]; exact BitVec.getLsbD_zero
        rwa [BitVec.getLsbD_ushiftRight, Nat.add_sub_cancel' (by omega)] at habove
    rw [hbit, Bool.false_and]

/-! ### XRET -/

/-- XRET refuses a service flight, and a target that is odd or above bit 56. -/
def Flight.xretRefused (f : Flight) : Bool :=
  f.role.isService || f.trap.tepc.getLsbD 0 || decide (f.trap.tepc >>> 57 ≠ 0)

theorem Flight.xretRefused_iff (f : Flight) : f.xretRefused = true ↔
    f.role.isService = true ∨ f.trap.tepc.getLsbD 0 = true ∨ f.trap.tepc >>> 57 ≠ 0 := by
  rw [Flight.xretRefused, Bool.or_eq_true, Bool.or_eq_true, decide_eq_true_iff, or_assoc]

theorem exec_xret (x : XF) (s : State) : exec (.xret x) s = ctlOp (viewX 0x1A4 x) s fun c =>
    if c.f.xretRefused then illegalOperand else .ok (c.s.putFlight c.f.xret, .stay) := by
  have hbody : exec (.xret x) s = ctlOp (viewX 0x1A4 x) s fun c =>
      if !c.roleIn [.collapsed] || c.f.trap.tepc.getLsbD 0 || c.f.trap.tepc >>> 57 ≠ 0 then illegalOperand
      else .ok (c.s.putFlight c.f.xret, .stay) := rfl
  simp only [Ctx.roleIn_collapsed, Bool.not_not] at hbody
  exact hbody

/-- XRET that is not refused issues over the flight it returns to lane mode. -/
theorem exec_xret_returns {x y : XF} {s : State} {f : Flight} (h : AtIssue (viewX 0x1A4 x) s f y)
    (hok : f.xretRefused = false) :
    ∃ t, exec (.xret x) s = .next t
      ∧ t.flight f.key = some { f.xret with
          lastIssue := some (s.now f.vd), waitCount := 0, block := .none, yielding := none }
      ∧ (Ctx.atIssue (viewX 0x1A4 x) s f y).Elsewhere s t := by
  have hflag : (Ctx.atIssue (viewX 0x1A4 x) s f y).flag = none :=
    h.noFlag (i := .xret x) rfl fun hk => Kind.noConfusion hk
  obtain ⟨t, hnext, hflight, helse⟩ := ctlOp_goes (g := f.xret) (nx := .stay) h (Flight.xret_key f)
    (body := fun c => if c.f.xretRefused then illegalOperand else .ok (c.s.putFlight c.f.xret, .stay))
    (by simp [hok])
  rw [Ctx.issued_stay rfl hflag] at hflight
  exact ⟨t, (exec_xret x s).trans hnext, hflight, helse⟩

/-- XRET that is refused takes ILLEGAL_OPERAND at the lowest active lane. -/
theorem exec_xret_traps {x y : XF} {s : State} {f : Flight} (h : AtIssue (viewX 0x1A4 x) s f y)
    (hbad : f.xretRefused = true) :
    exec (.xret x) s = .next (s.takeTrap f Trap.illegalOperand (lowestLane f.em) 0 f.pc 0) :=
  calc exec (.xret x) s = _ := exec_xret x s
    _ = .next (s.stopped f 8 (.trap Trap.illegalOperand none)) := ctlOp_stop h (if_pos hbad)
    _ = .next (s.takeTrap f Trap.illegalOperand (lowestLane f.em) 0 f.pc 0) := rfl

/-- Settles O11: XRET returns a collapsed flight to lane mode at a legal target, and traps with any other role or target. -/
theorem xretReturns : Obligations.XretReturns := by
  unfold Obligations.XretReturns
  intro x y s f h
  refine ⟨fun hrole hlow hhigh => ?returns, fun hbad => ?traps⟩
  case returns =>
    have hok : f.xretRefused = false := by
      simp only [Flight.xretRefused, hrole, hlow, hhigh, ne_eq, not_true_eq_false, decide_false, Bool.or_self]
    obtain ⟨t, hnext, hflight, helse⟩ := exec_xret_returns h hok
    exact ⟨t, _, hnext, hflight, rfl, rfl, rfl, and_pcMask_of_legal hlow hhigh, rfl, rfl, rfl, rfl, rfl, rfl, helse⟩
  case traps => exact exec_xret_traps h (f.xretRefused_iff.2 hbad)

end Sys2Proof.Machine
end
